-- ==== Sys2Proof/Word.lean ====
section
/-! DEFINITION. The word types of the model (R9, R107). -/
namespace Sys2Proof

/-- One byte of Hopper, Granary, a frame or a flit. -/
abbrev Byte := BitVec 8
/-- A 32-bit word: a scalar instruction, an FP32 bit pattern (R34). -/
abbrev Word32 := BitVec 32
/-- A 64-bit word: a Culm register (R107). -/
abbrev Word64 := BitVec 64
/-- The four words of one tile instruction, word 0 in bits 31..0 (R110, R114). -/
abbrev Word128 := BitVec 128

/-- A sparse map from numbers to values: keys strictly rising, no entry equal to the map's default. -/
abbrev KV (α : Type) := List (Nat × α)

end Sys2Proof
end

