-- ==== Sys2Proof/Syntax.lean ====
section
/-! DEFINITION. The commands the block takes and their operands: one constructor per row of the table.
A scalar instruction carries every field of its format, the reserved ones too (R112); a tile
instruction carries its four words (Tables 04-4 to 04-11); a dictionary command carries the head of
its request; an event carries what reaches the module from outside with it. -/
namespace Sys2Proof

/-- A general register number, x0 to x31 (R107). -/
abbrev Reg := BitVec 5

/-- A Tiller, Field.slot (R15, R18). -/
structure Tid where
  field : Fin 8
  slot : Fin 88
  deriving DecidableEq, Repr

/-- A hardware thread of a Culm core (R107). -/
structure Thr where
  til : Tid
  n : Fin 8
  deriving DecidableEq, Repr

/-- A Harrow stream context (R235). -/
structure CtxId where
  til : Tid
  ctx : Fin 16
  deriving DecidableEq, Repr

/-- What RDID reads: fn 0x010 to 0x014 (Table 04-2). -/
inductive IdSel where
  | thread | tiller | width | argptr | tc
  deriving DecidableEq, Repr

/-- One other request for a Hopper bank in a tc: its port (Table 07-2) and how many tc it has waited. -/
structure BankReq where
  port : Nat
  waited : Nat
  addr : Nat
  deriving DecidableEq, Repr

/-- Who asked for a transfer over the Hedgerow: a unit for itself, a job, a host through a CXL port, or another module by a request of
a VC with a tag that came in on a Riljo port. -/
inductive Requester where
  | unit
  | job (j : BitVec 16)
  | host (port : Fin 2)
  | module (port : Fin 64) (src vc tag : Nat)
  deriving DecidableEq, Repr

/-- A transfer over the Hedgerow: its target address, whose bits [13:12] select its plane, and its requester (R409). -/
structure HedgeTransfer where
  target : Nat
  requester : Requester
  deriving DecidableEq, Repr

/-- The release of a CXL port's PERST_N, and whether its reference clock is present then (R459). -/
structure PerstRelease where
  port : Fin 2
  refclk : Bool
  deriving DecidableEq, Repr

/-- A Granary bank: stack, channel, bank within the channel (Table 07-3). -/
structure BankId where
  stack : Fin 8
  channel : Fin 64
  bank : Fin 32
  deriving DecidableEq, Repr

/-- The source of a sector request: the rows of Table 07-6. -/
inductive SectorSource where
  /-- a Tiller of the stack's own Field, and its thread that the request serves (R105) -/
  | tiller (t : Thr)
  /-- another Field, through the Hedgerow -/
  | field (f : Fin 8)
  /-- Headland A; awn marks a request of the Awn engine (R209) -/
  | headlandA (awn : Bool)
  | headlandB
  /-- patrol scrub and repair -/
  | scrub
  deriving DecidableEq, Repr

/-- A sector request: a read, or a write of the bytes of data from offset first of the sector. -/
structure SectorReq where
  source : SectorSource
  sector : Nat
  write : Bool
  first : Nat
  data : List Byte
  deriving DecidableEq, Repr

/-- What a code finds in what it protects (R408). -/
inductive CodeResult where
  | clean
  /-- corrected, with the number of bytes corrected -/
  | corrected (bytes : Nat)
  | uncorrectable
  deriving DecidableEq, Repr

/-- Where a dictionary request comes from (R360, R361). -/
inductive Origin where
  | mailbox (port : Fin 2)
  | outOfBand
  deriving DecidableEq, Repr

/-- The part of a request header that no row fixes: transport, session, tag and reserved bits (Table 12-4), and how much of the frame
comes (R360, R363). -/
structure ReqHead where
  origin : Origin
  sid : BitVec 8
  tag : BitVec 16
  rsv : BitVec 6
  /-- how many bytes of the frame come, where it is not the header and the LEN bytes after it -/
  bytes : Option Nat
  deriving DecidableEq, Repr

/-- An entry of the dictionary, `OD index:sub` (R13). -/
structure Entry where
  index : BitVec 16
  sub : BitVec 8
  deriving DecidableEq, Repr

/-- What else one tc of a Tiller's weight fill meets: the requests that want its Hopper banks in that tc, and how many units of the
Tiller's SRAM their codes correct (R83, R408). -/
structure FillTcIn where
  rivals : List BankReq
  corrected : Nat
  deriving DecidableEq, Repr

/-- How the I3C controller assigns a dynamic address: to the target of a static address, or, with none, to whichever target answers the
assignment of all. -/
structure AddrAssign where
  addr : BitVec 7
  static : Option (BitVec 7)
  deriving DecidableEq, Repr

/-- A whole request frame (Table 12-4); data are the bytes that follow the header. -/
structure Request where
  op : BitVec 8
  sid : BitVec 8
  tag : BitVec 16
  entry : Entry
  set : BitVec 2
  rsv : BitVec 6
  offset : Word32
  len : Word32
  data : List Byte
  deriving DecidableEq, Repr

/-- The result of a recovery's self-test (Table 14-3). -/
inductive SelfTest where
  | pass
  | fail
  /-- a failing Drill lane was found -/
  | lane (l : Fin 256)
  deriving DecidableEq, Repr

/-- A flit on the wire: the header fields of Table 09-3, five payload sectors and the CRC it carries (R267). TYPE is the row's
own; `reserved` n is a flit that has come with the reserved TYPE 8 + n instead. Of a flit that arrives, `codewords` lists the
symbols in error of each codeword whose decoding ends with it, and `fecBad` tells that it overlaps a codeword found uncorrectable
with the flit before it (R266). -/
structure Flit where
  seq : BitVec 12
  ack : BitVec 12
  nak : Bool
  vc : BitVec 4
  rsv62 : Bool
  stage : BitVec 3
  crvc : BitVec 4
  crmc : Bool
  crn : BitVec 7
  dst : BitVec 15
  src : BitVec 15
  tag : BitVec 12
  nsec : BitVec 3
  rsv : BitVec 2
  payload : List Byte
  crc : Word32
  reserved : Option (Fin 8)
  codewords : List (List (Fin 160))
  fecBad : Bool
  deriving DecidableEq, Repr

/-- The contents of a STOOK flit train, gathered (R299, R306): group, window, tile, whether it is a running
sum, a result or a gather tile, whether a Gleaner sent it, and the tile in its transport form. -/
structure StookMsg where
  gid : Fin 13
  window : Nat
  tile : Nat
  kind : BitVec 2
  gleaner : Bool
  bytes : List Byte
  deriving DecidableEq, Repr

/-- The three parts (R1). -/
inductive Variant where
  | gz940 | gz936 | gz932
  deriving DecidableEq, Repr

/-- A message of Rotation: its round and, where another member has sent it, the flits in which it came and their port
(R165). -/
structure RotNote where
  round : Nat
  port : Fin 64
  flits : List Flit
  deriving DecidableEq, Repr

/-- The identity a TRAINING flit exchanges (Table 09-6, steps 4 and 5). -/
structure TrainMsg where
  peer : BitVec 15
  port : BitVec 8
  variant : Variant
  acres : BitVec 16
  members : BitVec 8
  version : BitVec 16
  /-- the link that the sender's retired port served, as (member or module, port) of its own end -/
  claim : Option (Nat × Nat)
  /-- the sender has retired its own end of the claimed link -/
  peerRetired : Bool
  roundTrip : Nat
  deriving DecidableEq, Repr

/-- A MAP flit's contents: the sending member, its A, its variant class and its ports (R275). -/
structure MapMsg where
  module : BitVec 15
  acres : BitVec 16
  gz932 : Bool
  withdraw : Bool
  /-- port, state code, peer module, peer port -/
  ports : List (Nat × Nat × Nat × Nat)
  deriving DecidableEq, Repr

/-- What an URGENT flit carries (R280, R141, R318). -/
inductive UrgentMsg where
  /-- a signal to a semaphore of this module -/
  | signal (sem : Nat) (count : BitVec 16)
  /-- a value of a job's scalar tree travelling up from the member at index i of this leader's group -/
  | treeUp (job round : Nat) (i : Nat) (s e : Word32) (bit : Bool)
  /-- a value of a job's scalar tree travelling down -/
  | treeDown (job round : Nat) (s e : Word32) (bit : Bool)
  /-- the end notice of a job (R349) -/
  | endNotice (job : Word32)
  deriving DecidableEq, Repr

/-- The transports SPDM is served on (R439). -/
inductive SpdmTransport where
  | mctp
  | doe (port : Fin 2)
  deriving DecidableEq, Repr

/-- What a requester offers in NEGOTIATE_ALGORITHMS: whether the algorithms of Table 15-5 are among them. -/
structure AlgOffer where
  rsapss4096 : Bool
  sha512 : Bool
  secp384r1 : Bool
  aes256gcm : Bool
  deriving DecidableEq, Repr

/-- The commands: one constructor per row of the table of operations and events. -/
inductive Instr where
  /-- ADD: rd = ra + rb (R112). -/
  | add (t : Thr) (rd ra rb : Reg)
  /-- SUB: rd = ra - rb (R112). -/
  | sub (t : Thr) (rd ra rb : Reg)
  /-- AND: bitwise and (R112). -/
  | and_ (t : Thr) (rd ra rb : Reg)
  /-- OR: bitwise or (R112). -/
  | or_ (t : Thr) (rd ra rb : Reg)
  /-- XOR: bitwise exclusive or (R112). -/
  | xor_ (t : Thr) (rd ra rb : Reg)
  /-- SHL: shift left by rb[5:0] (R112). -/
  | shl (t : Thr) (rd ra rb : Reg)
  /-- SHR: logical shift right by rb[5:0] (R112). -/
  | shr (t : Thr) (rd ra rb : Reg)
  /-- SAR: arithmetic shift right by rb[5:0] (R112). -/
  | sar (t : Thr) (rd ra rb : Reg)
  /-- MUL: low 64 bits of the product (R112). -/
  | mul (t : Thr) (rd ra rb : Reg)
  /-- MULHU: high 64 bits of the unsigned product (R112). -/
  | mulhu (t : Thr) (rd ra rb : Reg)
  /-- DIVU: unsigned quotient (R112). -/
  | divu (t : Thr) (rd ra rb : Reg)
  /-- REMU: unsigned remainder (R112). -/
  | remu (t : Thr) (rd ra rb : Reg)
  /-- MINU: unsigned minimum (R112). -/
  | minu (t : Thr) (rd ra rb : Reg)
  /-- MAXU: unsigned maximum (R112). -/
  | maxu (t : Thr) (rd ra rb : Reg)
  /-- SLT: signed less-than (R112). -/
  | slt (t : Thr) (rd ra rb : Reg)
  /-- SLTU: unsigned less-than (R112). -/
  | sltu (t : Thr) (rd ra rb : Reg)
  /-- SEQ: equality (R112). -/
  | seq_ (t : Thr) (rd ra rb : Reg)
  /-- JR: jump to ra, link in rd; rb is reserved (R112). -/
  | jr (t : Thr) (rd ra rb : Reg)
  /-- FADD: FP32 addition (R112). -/
  | fadd (t : Thr) (rd ra rb : Reg)
  /-- FSUB: FP32 subtraction (R112). -/
  | fsub (t : Thr) (rd ra rb : Reg)
  /-- FMUL: FP32 multiplication (R112). -/
  | fmul (t : Thr) (rd ra rb : Reg)
  /-- FMAX: FP32 maximum (R112). -/
  | fmax (t : Thr) (rd ra rb : Reg)
  /-- FMIN: FP32 minimum (R112). -/
  | fmin (t : Thr) (rd ra rb : Reg)
  /-- FTOU: FP32 to U64; rb is reserved (R112). -/
  | ftou (t : Thr) (rd ra rb : Reg)
  /-- UTOF: U64 to FP32; rb is reserved (R112). -/
  | utof (t : Thr) (rd ra rb : Reg)
  /-- ADDI: add the sign-extended immediate (R112). -/
  | addi (t : Thr) (rd ra : Reg) (imm : BitVec 17)
  /-- ANDI: and with the zero-extended immediate (R112). -/
  | andi (t : Thr) (rd ra : Reg) (imm : BitVec 17)
  /-- ORI: or with the zero-extended immediate (R112). -/
  | ori (t : Thr) (rd ra : Reg) (imm : BitVec 17)
  /-- XORI: exclusive or with the zero-extended immediate (R112). -/
  | xori (t : Thr) (rd ra : Reg) (imm : BitVec 17)
  /-- SHLI: shift left by imm[5:0]; imm is imm17[7:0], its bits 7:6 reserved (R112). -/
  | shli (t : Thr) (rd ra : Reg) (imm : BitVec 8)
  /-- SHRI: logical shift right by imm[5:0]; imm is imm17[7:0], its bits 7:6 reserved (R112). -/
  | shri (t : Thr) (rd ra : Reg) (imm : BitVec 8)
  /-- SARI: arithmetic shift right by imm[5:0]; imm is imm17[7:0], its bits 7:6 reserved (R112). -/
  | sari (t : Thr) (rd ra : Reg) (imm : BitVec 8)
  /-- SLTI: signed compare with the immediate (R112). -/
  | slti (t : Thr) (rd ra : Reg) (imm : BitVec 17)
  /-- LUP: rd = sign-extended imm22 shifted left by 17 (R112). -/
  | lup (t : Thr) (rd : Reg) (imm : BitVec 22)
  /-- LD: zero-extending load from the Tiller's own Hopper (R113). -/
  | ld (t : Thr) (rd ra : Reg) (size : BitVec 2) (off : BitVec 15)
  /-- LDS: sign-extending load (R113). -/
  | lds (t : Thr) (rd ra : Reg) (size : BitVec 2) (off : BitVec 15)
  /-- ST: store; rd is the source (R113). -/
  | st (t : Thr) (rd ra : Reg) (size : BitVec 2) (off : BitVec 15)
  /-- BRANCH: conditional branch (R111, R112). -/
  | branch (t : Thr) (cond : BitVec 3) (ra rb : Reg) (off : BitVec 14)
  /-- JAL: jump and link (R112). -/
  | jal (t : Thr) (rd : Reg) (off : BitVec 22)
  /-- TAKE: Furrow TAKE; rb is reserved (R132). -/
  | take (t : Thr) (rd ra rb : Reg)
  /-- ARM: Furrow ARM (R134). -/
  | arm (t : Thr) (rd ra rb : Reg)
  /-- SIG: add cnt + 1 to the semaphore named by ra; rd and rb are reserved (R139). -/
  | sig (t : Thr) (rd ra rb : Reg) (cnt : BitVec 10)
  /-- WAIT: take cnt + 1 from the semaphore named by ra; rd and rb are reserved (R140). -/
  | wait (t : Thr) (rd ra rb : Reg) (cnt : BitVec 10)
  /-- TRYWAIT: take cnt + 1 if no waiter waits; rb is reserved (R140). -/
  | trywait (t : Thr) (rd ra rb : Reg) (cnt : BitVec 10)
  /-- FENCE: wait for earlier tile instructions and stores; every register field is reserved (R113). -/
  | fence (t : Thr) (rd ra rb : Reg)
  /-- HALT: end the thread; every register field is reserved (R108). -/
  | halt (t : Thr) (rd ra rb : Reg)
  /-- RDID: read an identity value; ra and rb are reserved (R112). -/
  | rdid (t : Thr) (rd ra rb : Reg) (sel : IdSel)
  /-- MMA: tile matrix product into a Sheaf (Table 04-4). -/
  | mma (t : Thr) (w : Word128)
  /-- ATTF: forward attention block (Table 04-5). -/
  | attf (t : Thr) (w : Word128)
  /-- ATTB: backward attention block (Table 04-5). -/
  | attb (t : Thr) (w : Word128)
  /-- SOPEN: open a Sheaf (Table 04-6). -/
  | sopen (t : Thr) (w : Word128)
  /-- SDRAIN: drain a Sheaf (Table 04-7). -/
  | sdrain (t : Thr) (w : Word128)
  /-- SPASS: pass a Sheaf, ACT 0 (Table 04-8). -/
  | spass (t : Thr) (w : Word128)
  /-- SHEAF_DISCARD: SPASS with ACT 1 (R118). -/
  | sheafDiscard (t : Thr) (w : Word128)
  /-- BELT_COPY: BELT FN 0x00. -/
  | beltCopy (t : Thr) (w : Word128)
  /-- BELT_ADD: BELT FN 0x01. -/
  | beltAdd (t : Thr) (w : Word128)
  /-- BELT_SUB: BELT FN 0x02. -/
  | beltSub (t : Thr) (w : Word128)
  /-- BELT_MUL: BELT FN 0x03. -/
  | beltMul (t : Thr) (w : Word128)
  /-- BELT_MAX: BELT FN 0x04. -/
  | beltMax (t : Thr) (w : Word128)
  /-- BELT_MIN: BELT FN 0x05. -/
  | beltMin (t : Thr) (w : Word128)
  /-- AXPY: BELT FN 0x06. -/
  | axpy (t : Thr) (w : Word128)
  /-- SCALE: BELT FN 0x07. -/
  | scale (t : Thr) (w : Word128)
  /-- EXP: BELT FN 0x08. -/
  | exp (t : Thr) (w : Word128)
  /-- LOG: BELT FN 0x09. -/
  | log (t : Thr) (w : Word128)
  /-- RECIP: BELT FN 0x0A. -/
  | recip (t : Thr) (w : Word128)
  /-- RSQRT: BELT FN 0x0B. -/
  | rsqrt (t : Thr) (w : Word128)
  /-- TANH: BELT FN 0x0C. -/
  | tanh (t : Thr) (w : Word128)
  /-- SIGMOID: BELT FN 0x0D. -/
  | sigmoid (t : Thr) (w : Word128)
  /-- SILU: BELT FN 0x0E. -/
  | silu (t : Thr) (w : Word128)
  /-- GELU: BELT FN 0x0F. -/
  | gelu (t : Thr) (w : Word128)
  /-- RELU: BELT FN 0x10. -/
  | relu (t : Thr) (w : Word128)
  /-- SWIGLU: BELT FN 0x11. -/
  | swiglu (t : Thr) (w : Word128)
  /-- SELECT: BELT FN 0x12. -/
  | select (t : Thr) (w : Word128)
  /-- BROW_SUM: BROW FN 0x00. -/
  | browSum (t : Thr) (w : Word128)
  /-- BROW_MAX: BROW FN 0x01. -/
  | browMax (t : Thr) (w : Word128)
  /-- SOFTMAX: BROW FN 0x02. -/
  | softmax (t : Thr) (w : Word128)
  /-- LSE: BROW FN 0x03. -/
  | lse (t : Thr) (w : Word128)
  /-- RMSNORM: BROW FN 0x04. -/
  | rmsnorm (t : Thr) (w : Word128)
  /-- LAYERNORM: BROW FN 0x05. -/
  | layernorm (t : Thr) (w : Word128)
  /-- TOPK: BROW FN 0x06. -/
  | topk (t : Thr) (w : Word128)
  /-- BCVT: Blade conversion (Table 04-10). -/
  | bcvt (t : Thr) (w : Word128)
  /-- DEPTHWISE_CONVOLUTION: BCONV whose descriptor holds OP 0 (Table 06-4). -/
  | depthwiseConvolution (t : Thr) (w : Word128)
  /-- GROUPED_CONVOLUTION: BCONV, OP 1. -/
  | groupedConvolution (t : Thr) (w : Word128)
  /-- MAX_POOLING: BCONV, OP 2. -/
  | maxPooling (t : Thr) (w : Word128)
  /-- AVERAGE_POOLING: BCONV, OP 3. -/
  | averagePooling (t : Thr) (w : Word128)
  /-- ARGMAX_OVER_CHANNELS: BCONV, OP 4. -/
  | argmaxOverChannels (t : Thr) (w : Word128)
  /-- LINEAR: STRM start whose descriptor holds MODE 0 (Table 08-2). -/
  | linear (t : Thr) (w : Word128)
  /-- INDEXED: STRM start, MODE 1. -/
  | indexed (t : Thr) (w : Word128)
  /-- WALK: STRM start, MODE 2. -/
  | walk (t : Thr) (w : Word128)
  /-- RELAYOUT: STRM start, MODE 3. -/
  | relayout (t : Thr) (w : Word128)
  /-- SEND: STRM start, MODE 4. -/
  | send (t : Thr) (w : Word128)
  /-- RECV: STRM start, MODE 5. -/
  | recv (t : Thr) (w : Word128)
  /-- RELAY: STRM start, MODE 6. -/
  | relay (t : Thr) (w : Word128)
  /-- STRM_STOP: STRM stop, ACT 1 (R235). -/
  | strmStop (t : Thr) (w : Word128)
  /-- DRILL_INSTRUCTION_START: the Drill takes its next instruction (R105). -/
  | drillInstructionStart (til : Tid)
  /-- FILL_LINE_REQUEST: the fill engine asks for its next line against the other requests of that bank in this tc (R83, R84). -/
  | fillLineRequest (til : Tid) (x : FillTcIn)
  /-- STASH_BUFFER_READY: the filling Stash buffer holds its whole span (R79). -/
  | stashBufferReady (til : Tid)
  /-- PARTIAL_LANDS: the partials of the next broadcast row and group land (R77). -/
  | partialLands (til : Tid)
  /-- DRAIN_READ_START: queued drain id begins reading (R98). -/
  | drainReadStart (til : Tid) (id : Nat)
  /-- DRAIN_COMPLETE: drain id writes its last byte (R99). -/
  | drainComplete (til : Tid) (id : Nat)
  /-- TILE_INSTRUCTION_COMPLETE: tile instruction id completes (R124). -/
  | tileInstructionComplete (til : Tid) (id : Nat)
  /-- FURROW_SERVE: the counter serves its oldest request (R131). -/
  | furrowServe (die num : Nat)
  /-- COUNTER_ARM_WRITE: write of a limit to `OD 2800`..`2C3F`:05 (R134). -/
  | counterArmWrite (h : ReqHead) (index : BitVec 16) (limit : Word32)
  /-- SIGNAL_ARRIVAL: signal id reaches its semaphore block (R139). -/
  | signalArrival (id : Nat)
  /-- WAITER_SERVED: the oldest waiter of the semaphore named by 20 bits is served (R140). -/
  | waiterServed (sem : Nat)
  /-- STREAM_UF_TAKEN: the stream takes, or queues for, its next chunk's UF count (R244). -/
  | streamUfTaken (c : CtxId)
  /-- STREAM_DE_TAKEN: the stream takes, or queues for, its next DE count (R244). -/
  | streamDeTaken (c : CtxId)
  /-- CHUNK_GRANT: a RECV or RELAY context grants its next chunk to its sender (R257). -/
  | chunkGrant (c : CtxId)
  /-- STREAM_CHUNK_READ: the stream issues its reads for the chunk (R247). -/
  | streamChunkRead (c : CtxId) (chunk : Nat)
  /-- STREAM_SOURCE_READ_DONE: every read of the chunk has returned (R243). -/
  | streamSourceReadDone (c : CtxId) (chunk : Nat)
  /-- STREAM_CHUNK_WRITTEN: every write of the head chunk is performed (R243). -/
  | streamChunkWritten (c : CtxId)
  /-- STREAM_DONE: the stream ends (R243). -/
  | streamDone (c : CtxId)
  /-- STREAM_AUTO_RESUME: a context halted on an invalid Barn granule resumes (R251). -/
  | streamAutoResume (c : CtxId)
  /-- RESUME: write to `OD 4711:01` (R251). -/
  | resume (h : ReqHead) (value : Word32)
  /-- ABANDON: write to `OD 4711:02` (R251). -/
  | abandon (h : ReqHead) (value : Word32)
  /-- RESUME_JOB: write to `OD 4711:03` (R251). -/
  | resumeJob (h : ReqHead) (job : Word32)
  /-- WALK_LATCH: the walk latches its table (R177). -/
  | walkLatch (c : CtxId)
  /-- WALK_RELEASE: the walk releases its table (R177). -/
  | walkRelease (c : CtxId)
  /-- GRANARY_REQUEST_ADMITTED: a sector request is presented for admission (R209). -/
  | granaryRequestAdmitted (r : SectorReq)
  /-- GRANARY_SECTOR_ACCESS: the controller performs admitted request id (R207). -/
  | granarySectorAccess (stack : Fin 8) (id : Nat) (e : CodeResult)
  /-- BANK_REFRESH: the bank's refresh interval expires (R206). -/
  | bankRefresh (b : BankId)
  /-- TRANSLATION_INVALIDATE: write to `OD 4010:01` (R215). -/
  | translationInvalidate (h : ReqHead) (job : BitVec 16)
  /-- FETCH: the Sowing engine starts its next entry, of KIND 0 (Table 07-14). -/
  | fetch
  /-- WRITEBACK: the Sowing engine starts its next entry, of KIND 1 (Table 07-14). -/
  | writeback
  /-- EVICT: the Sowing engine starts its next entry, of KIND 2 (Table 07-14). -/
  | evict
  /-- COPY: the Sowing engine starts its next entry, of KIND 3 (Table 07-14). -/
  | copy
  /-- BIND: the Sowing engine starts its next entry, of KIND 4 (Table 07-14). -/
  | bind
  /-- UNPIN: the Sowing engine starts its next entry, of KIND 5 (Table 07-14). -/
  | unpin
  /-- SOWING_WAIT: the Sowing engine starts its next entry, of KIND 6 (Table 07-14). -/
  | sowingWait
  /-- SOWING_END: the Sowing engine starts its next entry, of KIND 7 (Table 07-14). -/
  | sowingEnd
  /-- SOWING_CREDIT: SIG to 0x8_6000 (R229). -/
  | sowingCredit (count : BitVec 16)
  /-- LAYER_ADVANCE: SIG to 0x8_6001 (R228). -/
  | layerAdvance (count : BitVec 16)
  /-- BALE_MOVE_COMPLETE: the granules of the move up to the bale at ga arrive from Barn (R221). -/
  | baleMoveComplete (ga : Nat) (data : List Byte) (failed : List Nat)
  /-- BALE_WRITEBACK_DONE: CXL acknowledges every write of the bale's write-back (R224). -/
  | baleWritebackDone (ga : Nat) (failed : List Nat)
  /-- DEFERRED_EVICTION: the deferred eviction of the bale at ga is performed (R222). -/
  | deferredEviction (ga : Nat)
  /-- COPY_COMPLETE: COPY entry's last byte is written (R227). -/
  | copyComplete (entry : Nat)
  /-- CLEAR_LONGEST_WAIT: write 1 to `OD 4500:07` (R233). -/
  | clearLongestWait (h : ReqHead)
  /-- SNAPSHOT: write 1 to `OD A31F:01` (R64). -/
  | snapshot (h : ReqHead)
  /-- CLIP_DESCRIPTOR_POSTED: SIG to 0x8_3000 (R183). -/
  | clipDescriptorPosted (count : BitVec 16)
  /-- OUTPUT_SLOT_RELEASED: SIG to 0x8_3001 (R191). -/
  | outputSlotReleased (count : BitVec 16)
  /-- AWN_DESCRIPTOR_START: the Awn engine takes its next posted descriptor (R185). -/
  | awnDescriptorStart
  /-- AWN_OUTPUT_WRITE: the Awn engine writes its next output tile or frame (R191). -/
  | awnOutputWrite
  /-- AWN_DESCRIPTOR_COMPLETE: the running descriptor completes (R191). -/
  | awnDescriptorComplete
  /-- BLOCK_COMPLETE_SIGNAL: SIG to 0x8_4000 (R167). -/
  | blockCompleteSignal (count : BitVec 16)
  /-- ROUND_FINISHED_SIGNAL: SIG to 0x8_4001 (R167). -/
  | roundFinishedSignal (count : BitVec 16)
  /-- ROTATION_CREDIT_GRANT: the member at ring position pos grants credit for the round (R166). -/
  | rotationCreditGrant (pos : Nat) (note : RotNote)
  /-- ROTATION_BLOCK_SEND: this member sends the block for the receiver's round (R165). -/
  | rotationBlockSend (pos round : Nat)
  /-- ROTATION_BLOCK_COMPLETE: the block for a round of the member at ring position pos is complete in its slot: at this
  member it has come with its data, at another its acknowledgement has (R166, R167). -/
  | rotationBlockComplete (pos : Nat) (note : RotNote) (data : List Byte)
  /-- TILE_POST: SIG to unit 0x50 + gid, index 0 to 62 (R301). -/
  | tilePost (gid : Fin 13) (index : BitVec 6) (count : BitVec 16)
  /-- LAYER_COMPLETE_MARKER: SIG to unit 0x50 + gid, index 63 (R301). -/
  | layerCompleteMarker (gid : Fin 13) (count : BitVec 16)
  /-- STOOK: STOOK flit received (R299). -/
  | stook (port : Fin 64) (f : Flit) (m : StookMsg)
  /-- STOOK_ADD: the Stook unit adds this member's contribution to the tile (R305). -/
  | stookAdd (gid : Fin 13) (tile : Nat)
  /-- GLEANER_DEADLINE: DL port clocks have passed since the window opened (R314). -/
  | gleanerDeadline (gid : Fin 13)
  /-- DSEM_SIGNAL: the window is done and DSEM is signalled (R308). -/
  | dsemSignal (gid : Fin 13)
  /-- NORM_CONTRIBUTION: SIG to 0x8_5F00 (R317). -/
  | normContribution (count : BitVec 16)
  /-- NORM_ROUND_COMPLETE: the root's norm pair arrives (R319). -/
  | normRoundComplete (s e : Word32)
  /-- COMMIT_VOTE: SIG to 0x8_5F01 (R326). -/
  | commitVote (count : BitVec 16)
  /-- COMMIT_ROUND_1: round 1's AND arrives (R327). -/
  | commitRound1 (yes : Bool)
  /-- COMMIT_ROUND_2: round 2's AND arrives (R327). -/
  | commitRound2 (yes : Bool)
  /-- ROLLBACK_QUIESCENT: the AND of quiescent yields 1 (R328). -/
  | rollbackQuiescent
  /-- ADMIT: write to `OD 1000:01` (R345). -/
  | admitJob (h : ReqHead) (ga : Word64)
  /-- ADMISSION_AND_COMPLETE: the AND of admitted yields 1 (R346). -/
  | admissionAndComplete (slot : Fin 4)
  /-- ADMISSION_AND_TIMEOUT: step 4 of Table 11-6 exceeds PLIM (R346). -/
  | admissionAndTimeout (slot : Fin 4)
  /-- PROGRESS_LIMIT_EXPIRY: no progress for PLIM ms (R347). -/
  | progressLimitExpiry (slot : Fin 4)
  /-- JOB_END_NOTICE: end notice over the scalar tree (R349). -/
  | jobEndNotice (job : Word32)
  /-- COMPLETION_RECORD: the job engine writes the line at CREC (R348). -/
  | completionRecord (slot : Fin 4)
  /-- ABORT: write 1 to `OD 1010 + slot`:05 (R350). -/
  | abort (h : ReqHead) (slot : Fin 4)
  /-- FREE_SLOT: write 1 to `OD 1010 + slot`:06 (R350). -/
  | freeSlot (h : ReqHead) (slot : Fin 4)
  /-- HOST_SIG: write to `OD 1020:01` (R350). -/
  | hostSig (h : ReqHead) (value : Word64)
  /-- CXL_MEM_READ: host read of the line at window offset off (R340). -/
  | cxlMemRead (port : Fin 2) (off : Nat) (e : CodeResult)
  /-- CXL_MEM_WRITE: host write of the bytes from window offset off, within one line (R342). -/
  | cxlMemWrite (port : Fin 2) (off : Nat) (data : List Byte)
  /-- CXL_IO_ATOMICOP: AtomicOp aimed at device memory (R212). -/
  | cxlIoAtomicop (port : Fin 2) (off : Nat)
  /-- PERST_ASSERT: PERSTn_N asserted (R466). -/
  | perstAssert (port : Fin 2)
  /-- PERST_RELEASE: PERSTn_N released (R466). -/
  | perstRelease (r : PerstRelease)
  /-- CXL_LINK_UP: the port reaches L0 (R466). -/
  | cxlLinkUp (port : Fin 2) (width rate : BitVec 8)
  /-- READ: dictionary READ (R359). -/
  | read (h : ReqHead) (e : Entry) (set : BitVec 2) (offset : Word32)
  /-- WRITE: dictionary WRITE (R359). -/
  | write (h : ReqHead) (e : Entry) (offset : Word32) (data : List Byte)
  /-- DESCRIBE: dictionary DESCRIBE (R357). -/
  | describe (h : ReqHead) (e : Entry)
  /-- SESSION_OPEN: SESSION OPEN (R366). -/
  | sessionOpen (h : ReqHead)
  /-- SESSION_CLOSE: SESSION CLOSE (R366). -/
  | sessionClose (h : ReqHead)
  /-- KEEPALIVE: KEEPALIVE (R366). -/
  | keepalive (h : ReqHead)
  /-- BATCH: BATCH (R365). -/
  | batch (h : ReqHead) (members : List Request)
  /-- SESSION_IDLE_TIMEOUT: session sid + 1 has been idle for the time-out (R366). -/
  | sessionIdleTimeout (sid : Fin 8)
  /-- SET_ENDPOINT_ID: MCTP Set Endpoint ID (R361). -/
  | setEndpointId (eid : Byte)
  /-- GET_ENDPOINT_ID: MCTP Get Endpoint ID (R361). -/
  | getEndpointId
  /-- GET_MCTP_VERSION_SUPPORT: MCTP Get MCTP Version Support (R361). -/
  | getMctpVersionSupport (msgType : Byte)
  /-- GET_MESSAGE_TYPE_SUPPORT: MCTP Get Message Type Support (R361). -/
  | getMessageTypeSupport
  /-- STOP: command 1 to `OD 1100 + fn`:02 (Table 12-9). -/
  | stop (h : ReqHead) (fn : BitVec 8)
  /-- START: command 2 to `OD 1100 + fn`:02 (Table 12-9). -/
  | start (h : ReqHead) (fn : BitVec 8)
  /-- FORCED_STOP: command 3 to `OD 1100 + fn`:02 (Table 12-9). -/
  | forcedStop (h : ReqHead) (fn : BitVec 8)
  /-- SWAP: command 4 to `OD 1100 + fn`:02 (Table 12-9). -/
  | swap (h : ReqHead) (fn : BitVec 8)
  /-- DISCARD: command 5 to `OD 1100 + fn`:02 (Table 12-9). -/
  | discard (h : ReqHead) (fn : BitVec 8)
  /-- LOAD_PREVIOUS: command 6 to `OD 1100 + fn`:02 (Table 12-9). -/
  | loadPrevious (h : ReqHead) (fn : BitVec 8)
  /-- SAFE_POINT_SWAP: the owner's unit reaches its safe point (R374). -/
  | safePointSwap (fn : BitVec 8) (unit : Nat)
  /-- STOPPING_COMPLETE: the stopping condition holds (R380). -/
  | stoppingComplete (fn : BitVec 8)
  /-- STARTING_COMPLETE: the start sequence completes (R380). -/
  | startingComplete (fn : BitVec 8)
  /-- FUNCTION_FAULT: fault confined to fn; place is the Tiller slot, the Tiller or the port (Table 14-3). -/
  | functionFault (fn : BitVec 8) (reason : BitVec 8) (place : Nat)
  /-- RECOVERY_END: recovery ends with the self-test's result (R418). -/
  | recoveryEnd (fn : BitVec 8) (test : SelfTest)
  /-- STORE_SETTINGS: write 1 to `OD 1202:01` (R382). -/
  | storeSettings (h : ReqHead)
  /-- ERASE_SETTINGS: write 1 to `OD 1202:02` (R382). -/
  | eraseSettings (h : ReqHead)
  /-- STORE_COMPLETE: the store or erase completes (R382). -/
  | storeComplete
  /-- IDLE: IDLE flit received (R269). -/
  | idle (port : Fin 64) (f : Flit)
  /-- LINK: LINK flit received (R269). -/
  | link (port : Fin 64) (f : Flit)
  /-- TRAINING: TRAINING flit received (R274). -/
  | training (port : Fin 64) (f : Flit) (m : TrainMsg)
  /-- MAP: MAP flit received (R275). -/
  | map (port : Fin 64) (f : Flit) (m : MapMsg)
  /-- URGENT: URGENT flit received (R280). -/
  | urgent (port : Fin 64) (f : Flit) (m : UrgentMsg)
  /-- REMOTE_READ: REQUEST with OP 0 (R289). -/
  | remoteRead (port : Fin 64) (f : Flit)
  /-- REMOTE_WRITE: REQUEST with OP 1 (R289). -/
  | remoteWrite (port : Fin 64) (f : Flit)
  /-- RESPONSE: RESPONSE flit (R289). -/
  | response (port : Fin 64) (f : Flit)
  /-- REPLAY_NOTICE: the destination asks for a replay of the flow (R289). -/
  | replayNotice (port : Fin 64) (f : Flit) (dst vc : Nat)
  /-- ACK_TIMEOUT: ACK has not advanced for 8192 port clocks (R269). -/
  | ackTimeout (port : Fin 64)
  /-- REPLAY_WINDOW_END: a window of 2^30 port clocks ends (R271). -/
  | replayWindowEnd (port : Fin 64)
  /-- WAVELENGTH_LOSS: a wavelength has been lost for 1 us (R271). -/
  | wavelengthLoss (port : Fin 64) (lambda : Fin 8)
  /-- RETIRE_PORT: write to `OD 5010:02` (R271). -/
  | retirePort (h : ReqHead) (n : Byte)
  /-- RETRAIN_PORT: write to `OD 5010:03` (R271). -/
  | retrainPort (h : ReqHead) (n : Byte)
  /-- TRAINING_STEP_TIMEOUT: a training step exceeds its limit (R273). -/
  | trainingStepTimeout (port : Fin 64)
  /-- TRAINING_RETRY: 1 ms has passed on a DOWN port (R273). -/
  | trainingRetry (port : Fin 64)
  /-- TRANSACTION_TIMEOUT: no response for OD 5003:01 port clocks (R289). -/
  | transactionTimeout (port : Fin 64) (tag : BitVec 12)
  /-- FLOW_ROUTE_MOVE: the flow moves to its recomputed route (R286). -/
  | flowRouteMove (dst vc : Nat)
  /-- SPARE_RETURN: the spare returns to SPARE (R293). -/
  | spareReturn
  /-- HEDGEROW_FLIT_REPLAY: an uncorrectable Hedgerow flit of a transfer is replayed at a die; again tells whether the replay fails
  too (R409). -/
  | hedgerowFlitReplay (die : Fin 10) (x : HedgeTransfer) (again : Bool)
  /-- SCRUB_SECTOR_READ: patrol scrub reads its next sector (R413). -/
  | scrubSectorRead (stack : Fin 8) (e : CodeResult)
  /-- ROW_REPAIR_COMPLETE: the row's copy completes (R414). -/
  | rowRepairComplete (b : BankId) (row : Nat)
  /-- BANK_SPARE_COMPLETE: the bank's copy completes (R414). -/
  | bankSpareComplete (b : BankId)
  /-- SELTY_HEARTBEAT: a heartbeat is due; seen tells whether it arrives (R423). -/
  | seltyHeartbeat (seen : Bool)
  /-- CONTROLLER_CHANGEOVER: the standby controller takes charge (R423). -/
  | controllerChangeover
  /-- FIRMWARE_ACTIVATE: write 1 to `OD 7830:01` (R424). -/
  | firmwareActivate (h : ReqHead)
  /-- ACTIVATION_STEP_DONE: the activation step in progress finishes (R424). -/
  | activationStepDone (ok : Bool)
  /-- BLACK_BOX_RECORD_WRITE: the oldest queued record is written (R425). -/
  | blackBoxRecordWrite
  /-- SLEEP: write 2 to `OD 7000:02` (R388). -/
  | sleep (h : ReqHead)
  /-- DEEP_SLEEP: write 3 to `OD 7000:02` (R388). -/
  | deepSleep (h : ReqHead)
  /-- OFF: write 4 to `OD 7000:02` (R388). -/
  | off (h : ReqHead)
  /-- WAKE_N: WAKE_N asserted (R391). -/
  | wakeN
  /-- WAKE_TIMER_EXPIRY: the wake timer expires (R391). -/
  | wakeTimerExpiry
  /-- WAKE_EXIT_COMPLETE: exit completes (R392). -/
  | wakeExitComplete
  /-- IDLE_HOLD_EXPIRY: no job active for the Idle hold time (R387). -/
  | idleHoldExpiry
  /-- SELTY_CONTROL_PERIOD: a control period ends (R401). -/
  | seltyControlPeriod
  /-- SENSOR_SAMPLE: sensor n samples, in m°C (R399). -/
  | sensorSample (n : Fin 136) (mdeg : Int)
  /-- PWRALERT_ASSERT: the board asserts PWRALERT_N (R404). -/
  | pwralertAssert
  /-- PWRALERT_DEASSERT: the board releases PWRALERT_N (R405). -/
  | pwralertDeassert
  /-- RELEASE_HOLD_EXPIRY: the release hold ends (R405). -/
  | releaseHoldExpiry
  /-- DRILL_GATE_REQUEST: a Drill idle for 256 tc asks to gate (R396). -/
  | drillGateRequest (til : Tid)
  /-- DRILL_GATING_GRANT: a gating grant (R397). -/
  | drillGatingGrant (til : Tid)
  /-- DRILL_START_GRANT: a start grant (R397). -/
  | drillStartGrant (til : Tid)
  /-- DRILL_RAMP_END: a 192-tc ramp ends (R396). -/
  | drillRampEnd (til : Tid)
  /-- INPUT_UNDERVOLTAGE: the input has been below 40 V for 100 us (R455). -/
  | inputUndervoltage (mv : Nat)
  /-- INPUT_RECOVERED: the input has been at or above 41 V for 1 ms (R455). -/
  | inputRecovered (mv : Nat)
  /-- INPUT_POWER_FAILURE: the input falls below 38 V (R455). -/
  | inputPowerFailure (mv : Nat)
  /-- AUX_LOST: 3V3AUX has been below 2.9 V for 10 us (R456). -/
  | auxLost
  /-- AUX_POWER_ON: 3V3AUX rises (R464). -/
  | auxPowerOn
  /-- MAIN_POWER_GOOD: 48 V has been in range for 10 ms (R463). -/
  | mainPowerGood (mv : Nat)
  /-- IMAGE_UPLOAD: completing write of `OD 8020:01` (R434). -/
  | imageUpload (h : ReqHead) (image : List Byte)
  /-- IMAGE_CHECK_COMPLETE: the programmed image is checked (R433). -/
  | imageCheckComplete
  /-- RAISE_FLOOR: write 1 to `OD 8010:02` (R436). -/
  | raiseFloor (h : ReqHead)
  /-- REVOKE: write to `OD 8010:03` (R437). -/
  | revoke (h : ReqHead) (value : Byte)
  /-- NEW_CHALLENGE: write 1 to `OD 8040:01` (R442). -/
  | newChallenge (h : ReqHead)
  /-- UNLOCK_TOKEN: write to `OD 8040:02` (R443). -/
  | unlockToken (h : ReqHead) (token : List Byte)
  /-- GET_VERSION: SPDM GET_VERSION (R439). -/
  | getVersion (tr : SpdmTransport)
  /-- GET_CAPABILITIES: SPDM GET_CAPABILITIES (R439). -/
  | getCapabilities (tr : SpdmTransport) (version : Byte)
  /-- NEGOTIATE_ALGORITHMS: SPDM NEGOTIATE_ALGORITHMS (R439). -/
  | negotiateAlgorithms (tr : SpdmTransport) (o : AlgOffer)
  /-- GET_DIGESTS: SPDM GET_DIGESTS (R439). -/
  | getDigests (tr : SpdmTransport)
  /-- GET_CERTIFICATE: SPDM GET_CERTIFICATE (R439). -/
  | getCertificate (tr : SpdmTransport) (slot : Nat) (offset length : Nat)
  /-- CHALLENGE: SPDM CHALLENGE (R439). -/
  | challenge (tr : SpdmTransport) (slot : Nat) (nonce : List Byte)
  /-- GET_MEASUREMENTS: SPDM GET_MEASUREMENTS; block 0xFF asks for all (R441). -/
  | getMeasurements (tr : SpdmTransport) (block : Nat) (signed : Bool) (nonce : List Byte)
  /-- KEY_EXCHANGE: SPDM KEY_EXCHANGE (R439). -/
  | keyExchange (tr : SpdmTransport) (slot : Nat) (dhe : List Byte)
  /-- FINISH: SPDM FINISH (R439). -/
  | finish (tr : SpdmTransport) (sess : Nat) (macOk : Bool)
  /-- HEARTBEAT: SPDM HEARTBEAT (R439). -/
  | heartbeat (tr : SpdmTransport) (sess : Nat)
  /-- END_SESSION: SPDM END_SESSION (R439). -/
  | endSession (tr : SpdmTransport) (sess : Nat)
  /-- GET_CSR: SPDM GET_CSR (R440). -/
  | getCsr (tr : SpdmTransport) (slot : Nat)
  /-- SET_CERTIFICATE: SPDM SET_CERTIFICATE; forKey: the chain ends in a certificate for the slot's key (R440). -/
  | setCertificate (tr : SpdmTransport) (slot : Nat) (chain last : List Byte)
  /-- SNAPSHOT_COMPLETE: the copy into the snapshot objects completes (R64). -/
  | snapshotComplete
  /-- INVALIDATION_COMPLETE: the invalidation completes in every unit (R215). -/
  | invalidationComplete
  /-- FURROW_REPLY_ARRIVAL: the reply of another die's counter reaches the thread (R146). -/
  | furrowReplyArrival (t : Thr)
  /-- BLADE_INSTRUCTION_START: the Blade takes its next instruction (R161). -/
  | bladeInstructionStart (til : Tid)
  /-- CODEWORD_LOCK: signal, clock and codeword lock (Table 09-6, steps 1 to 3). -/
  | codewordLock (port : Fin 64)
  /-- CXL_LINK_DOWN: the link goes down or is isolated (R341). -/
  | cxlLinkDown (port : Fin 2)
  /-- EXIT_FROM_L1: exit from L1 or link training by the host (R391). -/
  | exitFromL1 (port : Fin 2)
  /-- DYNAMIC_ADDRESS_ASSIGNED: the I3C controller assigns the dynamic address (R451). -/
  | dynamicAddressAssigned (a : AddrAssign)
  /-- I3C_ADDRESS_LOST: the I3C endpoint loses its address (R366). -/
  | i3cAddressLost
  /-- REGULATOR_OVERCURRENT: the module's own regulators detect overcurrent (R404). -/
  | regulatorOvercurrent
  /-- CONTROLLER_RESTART: a failed controller's restart ends (R423). -/
  | controllerRestart (ok : Bool)
  /-- REFERENCE_CLOCK_PRESENT: an absent reference clock becomes present (R459). -/
  | referenceClockPresent (port : Fin 2)
  /-- BACK_INVALIDATE_RESPONSE: the host answers a snoop; dirty holds the line's bytes if it was modified (R340). -/
  | backInvalidateResponse (port : Fin 2) (line : Nat) (dirty : List Byte)
  /-- UNORDERED_IO_PEER_ACCESS: a peer's unordered I/O access within one line (R336). -/
  | unorderedIoPeerAccess (port : Fin 2) (off : Nat) (write : Bool) (data : List Byte)
  /-- BOUNDARY_SCAN: a change on the IEEE 1149.1 lands (R451). -/
  | boundaryScan (tck tms tdi trstN : Bool)
  deriving DecidableEq, Repr

end Sys2Proof
end

