-- ==== Sys2Proof/Decode.lean ====
section
/-! DEFINITION. Words of the table: no row of it has bits, so no word spells a command. -/
namespace Sys2Proof

/-- The command a word of the table's bits spells: the table gives no row any bits. -/
def decodeTableWord (_nbits _w : Nat) : Option Instr := none

end Sys2Proof
end

