-- ==== Sys2Proof/Machine/Kv.lean ====
section
/-! DEFINITION. Sparse maps and byte stores in one canonical form (keys strictly rising, nothing equal to
the store's default listed), and the plain list and byte-order helpers of the model. -/
namespace Sys2Proof.Machine

/-- The value at a key; what an unlisted key reads as is d. -/
def kvGet {α : Type} (d : α) : KV α → Nat → α
  | [], _ => d
  | (k, v) :: m, i => if i = k then v else kvGet d m i

/-- The value listed under a key. -/
def kvFind {α : Type} : KV α → Nat → Option α
  | [], _ => none
  | (k, v) :: m, i => if i = k then some v else kvFind m i

/-- Removes a key. -/
def kvDrop {α : Type} (m : KV α) (i : Nat) : KV α := m.filter (fun c => decide (c.1 ≠ i))

/-- Lists v under a key, keeping the keys in rising order. -/
def kvPut {α : Type} : KV α → Nat → α → KV α
  | [], i, x => [(i, x)]
  | (k, v) :: m, i, x =>
    if i = k then (i, x) :: m else if i < k then (i, x) :: (k, v) :: m else (k, v) :: kvPut m i x

/-- Sets a key; the store's default is never listed. -/
def kvSet {α : Type} [DecidableEq α] (d : α) (m : KV α) (i : Nat) (x : α) : KV α :=
  if x = d then kvDrop m i else kvPut m i x

/-- Applies f to the value at a key. -/
def kvMod {α : Type} [DecidableEq α] (d : α) (m : KV α) (i : Nat) (f : α → α) : KV α :=
  kvSet d m i (f (kvGet d m i))

/-- Keys strictly rising. -/
def kvRising {α : Type} : KV α → Bool
  | [] => true
  | [_] => true
  | (k, _) :: (k', v') :: m => decide (k < k') && kvRising ((k', v') :: m)

/-- The canonical form of a store whose unlisted keys read as d. -/
def kvOk {α : Type} [DecidableEq α] (d : α) (m : KV α) : Bool :=
  kvRising m && m.all (fun c => decide (c.2 ≠ d))

/-- The numbers 0 to n - 1. -/
def upto (n : Nat) : List Nat := List.range n

/-- A fold over the numbers 0 to n - 1, ascending. -/
def foldUpto {α : Type} (n : Nat) (a : α) (f : α → Nat → α) : α := (upto n).foldl f a

/-- f applied n times. -/
def iter {α : Type} (f : α → α) : Nat → α → α
  | 0, a => a
  | n + 1, a => iter f n (f a)

def natAt (l : List Nat) (i : Nat) : Nat := (l[i]?).getD 0

/-- n ones and then none: ⌈a / b⌉. -/
def ceilDiv (a b : Nat) : Nat := (a + b - 1) / b

/-- a rounded up to a multiple of b. -/
def roundUp (a b : Nat) : Nat := ceilDiv a b * b

/-- Bits lo to lo + n - 1 of w. -/
def field (w lo n : Nat) : Nat := (w >>> lo) % 2 ^ n

/-- Bit lo of w. -/
def bitAt (w lo : Nat) : Bool := decide ((w >>> lo) % 2 = 1)

def boolNat (b : Bool) : Nat := if b then 1 else 0

/-- The number that bytes spell, least significant first (R110). -/
def leNat : List Byte → Nat
  | [] => 0
  | b :: l => b.toNat + 256 * leNat l

/-- The n low bytes of v, least significant first. -/
def toLe : Nat → Nat → List Byte
  | 0, _ => []
  | n + 1, v => BitVec.ofNat 8 v :: toLe n (v / 256)

/-- A two's-complement field of n bits as an integer. -/
def sext (w n : Nat) : Int := if w % 2 ^ n < 2 ^ (n - 1) then (w % 2 ^ n : Nat) else (w % 2 ^ n : Nat) - (2 ^ n : Nat)

/-- The low n bits of an integer, two's complement. -/
def wrapInt (n : Nat) (i : Int) : Nat := (i % (2 ^ n : Nat)).toNat

/-- n zero bytes. -/
def zeros (n : Nat) : List Byte := List.replicate n 0

/-- l cut or filled with zero bytes to length n. -/
def padTo (n : Nat) (l : List Byte) : List Byte := (l ++ zeros n).take n

/-- Splits a list into runs of n, the last one shorter; fuel bounds the number of runs. -/
def chunksOf {α : Type} (n : Nat) : Nat → List α → List (List α)
  | 0, _ => []
  | f + 1, l => if l.isEmpty then [] else l.take n :: chunksOf n f (l.drop n)

/-- Replaces the item at an index. -/
def setAt {α : Type} (l : List α) (i : Nat) (x : α) : List α := l.set i x

/-- The distinct members, first occurrences first. -/
def dedup (l : List Nat) : List Nat := l.foldl (fun acc x => if acc.elem x then acc else acc ++ [x]) []

/-- Whether two address ranges (start, length) share a byte. -/
def overlap (a b : Nat × Nat) : Bool := decide (a.1 < b.1 + b.2 ∧ b.1 < a.1 + a.2)

/-! ## Byte stores: an unlisted address reads as zero (log entry 1) -/

abbrev Store := KV Byte

def byteAt (m : Store) (a : Nat) : Byte := kvGet 0 m a

def setByte (m : Store) (a : Nat) (b : Byte) : Store := kvSet 0 m a b

/-- The n bytes from address a. -/
def readBytes (m : Store) (a : Nat) : Nat → List Byte
  | 0 => []
  | n + 1 => byteAt m a :: readBytes m (a + 1) n

/-- Writes bytes from address a up. -/
def writeBytes (m : Store) (a : Nat) : List Byte → Store
  | [] => m
  | b :: l => writeBytes (setByte m a b) (a + 1) l

/-- Writes several runs of bytes in order. -/
def writeAll (m : Store) (ws : List (Nat × List Byte)) : Store := ws.foldl (fun m w => writeBytes m w.1 w.2) m

def readLe (m : Store) (a n : Nat) : Nat := leNat (readBytes m a n)

/-- The canonical form of a byte store. -/
def Memory.wf (m : Store) : Bool := kvOk 0 m

end Sys2Proof.Machine
end

