-- ==== Sys2Proof/Machine/Float.lean ====
section
/-! DEFINITION. Exact reals, roundings and the correctly rounded functions (R34 to R37, R53 to R55, R92 to
R95, R121, R469). A finite number is a sign and a magnitude m × 2^e; every operation is exact and each
rounding is named. -/
namespace Sys2Proof.Machine

/-- A value a unit handles: NaN, an infinity, or an exact finite number. A zero keeps its sign. -/
inductive FV where
  | nan
  | inf (neg : Bool)
  | fin (neg : Bool) (m : Nat) (e : Int)
  deriving DecidableEq, Repr

/-- The parameters of an element encoding (Table 02-2): mantissa bits, exponent of the smallest normal,
code magnitude of the largest finite value, the sign's bit position. An integer element is one whose
every value lies below its smallest normal. -/
structure Elem where
  mb : Nat
  emin : Int
  top : Nat
  sgn : Nat
  deriving DecidableEq, Repr

def f32 : Elem := { mb := 23, emin := -126, top := 0x7F7FFFFF, sgn := 31 }
def bf16 : Elem := { mb := 7, emin := -126, top := 0x7F7F, sgn := 15 }
def f16 : Elem := { mb := 10, emin := -14, top := 0x7BFF, sgn := 15 }
def e4m3 : Elem := { mb := 3, emin := -6, top := 0x7E, sgn := 7 }
def e5m2 : Elem := { mb := 2, emin := -14, top := 0x7B, sgn := 7 }
def e3m2 : Elem := { mb := 2, emin := -2, top := 0x1F, sgn := 5 }
def e2m3 : Elem := { mb := 3, emin := 0, top := 0x1F, sgn := 5 }
def e2m1 : Elem := { mb := 1, emin := 0, top := 0x7, sgn := 3 }
def int8 : Elem := { mb := 7, emin := 7, top := 127, sgn := 8 }
def mxint8 : Elem := { mb := 7, emin := 1, top := 127, sgn := 8 }
def tern : Elem := { mb := 0, emin := 0, top := 1, sgn := 8 }

/-- The exponent of the leading bit of m × 2^e. -/
def expOf (m : Nat) (e : Int) : Int := (Nat.log2 m : Int) + e

/-- m × 2^(-k), rounded to the nearest integer, ties to even. -/
def rneShift (m : Nat) (k : Int) : Nat :=
  if k ≤ 0 then m <<< (-k).toNat
  else if (Nat.log2 m : Int) + 1 < k then 0
  else
    let d := 2 ^ k.toNat
    let q := m / d
    let r := m % d
    if d < 2 * r ∨ (2 * r = d ∧ q % 2 = 1) then q + 1 else q

/-- ⌊m × 2^(-k)⌋ and ⌊65 536 × the fraction left⌋ and whether anything is left. -/
def floorShift (m : Nat) (k : Int) : Nat × Nat × Bool :=
  if k ≤ 0 then (m <<< (-k).toNat, 0, false)
  else if (Nat.log2 m : Int) + 17 < k then (0, 0, decide (m ≠ 0))
  else
    let d := 2 ^ k.toNat
    (m / d, 65536 * (m % d) / d, decide (m % d ≠ 0))

/-- The exponent of the last place of m × 2^e in an encoding. -/
def quantum (f : Elem) (m : Nat) (e : Int) : Int := max (expOf m e) f.emin - f.mb

/-- The code magnitude that a significand q in last-place units spells. -/
def codeOf (f : Elem) (m : Nat) (e : Int) (q : Nat) : Nat :=
  ((max (expOf m e) f.emin - f.emin).toNat <<< f.mb) + q

/-- The RNE code magnitude with an unbounded exponent range (R53, R55). -/
def rneCode (f : Elem) (m : Nat) (e : Int) : Nat :=
  if m = 0 then 0 else codeOf f m e (rneShift m (quantum f m e - e))

/-- Whether m × 2^e lies above the largest finite value. -/
def aboveTop (f : Elem) (m : Nat) (e : Int) : Bool :=
  if m = 0 then false
  else
    let r := floorShift m (quantum f m e - e)
    let c := codeOf f m e r.1
    decide (f.top < c) || (decide (c = f.top) && r.2.2)

/-- The SR code magnitude under draw r (R54), saturated (R55). -/
def srCode (f : Elem) (m : Nat) (e : Int) (r : Nat) : Nat :=
  if m = 0 then 0
  else if aboveTop f m e then f.top
  else
    let p := floorShift m (quantum f m e - e)
    let c := codeOf f m e p.1
    if r < p.2.1 then c + 1 else c

/-- The magnitude m and exponent that a finite code magnitude spells. -/
def magOf (f : Elem) (c : Nat) : Nat × Int :=
  let x := c >>> f.mb
  let q := c % 2 ^ f.mb
  if x = 0 then (q, f.emin - f.mb) else (2 ^ f.mb + q, f.emin - f.mb + (x - 1 : Nat))

def signBit (f : Elem) (neg : Bool) : Nat := if neg then 2 ^ f.sgn else 0

/-! ## FP32 -/

/-- The positive canonical NaN of FP32 (R36). -/
def nan32 : Word32 := 0x7FC00000

def isNan32 (w : Word32) : Bool := decide (0x7F800000 < w.toNat % 2 ^ 31)

def isInf32 (w : Word32) : Bool := decide (w.toNat % 2 ^ 31 = 0x7F800000)

def isFin32 (w : Word32) : Bool := decide (w.toNat % 2 ^ 31 < 0x7F800000)

/-- The value of an FP32 pattern. -/
def val32 (w : Word32) : FV :=
  let c := w.toNat % 2 ^ 31
  let neg := decide (2 ^ 31 ≤ w.toNat)
  if 0x7F800000 < c then .nan
  else if c = 0x7F800000 then .inf neg
  else .fin neg (magOf f32 c).1 (magOf f32 c).2

def inf32 (neg : Bool) : Word32 := if neg then 0xFF800000 else 0x7F800000

def top32 (neg : Bool) : Word32 := if neg then 0xFF7FFFFF else 0x7F7FFFFF

/-- One binary32 rounding, ties to even; what exceeds the range becomes an infinity (R121, R469). -/
def rn32 : FV → Word32
  | .nan => nan32
  | .inf n => inf32 n
  | .fin n m e =>
    let c := rneCode f32 m e
    if f32.top < c then inf32 n else BitVec.ofNat 32 (signBit f32 n + c)

/-- Whether rn32 would leave the finite range. -/
def over32 : FV → Bool
  | .fin _ m e => decide (f32.top < rneCode f32 m e)
  | _ => false

/-- rn32 with a sum beyond the range written as the largest finite value (R95). -/
def rnSat32 (v : FV) : Word32 :=
  match v with
  | .fin n _ _ => if over32 v then top32 n else rn32 v
  | _ => rn32 v

/-! ## Exact arithmetic -/

def FV.neg : FV → FV
  | .nan => .nan
  | .inf n => .inf (!n)
  | .fin n m e => .fin (!n) m e

/-- An integer times 2^e; a zero is +0. -/
def ofInt (i : Int) (e : Int) : FV := .fin (decide (i < 0)) i.natAbs e

def toInt (n : Bool) (m : Nat) : Int := if n then -(m : Int) else m

/-- An exact sum; a zero sum of unlike zeros or of opposites is +0. -/
def FV.add : FV → FV → FV
  | .nan, _ => .nan
  | _, .nan => .nan
  | .inf a, .inf b => if a = b then .inf a else .nan
  | .inf a, .fin .. => .inf a
  | .fin .., .inf b => .inf b
  | .fin n1 m1 e1, .fin n2 m2 e2 =>
    if m1 = 0 ∧ m2 = 0 then .fin (n1 && n2) 0 0
    else if m1 = 0 then .fin n2 m2 e2
    else if m2 = 0 then .fin n1 m1 e1
    else
      let e := min e1 e2
      ofInt (toInt n1 (m1 <<< (e1 - e).toNat) + toInt n2 (m2 <<< (e2 - e).toNat)) e

def FV.sub (a b : FV) : FV := a.add b.neg

/-- An exact product. -/
def FV.mul : FV → FV → FV
  | .nan, _ => .nan
  | _, .nan => .nan
  | .inf a, .inf b => .inf (a != b)
  | .inf a, .fin n m _ => if m = 0 then .nan else .inf (a != n)
  | .fin n m _, .inf b => if m = 0 then .nan else .inf (n != b)
  | .fin n1 m1 e1, .fin n2 m2 e2 => .fin (n1 != n2) (m1 * m2) (e1 + e2)

/-- A value times 2^k. -/
def FV.scale : FV → Int → FV
  | .fin n m e, k => .fin n m (e + k)
  | v, _ => v

/-- A quotient, cut 64 bits below its leading bit with the rest kept as a last sticky bit: any rounding to
60 bits or fewer of it is the rounding of the exact quotient. -/
def ratio (n : Bool) (a : Nat) (ea : Int) (b : Nat) (eb : Int) : FV :=
  let k := Nat.log2 b + 64
  let q := (a <<< k) / b
  .fin n (2 * q + (if (a <<< k) % b = 0 then 0 else 1)) (ea - eb - k - 1)

/-- Division as IEEE 754-2019 gives it, before its rounding. -/
def FV.div : FV → FV → FV
  | .nan, _ => .nan
  | _, .nan => .nan
  | .inf _, .inf _ => .nan
  | .inf a, .fin n _ _ => .inf (a != n)
  | .fin n _ _, .inf b => .fin (n != b) 0 0
  | .fin n1 m1 e1, .fin n2 m2 e2 =>
    if m2 = 0 then (if m1 = 0 then .nan else .inf (n1 != n2))
    else ratio (n1 != n2) m1 e1 m2 e2

/-- a < b for values that are not NaN. -/
def FV.lt : FV → FV → Bool
  | .inf a, .inf b => a && !b
  | .inf a, .fin .. => a
  | .fin .., .inf b => !b
  | .fin n1 m1 e1, .fin n2 m2 e2 =>
    let e := min e1 e2
    decide (toInt n1 (m1 <<< (e1 - e).toNat) < toInt n2 (m2 <<< (e2 - e).toNat))
  | _, _ => false

def FV.isNan : FV → Bool
  | .nan => true
  | _ => false

def FV.isZero : FV → Bool
  | .fin _ 0 _ => true
  | _ => false

def FV.negative : FV → Bool
  | .nan => false
  | .inf n => n
  | .fin n _ _ => n

/-! ## Binary32 operations (R121, R122) -/

def fadd (a b : Word32) : Word32 := rn32 ((val32 a).add (val32 b))
def fsub (a b : Word32) : Word32 := rn32 ((val32 a).sub (val32 b))
def fmul (a b : Word32) : Word32 := rn32 ((val32 a).mul (val32 b))
def fdiv (a b : Word32) : Word32 := rn32 ((val32 a).div (val32 b))

/-- s × a + b, rounded once. -/
def faxpy (s a b : Word32) : Word32 := rn32 (((val32 s).mul (val32 a)).add (val32 b))

/-- IEEE 754-2019 maximum: NaN gives the canonical NaN, +0 ranks above -0. -/
def fmax (a b : Word32) : Word32 :=
  let x := val32 a
  let y := val32 b
  if x.isNan || y.isNan then nan32
  else if x.isZero && y.isZero then (if x.negative then b else a)
  else if x.lt y then b else a

/-- IEEE 754-2019 minimum. -/
def fmin (a b : Word32) : Word32 :=
  let x := val32 a
  let y := val32 b
  if x.isNan || y.isNan then nan32
  else if x.isZero && y.isZero then (if x.negative then a else b)
  else if y.lt x then b else a

def fone : Word32 := 0x3F800000

/-- FP32 of an unsigned integer, RNE. -/
def fofNat (n : Nat) : Word32 := rn32 (.fin false n 0)

/-! ## Correctly rounded functions (R121): evaluated to 256 fractional bits and rounded once (log entry 5) -/

/-- Fractional bits of the fixed-point evaluation. -/
def fixBits : Nat := 256

def fixOne : Nat := 2 ^ 256

/-- ⌊ln 2 × 2^256⌋. -/
def ln2Fix : Nat := 0xb17217f7d1cf79abc9e3b39803f2f6af40f343267298b62d8a0d175b8baafa2b

/-- Σ r^n / n! from n on, for 0 ≤ r < 1 in fixed point: term is r^(n-1) / (n-1)!. -/
def expTerms (r : Nat) : Nat → Nat → Nat → Nat → Nat
  | 0, _, _, acc => acc
  | f + 1, n, term, acc =>
    let t := term * r / fixOne / n
    expTerms r f (n + 1) t (acc + t)

/-- e^x for x = i / 2^256: a significand with 256 fractional bits and a power of two. -/
def expFix (i : Int) : Nat × Int :=
  let k := i / (ln2Fix : Int)
  let r := (i - k * ln2Fix).toNat
  (expTerms r 64 1 fixOne fixOne, k)

/-- x in fixed point with 256 fractional bits (exact for every FP32 value). -/
def toFix (n : Bool) (m : Nat) (e : Int) : Int :=
  toInt n (if 0 ≤ e + 256 then m <<< (e + 256).toNat else m >>> (-(e + 256)).toNat)

/-- A significand with 256 fractional bits times 2^k, with a sticky bit below it. -/
def ofFix (n : Bool) (m : Nat) (k : Int) : FV := .fin n (2 * m + 1) (k - 257)

def fexp (a : Word32) : Word32 :=
  match val32 a with
  | .nan => nan32
  | .inf n => if n then 0 else inf32 false
  | .fin n m e =>
    if m = 0 then fone
    else if 8 < expOf m e then (if n then 0 else inf32 false)
    else
      let r := expFix (toFix n m e)
      rn32 (ofFix false r.1 r.2)

/-- Σ z^(2j+1) / (2j+1): atanh z in fixed point. -/
def atanhTerms (z2 : Nat) : Nat → Nat → Nat → Nat → Nat
  | 0, _, _, acc => acc
  | f + 1, n, pw, acc => atanhTerms z2 f (n + 2) (pw * z2 / fixOne) (acc + pw / n)

/-- ln of m × 2^e, m positive, in fixed point. -/
def lnFix (m : Nat) (e : Int) : Int :=
  let k := expOf m e
  let f := m <<< (256 - Nat.log2 m)
  let z := (f - fixOne) * fixOne / (f + fixOne)
  k * ln2Fix + 2 * (atanhTerms (z * z / fixOne) 96 1 z 0 : Nat)

def flog (a : Word32) : Word32 :=
  match val32 a with
  | .nan => nan32
  | .inf n => if n then nan32 else inf32 false
  | .fin n m e =>
    if m = 0 then inf32 true
    else if n then nan32
    else if a = fone then 0
    else
      let r := lnFix m e
      rn32 (ofFix (decide (r < 0)) r.natAbs 0)

def frecip (a : Word32) : Word32 := fdiv fone a

/-- ⌊√n⌋ by bits, from bit i down. -/
def isqrtBits (n : Nat) : Nat → Nat → Nat
  | 0, r => r
  | i + 1, r =>
    let c := r + 2 ^ i
    isqrtBits n i (if c * c ≤ n then c else r)

/-- ⌊√n⌋. -/
def isqrt (n : Nat) : Nat := isqrtBits n (Nat.log2 n / 2 + 1) 0

/-- 1/√a: IEEE 754-2019 rSqrt. -/
def frsqrt (a : Word32) : Word32 :=
  match val32 a with
  | .nan => nan32
  | .inf n => if n then nan32 else 0
  | .fin n m e =>
    if m = 0 then inf32 n
    else if n then nan32
    else
      let odd := e % 2 = 1
      let m' := if odd then 2 * m else m
      let e' := if odd then e - 1 else e
      let q := isqrt (2 ^ 256 / m')
      let sticky := if q * q * m' = 2 ^ 256 then 0 else 1
      rn32 (.fin false (2 * q + sticky) (-(e' / 2) - 129))

/-- √a, correctly rounded. -/
def fsqrt (a : Word32) : Word32 :=
  match val32 a with
  | .nan => nan32
  | .inf n => if n then nan32 else inf32 false
  | .fin n m e =>
    if m = 0 then a
    else if n then nan32
    else
      let odd := e % 2 = 1
      let m' := if odd then 2 * m else m
      let e' := if odd then e - 1 else e
      let q := isqrt (m' <<< 128)
      let sticky := if q * q = m' <<< 128 then 0 else 1
      rn32 (.fin false (2 * q + sticky) (e' / 2 - 65))

/-- tanh: (1 - t) / (1 + t) with t = e^(-2|a|), and a itself below 2^-90. -/
def ftanh (a : Word32) : Word32 :=
  match val32 a with
  | .nan => nan32
  | .inf n => if n then 0xBF800000 else fone
  | .fin n m e =>
    if m = 0 ∨ expOf m e < -90 then a
    else if 5 < expOf m e then (if n then 0xBF800000 else fone)
    else
      let r := expFix (toFix true m (e + 1))
      let t := if 0 ≤ r.2 then r.1 <<< r.2.toNat else r.1 >>> (-r.2).toNat
      match ratio n (fixOne - t) 0 (fixOne + t) 0 with
      | .fin n' q k => rn32 (.fin n' (2 * q + 1) (k - 1))
      | v => rn32 v

/-- 1 / (1 + e^(-a)), formed from e^(-|a|). -/
def fsigmoid (a : Word32) : Word32 :=
  match val32 a with
  | .nan => nan32
  | .inf n => if n then 0 else fone
  | .fin n m e =>
    if 8 < expOf m e ∧ m ≠ 0 then (if n then 0 else fone)
    else
      let r := expFix (toFix true m e)
      let t := if 0 ≤ r.2 then r.1 <<< r.2.toNat else r.1 >>> (-r.2).toNat
      let v := if n then ratio false r.1 r.2 (fixOne + t) 0 else ratio false fixOne 0 (fixOne + t) 0
      match v with
      | .fin n' q k => rn32 (.fin n' (2 * q + 1) (k - 1))
      | v => rn32 v

/-! ## Composite element functions (R469) -/

def fsilu (a : Word32) : Word32 := fmul a (fsigmoid a)

def fswiglu (a b : Word32) : Word32 := fmul (fsilu a) b

def geluC0 : Word32 := 0x3F4C422A
def geluC1 : Word32 := 0x3D372713

def fgelu (a : Word32) : Word32 :=
  let u := fmul (fmul a a) a
  let v := fadd a (fmul geluC1 u)
  let t := ftanh (fmul geluC0 v)
  fmul (fmul 0x3F000000 a) (fadd fone t)

end Sys2Proof.Machine
end

