-- ==== Sys2Proof/Machine/Formats.lean ====
section
/-! DEFINITION. Number formats, engine-ready tiles and conversion (chapter 2; R216 to R219): headers and
their checks, where an array's bytes lie, what an element is worth, and the conversion of FP32 values into
a format with its Winnow counts. -/
namespace Sys2Proof.Machine

/-! ## Format codes (Table 02-1) -/

inductive FmtClass where
  | unscaled | tileScaled | block
  deriving DecidableEq, Repr

def fmtClass (f : Nat) : FmtClass :=
  if f ≤ 2 then .unscaled else if f ≤ 5 ∨ f = 0xC then .tileScaled else .block

def blockScaled (f : Nat) : Bool := decide (fmtClass f = .block)

def tileScaled (f : Nat) : Bool := decide (fmtClass f = .tileScaled)

/-- The element encoding of a format. -/
def elemOf (f : Nat) : Elem :=
  match f with
  | 0x0 => f32 | 0x1 => bf16 | 0x2 => f16 | 0x3 => e4m3 | 0x4 => e5m2 | 0x5 => int8 | 0x6 => e4m3
  | 0x7 => e5m2 | 0x8 => e3m2 | 0x9 => e2m3 | 0xA => mxint8 | 0xE => tern | _ => e2m1

/-- The emax of Table 02-2, R37 and R44. -/
def emaxOf (f : Nat) : Int :=
  match f with
  | 0x3 => 8 | 0x6 => 8 | 0x4 => 15 | 0x7 => 15 | 0x8 => 4 | 0x9 => 2 | 0xA => 0 | 0xE => 0 | _ => 2

/-- Bits of one element code. -/
def widthOf (f : Nat) : Nat :=
  match f with
  | 0x0 => 32 | 0x1 => 16 | 0x2 => 16 | 0x8 => 6 | 0x9 => 6 | 0xB => 4 | 0xC => 4 | 0xD => 4 | 0xE => 2
  | _ => 8

/-- Slice bytes of a group of 32 elements (Table 07-11). -/
def sliceOf (f : Nat) : Nat := 4 * widthOf f

/-- The widening class of an operand (Table 02-4): 0 ternary, 1 four-bit, 2 eight-bit, 3 sixteen-bit. -/
def opClass (f : Nat) : Nat :=
  if f = 0xE then 0 else if f = 0xB ∨ f = 0xC ∨ f = 0xD then 1 else if f = 1 ∨ f = 2 then 3 else 2

/-- The product class of a pair and its c, tc per group per row (Table 03-1). -/
def pairClass (w a : Nat) : Nat :=
  if opClass w = 3 ∨ opClass a = 3 then 3
  else if opClass a = 2 ∨ opClass w = 2 then 2
  else opClass w

def classC (k : Nat) : Nat := if k = 3 then 4 else if k = 2 then 2 else 1

/-- Storage per element in quarter bits, scales included (Table 02-1): what R67 compares as width. -/
def storedBits4 (f : Nat) : Nat :=
  match f with
  | 0xD => 18
  | _ => 4 * widthOf f + (if blockScaled f then 1 else 0)

/-! ## Element values (R34 to R44) -/

/-- A float code's value. ieee: the top exponent holds infinity and NaN; nanAll: only the all-ones code is NaN. -/
def floatVal (f : Elem) (ieee nanAll : Bool) (code : Nat) : FV :=
  let c := code % 2 ^ f.sgn
  let neg := decide (2 ^ f.sgn ≤ code)
  if ieee && decide (f.top + 1 < c) then .nan
  else if ieee && decide (c = f.top + 1) then .inf neg
  else if nanAll && decide (f.top < c) then .nan
  else .fin neg (magOf f c).1 (magOf f c).2

/-- The value of an element code before any scale; an invalid Tern2 code is 0 (R44). -/
def elemVal (f code : Nat) : FV :=
  match f with
  | 0x5 => ofInt (sext code 8) 0
  | 0xA => ofInt (sext code 8) (-6)
  | 0xE => if code = 1 then .fin false 1 0 else if code = 3 then .fin true 1 0 else .fin false 0 0
  | 0x0 | 0x1 | 0x2 | 0x4 | 0x7 => floatVal (elemOf f) true false code
  | 0x3 | 0x6 => floatVal (elemOf f) false true code
  | _ => floatVal (elemOf f) false false code

/-- The code of a finite value of sign neg and code magnitude c. A zero ternary or integer has no sign. -/
def codeBits (f : Nat) (neg : Bool) (c : Nat) : Nat :=
  match f with
  | 0x5 | 0xA => if neg then (256 - c) % 256 else c
  | 0xE => if c = 0 then 0 else if neg then 3 else 1
  | _ => signBit (elemOf f) neg + c

/-! ## Tile headers (R216, Table 07-10) -/

structure Hdr where
  user : Nat
  size : Nat
  rm1 : Nat
  km1 : Nat
  t : Int
  cls : Nat
  pfmt : Nat
  esc : Bool
  layout : Nat
  fmt : Nat
  deriving DecidableEq, Repr

def Hdr.rows (h : Hdr) : Nat := h.rm1 + 1
def Hdr.cols (h : Hdr) : Nat := h.km1 + 1

/-- Groups along the blocked axis. -/
def Hdr.groups (h : Hdr) : Nat := ceilDiv h.cols 32

/-- The header that 64 bytes spell, before any check. -/
def Hdr.parse (b : List Byte) : Hdr :=
  let w := leNat (b.take 16)
  { user := field w 96 32, size := field w 64 32, rm1 := field w 48 16, km1 := field w 32 16,
    t := sext (field w 16 8) 8, cls := field w 12 4, pfmt := field w 8 4, esc := bitAt w 5,
    layout := field w 4 1, fmt := field w 0 4 }

/-- Reserved bits of a header that are not zero. -/
def hdrReserved (b : List Byte) : Bool :=
  let w := leNat (b.take 16)
  !(b.drop 16).all (fun x => decide (x = 0)) || decide (field w 24 8 ≠ 0) || decide (field w 6 2 ≠ 0)

/-- Bytes of one row, or of one group of all lanes. -/
def rowBytes (h : Hdr) : Nat := roundUp (h.groups * sliceOf h.fmt) 64
def groupBytes (h : Hdr) : Nat := roundUp (h.rows * sliceOf h.fmt) 64

def elemArray (h : Hdr) : Nat := if h.layout = 0 then h.rows * rowBytes h else h.groups * groupBytes h

def scaleArray (h : Hdr) : Nat := if blockScaled h.fmt then roundUp (h.rows * h.groups) 64 else 0

def sideArray (h : Hdr) : Nat := if h.fmt = 0xD then roundUp (h.rows * h.groups) 64 else 0

/-- The SIZE that R217 gives for a header. -/
def tileSize (h : Hdr) : Nat := 64 + elemArray h + scaleArray h + sideArray h

/-- The reason code that a Tiller instruction refuses a header with (R120, R216, R219); none when it passes. -/
def hdrReason (b : List Byte) : Option Nat :=
  let h := Hdr.parse b
  if hdrReserved b then some 0x02
  else if h.fmt = 0xF ∨ h.pfmt = 0xF then some 0x03
  else if h.t = -128 ∨ (tileScaled h.fmt = false ∧ h.t ≠ 0) then some 0x02
  else if h.esc = false ∧ h.pfmt ≠ h.fmt then some 0x02
  else if h.esc = true ∧ h.pfmt = h.fmt then some 0x02
  else if h.size ≠ tileSize h then some 0x04
  else none

/-- The 64 bytes of a header. -/
def Hdr.bytes (h : Hdr) : List Byte :=
  toLe 16 (h.user % 2 ^ 32 * 2 ^ 96 + h.size % 2 ^ 32 * 2 ^ 64 + h.rm1 * 2 ^ 48 + h.km1 * 2 ^ 32
    + wrapInt 8 h.t * 2 ^ 16 + h.cls * 2 ^ 12 + h.pfmt * 2 ^ 8 + boolNat h.esc * 2 ^ 5
    + h.layout * 2 ^ 4 + h.fmt) ++ zeros 48

/-! ## Where a tile's bytes lie (R41, R217) -/

/-- Byte offset, from the tile's start, of group g of row or lane r. -/
def sliceOff (h : Hdr) (r g : Nat) : Nat :=
  64 + (if h.layout = 0 then r * rowBytes h + g * sliceOf h.fmt else g * groupBytes h + r * sliceOf h.fmt)

def scaleIndex (h : Hdr) (r g : Nat) : Nat :=
  if h.layout = 0 then r * h.groups + g else g * h.rows + r

def scaleOff (h : Hdr) (r g : Nat) : Nat := 64 + elemArray h + scaleIndex h r g

def sideOff (h : Hdr) (r g : Nat) : Nat := 64 + elemArray h + scaleArray h + scaleIndex h r g

/-- The code of the i-th element of a slice. -/
def codeIn (f : Nat) (slice : List Byte) (i : Nat) : Nat :=
  let bit := i * widthOf f
  field (leNat ((slice.drop (bit / 8)).take 5)) (bit % 8) (widthOf f)

/-- One group of a row or lane as read: its slice, its scale byte and its side byte. -/
structure GroupData where
  slice : List Byte
  scale : Nat
  side : Nat
  deriving DecidableEq, Repr

/-- Reads one group of a tile at base; rd reads n bytes at an address. -/
def readGroup (rd : Nat → Nat → List Byte) (base : Nat) (h : Hdr) (r g : Nat) : GroupData :=
  { slice := rd (base + sliceOff h r g) (sliceOf h.fmt),
    scale := if blockScaled h.fmt then leNat (rd (base + scaleOff h r g) 1) else 127,
    side := if h.fmt = 0xD then leNat (rd (base + sideOff h r g) 1) else 0 }

/-- The exact value of the i-th element of a group (R38, R40, R42). -/
def groupElem (h : Hdr) (d : GroupData) (i : Nat) : FV :=
  let v := elemVal h.fmt (codeIn h.fmt d.slice i)
  match fmtClass h.fmt with
  | .unscaled => v
  | .tileScaled => v.scale h.t
  | .block =>
    if d.scale = 0xFF then .nan
    else v.scale ((d.scale : Int) - 127 - (field d.side (2 * (i / 8)) 2 : Nat))

/-- Element (r, k) of a tile. -/
def tileElem (rd : Nat → Nat → List Byte) (base : Nat) (h : Hdr) (r k : Nat) : FV :=
  groupElem h (readGroup rd base h r (k / 32)) (k % 32)

/-- Columns 0 to n - 1 of row r. -/
def tileRow (rd : Nat → Nat → List Byte) (base : Nat) (h : Hdr) (r n : Nat) : List FV :=
  ((upto (ceilDiv n 32)).map (fun g =>
    let d := readGroup rd base h r g
    (upto (min 32 (n - 32 * g))).map (groupElem h d))).flatten

/-- Invalid Tern2 codes among rows below r and columns below n of a tile (R44). -/
def ternInvalid (rd : Nat → Nat → List Byte) (base : Nat) (h : Hdr) (r n : Nat) : Nat :=
  if h.fmt ≠ 0xE then 0
  else foldUpto r 0 (fun acc i => foldUpto (ceilDiv n 32) acc (fun acc g =>
    let d := readGroup rd base h i g
    foldUpto (min 32 (n - 32 * g)) acc (fun acc j => if codeIn 0xE d.slice j = 2 then acc + 1 else acc)))

/-! ## The stochastic generator (R56 to R58) -/

def srFeedback : Nat := 0xD800000000000000

/-- One step of the 64-bit Galois register. -/
def srStep (x : Nat) : Nat := if x % 2 = 1 then Nat.xor (x / 2) srFeedback else x / 2

/-- 64 steps: the next word. -/
def srWord (x : Nat) : Nat := iter srStep 64 x

/-- The register as loaded for a key (R57). -/
def srLoad (seed key : Nat) : Nat :=
  let x := Nat.xor (seed % 2 ^ 64) ((key + 1) * 0x9E3779B97F4A7C15 % 2 ^ 64)
  if x = 0 then 1 else x

/-- The draw of position n (R58). -/
def srDraw (seed key n : Nat) : Nat :=
  field (iter srWord (n / 4 + 1) (srLoad seed key)) (16 * (n % 4)) 16

/-- Draws of n positions from position p on: words from word p / 4. -/
def srRun (w : Nat) : Nat → Nat → List Nat
  | 0, _ => []
  | k + 1, p =>
    let w' := if p % 4 = 0 then srWord w else w
    field w' (16 * (p % 4)) 16 :: srRun w' k (p + 1)

/-- Draws of positions p to p + n - 1. -/
def srDraws (seed key p n : Nat) : List Nat :=
  let w := iter srWord (p / 4) (srLoad seed key)
  srRun (if p % 4 = 0 then w else srWord w) n p

/-! ## Winnow counts of one operation (R62) -/

structure WCount where
  overs : Nat
  vanish : Nat
  nonfin : Nat
  total : Nat
  deriving DecidableEq, Repr

def WCount.zero : WCount := { overs := 0, vanish := 0, nonfin := 0, total := 0 }

def WCount.add (a b : WCount) : WCount :=
  { overs := a.overs + b.overs, vanish := a.vanish + b.vanish, nonfin := a.nonfin + b.nonfin,
    total := a.total + b.total }

/-- The inequality of R67; for Tern2 only overflow enters it. -/
def lossy (fmt threshold : Nat) (c : WCount) : Bool :=
  let loss := if fmt = 0xE then c.overs else c.overs + c.vanish
  decide (c.nonfin < c.total) && decide (threshold * (c.total - c.nonfin) < loss * 1000000)

/-! ## Conversion (R46 to R55) -/

/-- One converted element: its code and what the Winnow counts it as. -/
structure Code where
  bits : Nat
  count : WCount
  deriving DecidableEq, Repr

def countOne (ov vanish nonfin : Bool) : WCount :=
  { overs := boolNat ov, vanish := boolNat vanish, nonfin := boolNat nonfin, total := 1 }

/-- Rounds a finite value already divided by its scale (R53 to R55). draw none is RNE. -/
def roundElem (f : Nat) (neg : Bool) (m : Nat) (e : Int) (draw : Option Nat) : Code :=
  let el := elemOf f
  let rne := rneCode el m e
  let c := match draw with
    | none => min rne el.top
    | some r => srCode el m e r
  { bits := codeBits f neg c, count := countOne (decide (el.top < rne)) (decide (m ≠ 0 ∧ c = 0)) false }

/-- An element written as a zero code because its block is NaN (R51, R62). -/
def nanBlockElem (v : FV) : Code :=
  match v with
  | .fin .. => { bits := 0, count := countOne false false false }
  | _ => { bits := 0, count := countOne false false true }

/-- A non-finite source for an unscaled or tile-scaled destination (R51). -/
def nonfinElem (f : Nat) (v : FV) : Code :=
  let el := elemOf f
  let neg := v.negative
  let bits := match v with
    | .nan => match f with
      | 0x0 => 0x7FC00000 | 0x1 => 0x7FC0 | 0x2 => 0x7E00 | 0x4 => 0x7E | _ => 0
    | _ => if f = 0 ∨ f = 1 ∨ f = 2 ∨ f = 4 then signBit el neg + el.top + 1 else codeBits f neg el.top
  { bits := bits, count := countOne false false true }

/-- One element under scale exponent x: the source divided by 2^x, then rounded. -/
def convElem (f : Nat) (x : Int) (v : FV) (draw : Option Nat) : Code :=
  match v with
  | .fin n m e => roundElem f n m (e - x) draw
  | _ => nonfinElem f v

/-- The larger of two finite magnitudes; anything else is left out. -/
def maxMag (a : Nat × Int) (v : FV) : Nat × Int :=
  match v with
  | .fin _ m e =>
    if m = 0 then a
    else if (FV.fin false a.1 a.2).lt (.fin false m e) then (m, e) else a
  | _ => a

def amaxOf (l : List FV) : Nat × Int := l.foldl maxMag (0, 0)

def anyNonfin (l : List FV) : Bool := l.any (fun v => match v with | .fin .. => false | _ => true)

/-- The scale exponent of a block whose largest finite magnitude is a (R47, R48). rule 1 is the floor rule. -/
def scaleExp (f rule : Nat) (a : Nat × Int) : Int :=
  if a.1 = 0 then 0
  else
    let x := expOf a.1 a.2 - emaxOf f
    let el := elemOf f
    let x := if rule = 0 ∧ el.top < rneCode el a.1 (a.2 - x) then x + 1 else x
    max (-127) (min 127 x)

/-- The offset of a Tilth4 sub-block whose largest scaled magnitude is m × 2^e (R49). -/
def tilthOffset (m : Nat) (e : Int) : Nat :=
  let fits := fun (o : Nat) => decide (rneCode e2m1 m (e + o) ≤ e2m1.top)
  if m = 0 then 0 else if fits 3 then 3 else if fits 2 then 2 else if fits 1 then 1 else 0

/-- A converted block: element codes, scale byte, side byte, counts. -/
structure BlockOut where
  codes : List Nat
  scale : Nat
  side : Nat
  count : WCount
  deriving DecidableEq, Repr

def sumCounts (l : List Code) : WCount := l.foldl (fun a c => a.add c.count) WCount.zero

def zipDraws (l : List FV) (d : Option (List Nat)) : List (FV × Option Nat) :=
  match d with
  | none => l.map (fun v => (v, none))
  | some ds => (l.zip ds).map (fun p => (p.1, some p.2))

/-- Converts one block of at most 32 values (R47 to R55). -/
def convBlock (f rule : Nat) (t : Int) (l : List FV) (draws : Option (List Nat)) : BlockOut :=
  let ps := zipDraws l draws
  if blockScaled f then
    if anyNonfin l then
      let cs := l.map nanBlockElem
      { codes := cs.map (·.bits), scale := 0xFF, side := 0, count := sumCounts cs }
    else
      let x := scaleExp f rule (amaxOf l)
      let offs := if f = 0xD then
          (upto 4).map (fun j =>
            let a := amaxOf ((l.drop (8 * j)).take 8)
            tilthOffset a.1 (a.2 - x))
        else [0, 0, 0, 0]
      let cs := (upto ps.length).map (fun i =>
        let p := (ps[i]?).getD (.nan, none)
        convElem f (x - (natAt offs (i / 8) : Nat)) p.1 p.2)
      { codes := cs.map (·.bits), scale := (x + 127).toNat,
        side := natAt offs 0 + 4 * natAt offs 1 + 16 * natAt offs 2 + 64 * natAt offs 3,
        count := sumCounts cs }
  else
    let cs := ps.map (fun p => convElem f (if tileScaled f then t else 0) p.1 p.2)
    { codes := cs.map (·.bits), scale := 127, side := 0, count := sumCounts cs }

/-- A converted row: its blocks in order. -/
def convRow (f rule : Nat) (t : Int) (l : List FV) (draws : Option (List Nat)) : List BlockOut :=
  (upto (ceilDiv l.length 32)).map (fun g =>
    convBlock f rule t ((l.drop (32 * g)).take 32) (draws.map (fun d => (d.drop (32 * g)).take 32)))

/-- Bytes of one slice: the codes packed from bit 0 up, missing codes zero (R41). -/
def packCodes (f : Nat) (codes : List Nat) : List Byte :=
  toLe (sliceOf f) ((upto codes.length).foldl (fun a i => a + natAt codes i * 2 ^ (i * widthOf f)) 0)

/-- A converted tile in A layout: its rows of blocks and the operation's counts. -/
structure TileOut where
  fmt : Nat
  rows : List (List BlockOut)
  count : WCount
  deriving DecidableEq, Repr

/-- Converts a whole tile. sr: seed and key, or RNE. Positions are numbered by row, then column (R58). -/
def convTile (f rule : Nat) (t : Int) (src : List (List FV)) (cols : Nat) (sr : Option (Nat × Nat)) :
    TileOut :=
  let draws := sr.map (fun p => srDraws p.1 p.2 0 (src.length * cols))
  let rows := (upto src.length).map (fun i =>
    convRow f rule t ((src[i]?).getD []) (draws.map (fun d => (d.drop (i * cols)).take cols)))
  { fmt := f, rows := rows,
    count := rows.foldl (fun a r => r.foldl (fun a b => a.add b.count) a) WCount.zero }

/-- What a write of a converted tile at base stores: each row's slices, the header, the scale and side
arrays with their padding (R128, R217). Bytes of the region beyond the last row's last block stay. -/
def tileWrites (base : Nat) (h : Hdr) (t : TileOut) : List (Nat × List Byte) :=
  let rows := (upto t.rows.length).map (fun r =>
    (base + sliceOff h r 0,
      padTo (rowBytes h) (((t.rows[r]?).getD []).map (fun b => packCodes h.fmt b.codes)).flatten))
  let scales := t.rows.flatten.map (fun b => BitVec.ofNat 8 b.scale)
  let sides := t.rows.flatten.map (fun b => BitVec.ofNat 8 b.side)
  (base, h.bytes) :: rows
    ++ (if blockScaled h.fmt then [(base + 64 + elemArray h, padTo (scaleArray h) scales)] else [])
    ++ (if h.fmt = 0xD then [(base + 64 + elemArray h + scaleArray h, padTo (sideArray h) sides)] else [])

/-- The header a writing unit writes over an old one: it keeps USER and fits SIZE (R216). -/
def newHdr (old : List Byte) (fmt pfmt cls rows cols layout : Nat) (t : Int) : Hdr :=
  let h : Hdr := { user := (Hdr.parse old).user, size := 0, rm1 := rows - 1, km1 := cols - 1, t := t, cls := cls,
                   pfmt := pfmt, esc := decide (fmt ≠ pfmt), layout := layout, fmt := fmt }
  { h with size := tileSize h }

/-- An FP32 tile of rows of bit patterns, unconverted (R121): CLS 0. -/
def f32Tile (rows : List (List Word32)) : TileOut :=
  { fmt := 0, count := WCount.zero,
    rows := rows.map (fun r => (upto (ceilDiv r.length 32)).map (fun g =>
      { codes := ((r.drop (32 * g)).take 32).map (·.toNat), scale := 127, side := 0, count := WCount.zero })) }

/-- A source element widened to FP32: saturated when only a large scale puts it beyond the range (R121).
The flag tells a saturation. -/
def widen32 (v : FV) : Word32 × Bool :=
  match v with
  | .fin n m e => if aboveTop f32 m e then (top32 n, true) else (rn32 v, false)
  | _ => (rn32 v, false)

end Sys2Proof.Machine
end

