-- ==== Sys2Proof/Machine/Crc.lean ====
section
/-! DEFINITION. The CRC-32 of R267, used by flits and by black-box records (R425). -/
namespace Sys2Proof.Machine

/-- One bit of the division by 0x04C1_1DB7, most significant bit first (log entry 14). -/
def crcBit (c : Nat) : Nat := if 2 ^ 31 ≤ c then Nat.xor (2 * c % 2 ^ 32) 0x04C11DB7 else 2 * c

def crcByte (c : Nat) (b : Byte) : Nat := iter crcBit 8 (Nat.xor c (b.toNat * 2 ^ 24))

/-- Initial value 0xFFFF_FFFF, result inverted. -/
def crc32 (l : List Byte) : Nat := Nat.xor (l.foldl crcByte 0xFFFFFFFF) 0xFFFFFFFF

end Sys2Proof.Machine
end

