-- ==== Sys2Proof/Config.lean ====
section
/-! DEFINITION. What one module fixes and the manual does not give, and the source of the free values.
None of these constants has a body: no proof can learn a value of one. -/
namespace Sys2Proof.Config

/-- The source of every free value: the n-th open value the run meets (log entry 2). -/
opaque free : Nat → Nat
/-- How far clock domain d runs in idle step n (log entry 3; R458 gives no ratio between domains). -/
opaque clockAdvance : Nat → Nat → Nat
/-- FTOU of a value at or above 2^64, or of +Inf: the manual states no result (log entry 4; Table 04-2). -/
opaque ftouBeyond : Word32 → Word64
/-- The stall cause and details of a FENCE that waits for tile instructions: Table 07-15 names none (R231). -/
opaque fenceCause : Nat × Nat × Nat
/-- The serial number, `OD 0001:02` (Table 12-12: by module). -/
opaque serial : List Byte
/-- Onbor's enterprise number, `OD 0001:03`. -/
opaque enterprise : Word32
/-- The substrate stepping, `OD 0001:06`. -/
opaque stepping : Byte
/-- The firmware image shipped in the module (Table 15-2). -/
opaque shippedImage : List Byte
/-- The modulus of the Onbor root public key in the boot ROM (R430). -/
opaque rootModulus : Nat
/-- The moduli of the identity key and of the Onbor Grauz intermediate's key (R438). -/
opaque identityModulus : Nat
opaque intermediateModulus : Nat
/-- The private exponents of the identity key, the intermediate's and the root's: none is ever readable (Table 15-1). -/
opaque privateExponent : Nat → Nat
/-- The fields of a certificate that the manual leaves open: serial numbers, Onbor's names, the start of validity, extensions,
salts (log entry 85). -/
opaque certField : Nat → List Byte
/-- Which of the types left open a Rotation flit of the control class (true) or of VC has: Table 09-4 names none (log entry 72). -/
opaque rotationType : Bool → Nat
/-- The Riljo protocol version that TRAINING flits exchange (R274): the manual gives no number. -/
opaque riljoVersion : BitVec 16
/-- SHA-512 of the boot ROM (Table 15-6, block 1). -/
opaque bootRomDigest : List Byte
/-- The frame in which the partner module keeps a page of a job: job, module, page (R420, log entry 42). -/
opaque replicaFrame : Nat → Nat → Nat → Nat
/-- Bytes of a message of an external standard that the manual adopts and does not restate
(an SPDM key schedule, an MCTP version list), as a function of a draw number (log entry 2). -/
opaque freeBytes : Nat → List Byte
/-- How a black-box record lays out the facts that Table 14-6 lists for an event. -/
opaque boxDetail : Nat → List Nat → List Byte
/-- The severity of an event's record, and its function where the event is not one function's (Table 14-5). -/
opaque boxSeverity : Nat → Nat
opaque boxFunction : Nat → Nat

end Sys2Proof.Config
end

