-- ==== Sys2Proof/Machine/State.lean ====
section
/-! DEFINITION. The state of one module, as plain data: every register, store, queue, counter, mode and
pin the manual gives it, grouped by chapter, and the queue of waiting commands. Sparse stores are
`KV` lists in canonical form: keys rising, nothing equal to the store's default listed. -/
namespace Sys2Proof.Machine

/-- Why a step ends in a fault. -/
inductive Fault where
  /-- `GRANARY_REQUEST_ADMITTED` and `GRANARY_SECTOR_ACCESS` with a sector at or beyond 2^33, and
  `UNORDERED_IO_PEER_ACCESS` and CXL.mem commands beyond the window: the address does not exist (R205,
  R339). Safe: the run stops where no such access is defined. -/
  | noSuchAddress
  deriving DecidableEq, Repr

/-- Why a command has no meaning. -/
inductive Refusal where
  /-- Raised by an arm of `exec` that has no meaning yet. Safe. -/
  | notModelled (mnemonic : String)
  deriving DecidableEq, Repr

/-! ## Clocks (R458) -/

/-- How many cycles each clock domain has made: no unit relies on the ratio between two of them. -/
structure Clocks where
  aux : Nat
  /-- of Headlands A and B, 0 and 1 -/
  selty : KV Nat
  hedgerow : Nat
  /-- of stacks 0 to 7 -/
  granary : KV Nat
  /-- tc of Fields 0 to 7 -/
  tc : KV Nat
  /-- recovered port clocks and transmit clocks of Riljo ports 0 to 63 -/
  port : KV Nat
  transmit : KV Nat
  /-- PHY clocks of CXL ports 0 and 1 -/
  phy : KV Nat
  /-- idle steps taken: the argument of `Config.clockAdvance` -/
  ticks : Nat
  deriving DecidableEq, Repr

/-! ## Inside a Tiller (chapters 3 to 6) -/

/-- What a thread is doing (R108, R109). -/
inductive ThreadSt where
  | idle
  | ready
  /-- waiting in WAIT for count of the semaphore since a tc -/
  | waitSem (sem count since : Nat)
  /-- waiting for a Furrow reply that writes rd -/
  | waitFurrow (rd : Reg)
  /-- waiting in FENCE since a tc -/
  | waitFence (since : Nat)
  | halted
  | stopped
  deriving DecidableEq, Repr

/-- A hardware thread (R107). pc is a byte address in the program store (R110). -/
structure Thread where
  st : ThreadSt
  pc : Word64
  regs : KV Word64
  startTc : Nat
  /-- since when its next instruction has waited at issue (R105, R142) -/
  issueWait : Option Nat
  /-- that wait is for room at the Drill (R322) -/
  drillWait : Bool
  /-- its next instruction waits for a line that an earlier one of its own still writes (R123) -/
  lineWait : Bool
  /-- what its present wait was last charged to: a stall cause and two details (R231) -/
  cause : Nat × Nat × Nat
  deriving DecidableEq, Repr

/-- Sheaf modes (Table 03-5). -/
inductive SheafMode where
  | ec | plain | sr
  deriving DecidableEq, Repr

/-- An open Sheaf: entries by 256 × row + column, each (s, e) as FP32 bits; an SR entry holds its
BF16 value widened (R90). `closing`: a closing drain or a discard has been accepted. -/
structure Sheaf where
  mode : SheafMode
  owner : Nat
  cells : KV (Word32 × Word32)
  closing : Bool
  deriving DecidableEq, Repr

/-- Blade functions (Table 04-12). -/
inductive BeltFn where
  | copy | add | sub | mul | max | min | axpy | scale | exp | log | recip | rsqrt | tanh | sigmoid
  | silu | gelu | relu | swiglu | select
  deriving DecidableEq, Repr

inductive BrowFn where
  | sum | max | softmax | lse | rmsnorm | layernorm | topk
  deriving DecidableEq, Repr

/-- A converting operation's parameters: FMT, CLS, RND, T and SR key (R50 to R57), and ROOM in lines. -/
structure Conv where
  fmt : Nat
  cls : Nat
  rnd : Nat
  t : Int
  key : Word32
  room : Nat
  deriving DecidableEq, Repr

/-- An accepted tile instruction with its register operands read at issue. -/
inductive TileOp where
  | mma (wt act m n k sh : Nat) (hold : Bool) (key : Word32)
  | attf (ds : Nat) (pr : Word64) (key : Word32) (q v mask d s1 s2 : Nat)
  | attb (ds : Nat) (pr : Word64) (key : Word32) (q v mask d s1 s2 s3 : Nat)
  | sload (src rows sh ld : Nat)
  | sdrain (dst m n sh out : Nat) (close : Bool) (cv : Conv)
  | discard (sh : Nat)
  | belt (fn : BeltFn) (sa sb dst rows cols : Nat) (s : Word32)
  | brow (fn : BrowFn) (sa sb dst rows cols k : Nat) (s : Word32)
  | bcvt (src dst rows cols : Nat) (cv : Conv) (ar : Reg)
  | bconv (ds src dst rows : Nat)
  deriving DecidableEq, Repr

/-- How far an accepted tile instruction has come. -/
inductive Stage where
  | queued
  | running
  /-- its last partial has landed, or it waits for nothing but its completion -/
  | finishing
  deriving DecidableEq, Repr

/-- A tile instruction issued and not complete (R105): its number in issue order, its thread, the
Hopper ranges (address, length) it reads and writes (R123). -/
structure InFlight where
  id : Nat
  thread : Nat
  pc : Word32
  word : Word128
  op : TileOp
  reads : List (Nat × Nat)
  writes : List (Nat × Nat)
  stage : Stage
  since : Nat
  deriving DecidableEq, Repr

/-- Stash buffer states (R79). -/
inductive BufSt where
  | empty | filling | ready | active
  deriving DecidableEq, Repr

/-- One Stash buffer over all lanes: the span it holds (weight tile, its header, format, first group, groups, first
column, columns), the 16-byte entries received by Hopper address / 16, and the lines still to come (R78, R79). -/
structure StashBuf where
  st : BufSt
  wt : Nat
  head : List Byte
  fmt : Nat
  g0 : Nat
  ng : Nat
  col0 : Nat
  ncols : Nat
  cells : KV (List Byte)
  want : List Nat
  /-- tc each wanted line has been refused its bank (R84) -/
  waits : KV Nat
  /-- the queued instruction that it is filled for while another runs (R85) -/
  ahead : Option Nat
  /-- the K up to which invalid Tern2 codes of its columns have been counted (R44) -/
  codesTo : Nat
  deriving DecidableEq, Repr

/-- An entry in a lane's feeder queue: the buffer it is for (A or B), its Hopper address / 16, and its 16 bytes (R84). -/
structure FeedEntry where
  toA : Bool
  blk : Nat
  bytes : List Byte
  deriving DecidableEq, Repr

/-- A span of a weight tile: groups g0 to g0 + ng - 1 of ncols columns from col0 (Table 03-3). -/
structure Span where
  g0 : Nat
  ng : Nat
  col0 : Nat
  ncols : Nat
  deriving DecidableEq, Repr

/-- The matrix or attention instruction at the Drill: the pass, group and row whose partials land next. -/
structure DrillExec where
  id : Nat
  pass : Nat
  group : Nat
  row : Nat
  stallSince : Option Nat
  /-- since when it has been at the Drill -/
  since : Nat
  /-- headers of its weight and activation tiles as read at its start -/
  wh : List Byte
  ah : List Byte
  /-- an attention instruction's weight tiles and their spans still to be taken, and the Stash entries taken (R19) -/
  spans : List (Nat × Span)
  taken : KV (List Byte)
  /-- tc of work that each of those spans brings, the tc at which the Drill needs the next one, and the tc it has waited for
  them (R80, R161) -/
  works : List Nat
  due : Nat
  stalls : Nat
  deriving DecidableEq, Repr

/-- The last instruction that added into a Sheaf: its rows, the tc of a row, when it ended, and its fold: rows of a fold and values
of a row (R76, R151). -/
structure LastAdd where
  sheaf : Nat
  rows : Nat
  perRow : Nat
  ended : Nat
  foldRows : Nat
  foldCols : Nat
  deriving DecidableEq, Repr

/-- The Drill's clock gate (R396, R397). -/
inductive Gate where
  | running
  /-- idle and asking to gate: runs filler since a tc -/
  | asking (since : Nat)
  | rampDown (since : Nat)
  | gated
  /-- work has reached it: waits for its start grant since a tc -/
  | waitGrant (since : Nat)
  | rampUp (since : Nat)
  deriving DecidableEq, Repr

/-- Stream context states (R235). -/
inductive CtxSt where
  | idle | running | halted
  deriving DecidableEq, Repr

/-- A chunk the context has begun to read: its first element, the element after its last, the next element
to read, pads among those read, the destination writes it will make (address, bytes), the index cursor at
its start and, once known, after its last element, whether a run-ahead read of it was dropped (R248), and whether its source is
read (R243). Of a TILE gather: the rows gathered, none for a pad, and the header of the first row's tile (R242, R251). -/
structure Chunk where
  first : Nat
  stop : Nat
  next : Nat
  pads : Nat
  writes : List (Nat × List Byte)
  cursor : Nat × Nat × Nat
  after : Option (Nat × Nat × Nat)
  dropped : Bool
  readDone : Bool
  /-- an element of it is under way: partly read from another module, or partly written (R254) -/
  inElem : Bool
  rows : List (Option (List Byte))
  head : List Byte
  deriving DecidableEq, Repr

/-- A stream fault (Table 08-6). -/
structure StreamFault where
  kind : Nat
  ja : Nat
  elem : Nat
  chunk : Nat
  deriving DecidableEq, Repr

/-- A Harrow stream context (R235 to R261): the descriptor as read at start, the rebased G-side base, the
chunks taken, read and signalled. -/
structure Ctx where
  st : CtxSt
  desc : List Byte
  base : Nat
  thread : Nat
  job : Nat
  /-- chunks whose UF count it holds, and DE counts it has taken -/
  uf : Nat
  de : Nat
  ufQueued : Bool
  deQueued : Bool
  /-- chunks granted to it by its receiver (SEND, RELAY), and granted by it (RECV, RELAY) -/
  granted : Nat
  grants : Nat
  /-- the next chunk to read, its first element, and chunks signalled -/
  nextChunk : Nat
  nextElem : Nat
  done : Nat
  chunks : KV Chunk
  latched : Bool
  released : Bool
  fault : Option StreamFault
  /-- remote writes of the head chunk still unacknowledged -/
  remoteWrites : Option Nat
  /-- index cursor of RUN entries: entries read, next index, indices left (R239) -/
  cursor : Nat × Nat × Nat
  /-- remote lines read for the chunk under way, by job address / 64, and lines still to come -/
  cache : KV (List Byte)
  asked : List Nat
  /-- the granule whose bale the demand fault it met has pinned (R222) -/
  pinned : Option Nat
  /-- the table header and entries a walk has read (R172) -/
  table : List Byte
  /-- chunks a relay has forwarded (R259) -/
  sent : Nat
  deriving DecidableEq, Repr

/-- The stopped-thread record, `OD 2300` (R125). -/
structure StopRec where
  thread : Nat
  pc : Word32
  bytes : List Byte
  reason : Nat
  deriving DecidableEq, Repr

/-- One Tiller. -/
structure Tiller where
  threads : KV Thread
  program : KV Byte
  hopper : KV Byte
  sheaves : KV Sheaf
  flights : List InFlight
  nextId : Nat
  drill : Option DrillExec
  /-- matrix and attention instructions at the Drill, in the order they reached it -/
  drillQueue : List Nat
  bufA : StashBuf
  bufB : StashBuf
  /-- the feeder queue of each working lane, oldest first (R84) -/
  feeders : KV (List FeedEntry)
  /-- the last instruction that added into a Sheaf in one pass (R76) -/
  lastMma : Option LastAdd
  /-- the thread that issued last (R109) -/
  turn : Nat
  /-- the Blade instruction or attention block that occupies the Blade -/
  blade : Option Nat
  /-- the converting drain between its first read and its last write (R100) -/
  staging : Option Nat
  ctxs : KV Ctx
  /-- per-Tiller counts, by 256 × index + subindex of the module object -/
  counts : KV Nat
  stop : Option StopRec
  gate : Gate
  /-- since when the Drill has had no instruction (R396) -/
  drillIdle : Nat
  /-- bypass mask of the 16 lane groups (R102) -/
  bypass : BitVec 16
  /-- the job that holds the Tiller; 0 none -/
  job : Nat
  deriving DecidableEq, Repr

/-! ## Furrow counters, semaphores and signals (chapter 4) -/

structure Furrow where
  epoch : BitVec 16
  next : Word32
  limit : Word32
  job : Nat
  deriving DecidableEq, Repr

/-- A TAKE (limit absent) or an ARM at a counter block (R131); one that names no thread has come by the dictionary port
(R134). -/
structure FurrowReq where
  die : Nat
  num : Nat
  thr : Option Thr
  arm : Option Word32
  epoch : BitVec 16
  stamp : Nat
  port : Nat
  deriving DecidableEq, Repr

/-- Who waits on a semaphore (R140). -/
inductive Waiter where
  | thread (t : Thr) (count : Nat)
  /-- a stream's UF (false) or DE (true) count -/
  | stream (c : CtxId) (de : Bool)
  | sowing (entry count : Nat)
  deriving DecidableEq, Repr

structure Sem where
  count : Nat
  waiters : List Waiter
  /-- producers registered, oldest first: an engine code and a detail (R231) -/
  producers : List (Nat × Nat × Nat)
  deriving DecidableEq, Repr

inductive SigSource where
  | thread (t : Thr) (pc : Word32) (word : Word32)
  | stream (c : CtxId)
  | engine
  | host
  deriving DecidableEq, Repr

/-- A signal in flight (R139). `before`: the sender's tile instructions numbered below this must be complete. -/
structure Signal where
  id : Nat
  src : SigSource
  sem : Nat
  count : Nat
  before : Nat
  job : Nat
  deriving DecidableEq, Repr

/-! ## Memory tiers (chapter 7) and Windrows (chapter 5) -/

inductive BaleSt where
  /-- no granule valid; a bale stays so in the directory only while pins keep it there (R220) -/
  | absent
  | fetching | clean | dirty | writing
  deriving DecidableEq, Repr

/-- A bale of the directory (R220, R221), by the Granary address of its first granule. `evicting`: the
write-back under way is an eviction's. `pins`: its pin count; `demand`: those of its pins that demand faults have added. -/
structure Bale where
  ga : Nat
  barn : Nat
  len : Nat
  st : BaleSt
  evictPending : Bool
  evicting : Bool
  pins : Nat
  demand : Nat
  /-- Sowing entries that complete with the move up, the write-back, a pending eviction, and the eviction under way -/
  onMove : List Nat
  onWrite : List Nat
  onEvict : List Nat
  evictNow : List Nat
  /-- granules asked of Barn, and those that this write-back writes, each with its port -/
  asked : List (Nat × Nat)
  writing : List (Nat × Nat)
  job : Nat
  deriving DecidableEq, Repr

/-- A Sowing entry started and not complete. -/
structure SowFlight where
  index : Nat
  kind : Nat
  layer : Nat
  ja : Nat
  len : Nat
  a2 : Nat
  sem : Option Nat
  h : Bool
  /-- remote lines of a COPY, by job address / 64: read, asked for, and writes unacknowledged -/
  cache : KV (List Byte)
  asked : List Nat
  remoteWrites : Option Nat
  deriving DecidableEq, Repr

structure Sowing where
  holder : Nat
  base : Nat
  entries : Nat
  next : Nat
  /-- the present layer; below zero between an END passed ahead and the layer it waits for -/
  lp : Int
  ahead : Nat
  credit : Nat
  ends : Nat
  lastRefused : Nat
  prevLayer : Nat
  flights : List SowFlight
  /-- a refused entry has stopped the schedule (R230) -/
  stopped : Bool
  deriving DecidableEq, Repr

/-- A store held by walk protection (R176): its source and the bytes it writes. -/
structure HeldStore where
  source : Nat
  ga : Nat
  bytes : List Byte
  /-- the stream context whose chunk it belongs to, if any -/
  ctx : Option CtxId
  /-- its request slot is a reserved one (R208) -/
  reserved : Bool
  deriving DecidableEq, Repr

/-- An admitted sector request (R208): its slot is reserved (true) or shared, and the Granary clock of its admission. -/
structure Admitted where
  id : Nat
  req : SectorReq
  reserved : Bool
  since : Nat
  deriving DecidableEq, Repr

/-- A request in its source's retry buffer (R209), and what its wait has been counted as: at the bank limit, for a shared
slot. -/
structure Retry where
  req : SectorReq
  bank : Bool
  slot : Bool
  /-- the Granary clock at which its wait began -/
  since : Nat
  deriving DecidableEq, Repr

/-- A sector request of a stream, an engine, a host or another module that waits for admission at its source (R209, R211). -/
structure SlotWait where
  source : Nat
  sector : Nat
  bank : Bool
  slot : Bool
  /-- the Granary clock at which its wait began -/
  since : Nat
  deriving DecidableEq, Repr

/-- A stack's request slots, retry buffers and open rows (R206 to R210). -/
structure Stack where
  admitted : List Admitted
  retry : List Retry
  nextId : Nat
  /-- open row of a bank, by 32 × channel + bank, plus 1; 0 none -/
  openRow : KV Nat
  /-- sectors a channel has transferred in one direction, and whether they were writes (R207) -/
  runs : KV (Nat × Bool)
  /-- banks (32 × channel + bank) refreshed in their channel's present round (R207) -/
  refreshed : List Nat
  /-- read data returned, newest first: request number and bytes -/
  returned : List (Nat × List Byte)
  scrubPos : Nat
  /-- bytes and sectors corrected in this stack (R412) -/
  corrBytes : Nat
  corrSectors : Nat
  /-- sectors corrected since the pass began (R414) -/
  corrected : List Nat
  spareRows : Nat
  spareBanks : Nat
  /-- spare rows used per bank -/
  rowsUsed : KV Nat
  /-- banks whose background copy runs, and banks remapped -/
  bankCopy : List Nat
  bankSpared : List Nat
  /-- rows waiting for repair (bank key × 16384 + row), and rows remapped -/
  rowWait : List Nat
  rowRepaired : List Nat
  /-- rows that have failed in this pass, by bank -/
  rowsFailedInPass : KV Nat
  deriving DecidableEq, Repr

/-! ## Awn, Rotation (chapters 5, 6) -/

/-- The descriptor the Awn engine is running, with the weights and bias it loaded (R184). -/
structure AwnRun where
  desc : List Byte
  weights : List Byte
  bias : List Byte
  /-- next output tile (stem) or next input tile (head) -/
  tile : Nat
  /-- slot credits taken -/
  taken : Nat
  index : Nat
  /-- FSEM signals due once the stores they announce are performed (R177) -/
  due : Nat
  /-- frame rows in the line buffer, by address (R190), and the input width of a head's tiles (R195) -/
  lines : KV (List Byte)
  width : Option Nat
  /-- its job has ended while a tile was being written: it goes once that is done (R200) -/
  left : Bool
  deriving DecidableEq, Repr

structure Awn where
  holder : Nat
  base : Nat
  entries : Nat
  next : Nat
  posts : Nat
  credits : Nat
  status : Nat
  run : Option AwnRun
  completed : Nat
  frame : Nat
  written : Nat
  reason : Nat
  /-- since when it waits for credit, in Hedgerow clocks -/
  waitSince : Option Nat
  deriving DecidableEq, Repr

structure Rotation where
  holder : Nat
  g : Nat
  pos : Nat
  mode : Nat
  slots : Nat
  slotb : Nat
  base : Nat
  vc : Nat
  acre : Nat
  members : List Nat
  lead : Nat
  lsem : Nat
  round : Nat
  /-- SIGs to index 0 (passes) and index 1 (rounds) -/
  blockSigs : Nat
  roundSigs : Nat
  /-- rounds whose block is complete here and has been signalled -/
  complete : List Nat
  /-- (position, round): credits this member granted, credits granted to it, blocks it has sent, and those of them that
  their receiver has acknowledged -/
  granted : List (Nat × Nat)
  credits : List (Nat × Nat)
  sent : List (Nat × Nat)
  acked : List (Nat × Nat)
  /-- blocks of a round that have come and wait for memory -/
  arrived : List (Nat × List Byte)
  /-- rounds whose block has been stored and is complete once those stores are performed (R177) -/
  due : List Nat
  deriving DecidableEq, Repr

/-! ## Stook layer (chapter 10) -/

/-- A reduction-group record as parsed from its 64 bytes (Table 10-1). -/
structure GroupRec where
  gid : Nat
  kind : Nat
  p : Nat
  steps : List Nat
  tiles : Nat
  slotb : Nat
  rbase : Nat
  cbase : Nat
  mlist : Nat
  dl : Nat
  keyb : Nat
  retm : Nat
  nl : Nat
  dsem : Nat
  rows : Nat
  cols : Nat
  vc : Nat
  tfmt : Nat
  tpair : Bool
  cpair : Bool
  rout : Bool
  norm : Bool
  ret : Bool
  deriving DecidableEq, Repr

/-- A running sum (kind 0), result (1) or gather tile (2) that has arrived, and whether a Gleaner sent it. -/
structure StookIn where
  tile : Nat
  kind : Nat
  gleaner : Bool
  bytes : List Byte
  /-- the port it came on -/
  port : Nat
  deriving DecidableEq, Repr

/-- A layer window of one group (R300 to R308): tiles posted here and contributions read, what has arrived, running
sums taken, results written, tiles this member has handled, norm pairs of owned tiles; `done`: DSEM is signalled. `late`: the
positions whose deadline has passed; `timers`: for a position that has a Gleaner, the port on which its primary's flow arrives,
that port's clock when the count began there, and the clocks counted before (R314). -/
structure Window where
  lam : Nat
  opened : Bool
  late : List Nat
  timers : KV (Nat × Nat × Nat)
  posted : List Nat
  marker : Bool
  read : List Nat
  arrived : List StookIn
  taken : List Nat
  results : List Nat
  handled : List Nat
  norms : List (Nat × Word32 × Word32)
  done : Bool
  deriving DecidableEq, Repr

structure Group where
  cfg : GroupRec
  job : Nat
  members : List (Nat × Nat)
  /-- ring position as primary; position gleaned for -/
  primary : Option Nat
  gleans : Option Nat
  lam : Nat
  windows : List Window
  /-- posts (a tile) and markers held, oldest first (R304, R312) -/
  held : List (Option Nat)
  rt : Nat
  /-- NORM windows completed since the last norm contribution: (λ, s, e) -/
  partials : List (Nat × Word32 × Word32)
  deriving DecidableEq, Repr

/-- The step record (Table 10-2) of the job that commits. -/
structure StepRec where
  naddr : Nat
  curb : Nat
  retc : Nat
  cpl : Nat
  clip : Word32
  nsem : Nat
  csem : Nat
  ncp : Nat
  ncur : Nat
  deriving DecidableEq, Repr

/-- What commit records (R327, step 4). -/
structure Saved where
  lams : List (Nat × Nat)
  lp : Int
  credit : Nat
  next : Nat
  round : Nat
  deriving DecidableEq, Repr

/-- What the job engine has still to write: the norm line, a commit, or the restore of a rollback. -/
inductive EngineTask where
  | norm (s e : Word32)
  | commit
  | restore
  deriving DecidableEq, Repr

structure Stook where
  groups : List Group
  normSent : Option (Word32 × Word32)
  s : Word32
  scale : Word32
  flag : Bool
  commitState : Nat
  step : Option StepRec
  job : Nat
  /-- the vote cast this step, whether an error was met since the last commit, and since the vote -/
  vote : Option Bool
  bad : Bool
  badSinceVote : Bool
  steps : Nat
  saved : Saved
  /-- values of the scalar tree held: round (0 norm, 1 and 2 commit, 3 quiescent), index, s, e, bit -/
  tree : List (Nat × Nat × Word32 × Word32 × Bool)
  /-- members that have said "admitted" for themselves and all below them: job, index (Table 11-6, step 4) -/
  admits : List (Nat × Nat)
  /-- this member has said "quiescent" (Table 10-4, step 5); a 0 of a vote has come down before this member runs (R327, R346) -/
  quiet : Bool
  early : Bool
  tasks : List EngineTask
  deriving DecidableEq, Repr

/-! ## Jobs (chapter 11) -/

/-- What the job engine keeps of an admitted manifest (Table 11-3). -/
structure Manifest where
  ga : Nat
  job : Nat
  span : Nat
  fact : Nat
  plim : Nat
  mvc : Nat
  aftt : Option Nat
  afts : Nat
  tset : List Nat
  entries : List (Nat × Nat)
  ahop : Nat
  args : Nat
  alen : Nat
  prog : Nat
  plen : Nat
  ttb : Nat
  ttn : Nat
  counters : List Nat
  mlst : List Nat
  vcs : List Nat
  regions : List (Nat × Nat)
  barnPorts : Nat
  awn : Bool
  crec : Nat
  stage : Nat × Nat
  deriving DecidableEq, Repr

structure Job where
  /-- Table 11-7 -/
  st : Nat
  reason : Nat
  man : Manifest
  seed : Word64
  /-- class configuration latched at admission, by 256 × index + subindex -/
  classes : KV Nat
  abortPolicy : Bool
  forced : Bool
  /-- translation entries in force, by page number (R215) -/
  xlate : KV Nat
  /-- auxiliary clock at step 6 of Table 11-6; none before it -/
  startAux : Option Nat
  /-- auxiliary clock of the last progress (R347) -/
  progress : Nat
  endAux : Nat
  /-- the completion record is still to be written, and the slot is free once it is (R348, R350) -/
  record : Bool
  freeing : Bool
  deriving DecidableEq, Repr

/-! ## Riljo (chapter 9) -/

/-- What a flit carries beside a transaction's sectors: the spec gives these contents and no layout of their bytes (log entry
72). -/
inductive Note where
  | none
  | map (m : MapMsg)
  | urgent (m : UrgentMsg)
  | stook (m : StookMsg)
  | train (m : TrainMsg)
  /-- the destination `dst` of a flow asks its source to replay it (R289) -/
  | replay (dst vc : Nat)
  /-- Rotation: credit for a round, the block for a round, and the acknowledgement that it is complete (R165, R166) -/
  | rotCredit (round : Nat)
  | rotBlock (round : Nat)
  | rotAck (round : Nat)
  deriving DecidableEq, Repr

/-- A flit this module sends: its header fields (Table 09-3) and payload sectors. seq is set as it leaves. `came`: the port and
the credit key (2 × VC + class) of the receive buffer slot that a transit flit leaves free. `more`: the flits of its train after
it, with which it travels consecutively (R268). -/
structure OutFlit where
  seq : Nat
  typ : Nat
  vc : Nat
  src : Nat
  dst : Nat
  stage : Nat
  tag : Nat
  bytes : List Byte
  note : Note
  came : Option (Nat × Nat)
  more : Nat
  deriving DecidableEq, Repr

/-- A Riljo port (Tables 09-5 to 09-7, R269, R277 to R280). -/
structure Port where
  st : Nat
  peer : BitVec 15
  peerPort : BitVec 8
  sub : BitVec 8
  reason : Nat
  rtt : Nat
  /-- the training step reached (Table 09-6); 0 not training -/
  step : Nat
  /-- last SEQ sent, last received in order, last acknowledged -/
  txSeq : Nat
  rxSeq : Nat
  acked : Nat
  nakSent : Bool
  replay : List OutFlit
  replaysInWindow : Nat
  noProgress : Nat
  /-- port clocks at which the ACK last advanced, and at which the replay window began (R269, R271) -/
  lastAck : Nat
  windowStart : Nat
  /-- auxiliary clocks at which its last training attempt began, none before the first, and at which its present step began
  (R273) -/
  since : Option Nat
  stepSince : Nat
  /-- slots taken in the peer's receive buffer, oldest first, by 2 × VC + class: STAGE + 1 a reserved one, 0 a shared one
  (R277) -/
  credits : KV (List Nat)
  /-- credits to return to the peer, by 2 × VC + class, and whether an ACK is still to be sent -/
  returns : KV Nat
  ackDue : Bool
  /-- flits waiting to leave, and the VC whose turn it is with the flits it has taken (R279) -/
  egress : List OutFlit
  turn : Nat × Nat
  /-- transactions arriving in parts: TYPE, source, VC, the sectors so far and the flits they came in -/
  parts : List (Nat × Nat × Nat × List Byte × Nat)
  /-- transit trains that arrive here: TYPE, source, VC, and the flits still to come (R268) -/
  coming : List (Nat × Nat × Nat × Nat)
  /-- the train of which flits have left on a VC and others are to follow: by VC its TYPE, source, destination and tag (R268) -/
  leaving : KV (Nat × Nat × Nat × Nat)
  deriving DecidableEq, Repr

/-- What an outgoing transaction serves. -/
inductive TransOwner where
  /-- a remote read of a stream, from a job address -/
  | streamRead (c : CtxId) (ja : Nat)
  | streamWrite (c : CtxId)
  /-- a COPY entry's remote read and write -/
  | sowRead (entry ja : Nat)
  | sowWrite (entry : Nat)
  /-- a committed sector read from its replica, for the sector at ga (R421) -/
  | repair (ga : Nat)
  /-- its requester has gone: the answer is dropped -/
  | gone
  deriving DecidableEq, Repr

/-- An outgoing transaction (R288, R289). `since`: the clock of its port when its requests last left; `parked`: its flow has
moved to a port that has 4 096 transactions outstanding, and it waits to be sent again there. -/
structure Trans where
  port : Nat
  tag : Nat
  dst : Nat
  vc : Nat
  eseq : Nat
  write : Bool
  ga : Nat
  sectors : Nat
  data : List Byte
  timeouts : Nat
  since : Nat
  parked : Bool
  owner : TransOwner
  job : Nat
  deriving DecidableEq, Repr

/-- A flow from this module (R284 to R286): its route as (module, port) hops, none where it has no route, and
its next ESEQ. -/
structure Flow where
  route : Option (List (Nat × Nat))
  eseq : Nat
  /-- the route it will move to once nothing is outstanding -/
  move : Option (Option (List (Nat × Nat)))
  deriving DecidableEq, Repr

/-- A remote request accepted in ESEQ order and not yet performed. -/
structure Inbound where
  port : Nat
  src : Nat
  vc : Nat
  tag : Nat
  eseq : Nat
  write : Bool
  ga : Nat
  sectors : Nat
  data : List Byte
  /-- a request performed before: only its response is due again -/
  again : Bool
  /-- flits it came in, whose slots it still holds; its store has been made, and is performed or held (R177) -/
  flits : Nat
  stored : Bool
  deriving DecidableEq, Repr

structure Links where
  ports : KV Port
  /-- by 16 × destination + VC -/
  flows : KV Flow
  /-- next ESEQ expected, by 16 × source + VC -/
  expect : KV Nat
  trans : List Trans
  nextTag : KV Nat
  inbox : List Inbound
  /-- MAP heard: member modules and their ports -/
  map : List MapMsg
  formed : Bool
  /-- requests that wait at a port with 4 096 transactions outstanding: port, requester, module (R288) -/
  limitWait : List (Nat × TransOwner × Nat)
  /-- URGENT flits that wait for room at an egress port, oldest first (R280) -/
  urgentOut : List (Nat × OutFlit)
  /-- trains of this module whose destination no route in service reaches now, oldest first -/
  unrouted : List (List OutFlit)
  /-- STOOK messages that wait in a port's credits: port, source, VC, the flits it came in, message (R310, R312) -/
  stookIn : List (Nat × Nat × Nat × Nat × StookMsg)
  /-- transactions of other modules whose request has passed here: source, destination, VC, tag, the ports it came in on and
  left by (R291) -/
  transit : List (Nat × Nat × Nat × Nat × Nat × Nat)
  /-- clocks of the ports of a group when it began to stop (R291) -/
  stopClocks : KV Nat
  /-- the port on which STOOK flits of a flow last came, by 16 × source + VC (R314) -/
  arrivals : KV Nat
  deriving DecidableEq, Repr

/-! ## CXL (chapter 11) -/

/-- An HDM decoder as committed: its interleave ways and granularity in bytes (Table 11-1). -/
structure HdmDecoder where
  ways : Nat
  granularity : Nat
  deriving DecidableEq, Repr

structure CxlPort where
  up : Bool
  width : Nat
  rate : Nat
  mem : Bool
  perst : Bool
  refclk : Bool
  l1 : Bool
  /-- Configuration requests are answered with Request Retry Status (Table 16-11, step 8) -/
  retry : Bool
  /-- its two HDM decoders, none where one is not committed -/
  decoders : List (Option HdmDecoder)
  deriving DecidableEq, Repr

/-- A host access that waits for its snoops, for a held store, or for the exit from Sleep. `peer`: unordered I/O. -/
structure CxlReq where
  port : Nat
  off : Nat
  write : Bool
  peer : Bool
  e : CodeResult
  data : List Byte
  /-- its store has been made, and is performed or held (R177) -/
  stored : Bool
  deriving DecidableEq, Repr

structure Cxl where
  port0 : CxlPort
  port1 : CxlPort
  /-- lines a host may hold, oldest first: line number and a bit per port -/
  directory : List (Nat × Nat)
  /-- snoops unanswered, oldest first: port, line, whether BISnpInv -/
  snoops : List (Nat × Nat × Bool)
  waiting : List CxlReq
  /-- modified lines that have come home and wait for admission, oldest first: port, line, bytes -/
  home : List (Nat × Nat × List Byte)
  deriving DecidableEq, Repr

/-! ## The dictionary (chapter 12) -/

/-- A response frame (Table 12-5). -/
structure Response where
  op : BitVec 8
  sid : BitVec 8
  tag : BitVec 16
  entry : Entry
  typ : Nat
  abort : Nat
  data : List Byte
  deriving DecidableEq, Repr

/-- A message of the MCTP endpoint: an SPDM request (R439) or a control message (R361). -/
inductive Message where
  | getVersion
  | getCapabilities (version : Byte)
  | negotiateAlgorithms (o : AlgOffer)
  | getDigests
  | getCertificate (slot offset length : Nat)
  | challenge (slot : Nat) (nonce : List Byte)
  | getMeasurements (block : Nat) (signed : Bool) (nonce : List Byte)
  | keyExchange (slot : Nat)
  | finish (sess : Nat) (macOk : Bool)
  | heartbeat (sess : Nat)
  | endSession (sess : Nat)
  | getCsr (slot : Nat)
  | setCertificate (slot : Nat) (chain last : List Byte)
  | setEndpointId (eid : Byte)
  | getEndpointId
  | getMctpVersionSupport (msgType : Byte)
  | getMessageTypeSupport
  deriving DecidableEq, Repr

/-- What waits for exit from Sleep or Deep sleep (R392): a dictionary request, or a message of the MCTP endpoint. -/
inductive Deferred where
  | request (o : Origin) (r : Request)
  | message (m : Message)
  deriving DecidableEq, Repr

structure Session where
  /-- 1 open on CXL port 0, 2 on port 1, 3 out of band -/
  kind : Nat
  last : Nat
  record : List (Request × Response)
  staged : Option (Entry × Nat × List Byte)
  deriving DecidableEq, Repr

/-- Function states (Table 12-9). -/
inductive FnSt where
  | absent | stopped | starting | running | stopping | faulted
  deriving DecidableEq, Repr

/-- A function's control object (Table 12-9). -/
structure FnCtl where
  st : FnSt
  enable : Bool
  stopRec : Bool
  swapPending : Bool
  lock : Nat
  reason : Nat
  /-- the state it was in when it faulted, and where the fault lies -/
  before : FnSt
  place : Nat
  /-- units that have switched to the new set -/
  switched : List Nat
  /-- auxiliary clock at its last change of state -/
  since : Nat
  deriving DecidableEq, Repr

structure Dict where
  sessions : KV Session
  /-- sessions closed by time-out whose number is not yet taken again -/
  timedOut : List Nat
  /-- settings by 256 × index + subindex; an entry not listed has its default -/
  active : KV Nat
  shadow : KV Nat
  previous : KV Nat
  /-- the port groups' set on which the ports of 0x11 still act: it was not RUNNING at the swap (R377) -/
  kept : Option (KV Nat)
  /-- the cold settings as their owners took them when they last passed STARTING (R376) -/
  cold : KV Nat
  stored : Option (KV Nat)
  /-- a store of these settings (some (some ..)) or an erase (some none) in progress -/
  storing : Option (Option (KV Nat))
  storeDone : Bool
  /-- PERS values: by 65536 × holder + 256 × index + subindex is too wide, so holder × 2^24 + key;
  holder 1 to 8 a session, 9 and 10 SID 0 through CXL port 0 and 1, 11 SID 0 out of band -/
  pers : KV Nat
  changeover : Bool
  snapshot : KV Nat
  /-- a copy into the snapshot objects is under way; the last one is complete (R64) -/
  snapshotting : Bool
  snapshotDone : Bool
  invalidating : Option Nat
  invalidDone : Bool
  deferred : List Deferred
  deriving DecidableEq, Repr

/-! ## Power (chapter 13) -/

inductive PowerSt where
  | run | idle | sleep | deepSleep | off
  deriving DecidableEq, Repr

structure Power where
  st : PowerSt
  /-- the state an entry goes to, and the step of Table 13-2 in progress (0x41, 0x51 for 4′, 5′) -/
  target : Option PowerSt
  step : Nat
  /-- an exit in progress -/
  exiting : Bool
  wakeLatched : Nat
  lastWake : Nat
  /-- auxiliary clock at the start of the entry, and of its step in progress -/
  entryAux : Nat
  stepAux : Nat
  idleSince : Nat
  point : KV Nat
  ceiling : KV Nat
  cool : KV Nat
  /-- largest sample of each sensor since the last control period, plus 2^31; 0 none -/
  peak : KV Nat
  /-- last sample of each sensor, plus 2^31; 0 none -/
  sensor : KV Nat
  /-- PWRALERT_N is driven by the board, by the module's regulators for overcurrent, and by them because the input has been
  below 40 V (R404, R455) -/
  alertBoard : Bool
  overcurrent : Bool
  underVolt : Bool
  /-- since when PWRALERT_N is asserted, and by whom: 0 board, 1 module -/
  alertSince : Nat
  alertSource : Nat
  holdSince : Option Nat
  trip : Bool
  tripSensor : Nat
  inputMv : Nat
  /-- the tc of a Field from which it may grant the next Drill start, and the next gating (R397) -/
  startFrom : KV Nat
  gateFrom : KV Nat
  /-- the Selty clock of the last control period (R395) -/
  periodAt : Nat
  deriving DecidableEq, Repr

/-! ## Reliability (chapter 14) -/

/-- A black-box record (Table 14-5) before its CRC; facts are what Table 14-6 lists for the event, in its order. -/
structure BoxRec where
  seq : Nat
  boot : Nat
  taux : Nat
  func : Nat
  sev : Nat
  event : Nat
  facts : List Nat
  /-- the CRC that a mirror holds with it is good (R427) -/
  good : Bool
  deriving DecidableEq, Repr

structure Reli where
  /-- sectors that are uncorrectable, and those listed in `OD 7820` -/
  bad : List Nat
  listed : List Nat
  /-- Tillers retired and slots enabled as spares, by 256 × Field + slot -/
  retired : List Nat
  spares : List Nat
  bridges : List (Nat × Nat)
  inCharge : Nat
  missed : Nat
  /-- controllers in service, A and B -/
  upA : Bool
  upB : Bool
  failedStarts : Nat
  activation : Nat
  /-- the two mirrors, in Headlands A and B (R425) -/
  boxA : List BoxRec
  boxB : List BoxRec
  queue : List BoxRec
  boot : Nat
  nextSeq : Nat
  deriving DecidableEq, Repr

/-! ## Security (chapter 15) -/

/-- An RSA-4096 key that the module holds: its modulus and its private exponent. -/
structure RsaKey where
  modulus : Nat
  exponent : Nat
  deriving DecidableEq, Repr

/-- An image slot of a boot flash. -/
structure Slot where
  image : List Byte
  checked : Bool
  deriving DecidableEq, Repr

/-- What a Selty controller runs: version, SVN and KEYID of its image, and the digests of its sections. -/
structure Running where
  version : Word32
  svn : Nat
  keyid : Nat
  loader : List Byte
  firmware : List Byte
  micro : List Byte
  deriving DecidableEq, Repr

/-- A connection of one transport instance: the requests that have come so far. -/
structure SpdmConn where
  version : Nat
  caps : Bool
  algs : Bool
  /-- key exchange was agreed too: secp384r1 and AES-256-GCM -/
  kex : Bool
  deriving DecidableEq, Repr

structure Sec where
  lifecycle : Nat
  bootMode : Nat
  openCount : Nat
  floor : Nat
  revoked : Word32
  /-- the two image slots of Headland A's boot flash, and those of Headland B's (R434) -/
  slot0 : Slot
  slot1 : Slot
  slotB0 : Slot
  slotB1 : Slot
  /-- the slot each controller's selector names as active, and the image it runs: Headlands A and B -/
  bootA : Nat
  bootB : Nat
  runA : Running
  runB : Running
  /-- `OD 8020:02` -/
  upload : Nat
  challenge : Option (List Byte)
  debugPort : Nat
  refusedTokens : Nat
  erasePending : Bool
  /-- the next step of Table 15-7 while an unlock is under way, with its SCOPE and KEYID -/
  unlock : Option (Nat × Nat × Nat)
  /-- operator chains of slots 1 to 3, and the keys generated for them; the debug alias key stands under 0 -/
  chains : KV (List Byte)
  keys : KV RsaKey
  aliasKey : Bool
  conns : List (SpdmTransport × SpdmConn)
  sessions : List (Nat × SpdmTransport × Bool)
  nextSess : Nat
  /-- microcode digest now loaded in 0x60, 0x20, 0x30, 0x50 -/
  microcode : KV (List Byte)
  deriving DecidableEq, Repr

/-! ## Board (chapter 16) -/

structure Board where
  /-- the step of Table 16-11 reached: 0 no auxiliary power, 3 waiting for 48 V, 11 started -/
  step : Nat
  aux : Bool
  offEntered : Bool
  thermtrip : Bool
  modrdy : Option Bool
  /-- straps I3CSA1 and I3CSA0 -/
  straps : Bool × Bool
  /-- the dynamic address and the endpoint ID; none and 0 until they are assigned -/
  i3c : Option (BitVec 7)
  eid : Byte
  /-- TCK, TMS, TDI, TRST_N as last seen, and the IEEE 1149.1 controller state, 0 Test-Logic-Reset -/
  scan : Bool × Bool × Bool × Bool
  tap : Nat
  deriving DecidableEq, Repr

/-! ## What the module answers -/

/-- What leaves the module in answer to a command, newest first in `State.out`. -/
inductive Output where
  | dict (o : Origin) (r : Response)
  /-- the message of an out-of-band response, in its transmission units (R361) -/
  | packets (units : List (List Byte))
  /-- a mailbox command that completes with Invalid Input (R360) -/
  | mailboxInvalid (port : Fin 2)
  | mctp (bytes : List Byte)
  | spdm (tr : SpdmTransport) (bytes : List Byte)
  | spdmError (tr : SpdmTransport) (code : Nat)
  /-- a flit of a TYPE on a port, and what it carries (R267) -/
  | flit (port typ : Nat) (f : Flit) (n : Note)
  | cxlData (port : Fin 2) (off : Nat) (bytes : List Byte)
  | cxlDone (port : Fin 2) (off : Nat)
  | cxlNotActive (port : Fin 2)
  | cxlWithheld (port : Fin 2)
  | cxlUnsupported (port : Fin 2)
  | snoop (port : Nat) (line : Nat) (inv : Bool)
  /-- a read or a write of Barn by a port: of fabric-attached memory by unordered I/O, else by CXL.cache RdCurr or WrCur
  (R351) -/
  | barnRead (port : Nat) (fabric : Bool) (barn len : Nat)
  | barnWrite (port : Nat) (fabric : Bool) (barn : Nat) (bytes : List Byte)
  | urUnanswered
  deriving DecidableEq, Repr

/-! ## The whole module -/

structure State where
  variant : Variant
  clocks : Clocks
  /-- how many free values have been drawn (log entry 2) -/
  free : Nat
  out : List Output
  granary : List Host.Cell
  /-- enabled slots of Fields 0 to 7, by 256 × Field + slot: those listed as disabled spares or retired are not -/
  tillers : KV Tiller
  furrows : KV Furrow
  furrowQ : List FurrowReq
  furrowReplies : List (Thr × Word64)
  sems : KV Sem
  signals : List Signal
  /-- signals of streams and engines that wait for room under R142, oldest first -/
  urgentWait : List Signal
  nextSignal : Nat
  granStacks : KV Stack
  valid : KV Bool
  dirty : KV Bool
  bales : List Bale
  baleMax : Nat
  /-- streams whose demand fault waits for room in the directory, oldest first (R220, R229) -/
  faultWait : List CtxId
  sowing : Sowing
  latches : KV (List CtxId)
  held : List HeldStore
  heldMax : Nat
  /-- sectors in which a held store has failed, with its source: a port that is still to answer for it (R410) -/
  heldFailed : List (Nat × Nat)
  slotWaits : List SlotWait
  longest : Option (Nat × Nat × Nat × Nat × Nat × Nat)
  /-- stream faults met: Tiller, context, job, fault, outcome of `OD 4710:08`, oldest first -/
  streamFaults : List (Nat × Nat × Nat × StreamFault × Nat)
  awn : Awn
  rot : Rotation
  stook : Stook
  jobs : KV Job
  admitResult : Nat
  admitSlot : Nat
  /-- an admission held: in Sleep, during an entry, a debug unlock, or for snoops (R390, R442) -/
  admitHeld : Option Nat
  links : Links
  cxl : Cxl
  dict : Dict
  fns : KV FnCtl
  /-- module counters, by 256 × index + subindex -/
  counts : KV Nat
  power : Power
  reli : Reli
  sec : Sec
  board : Board
  /-- commands waiting, first in first out -/
  pending : List Instr
  deriving DecidableEq, Repr

/-! ## Reset: start-up has reached step 11 of Table 16-11 and nothing has been programmed (R354) -/

def ThreadSt.isReady : ThreadSt → Bool
  | .ready => true
  | _ => false

def Thread.reset : Thread :=
  { st := .idle, pc := 0, regs := [], startTc := 0, issueWait := none, drillWait := false, lineWait := false,
    cause := (0, 0, 0) }

def StashBuf.reset : StashBuf :=
  { st := .empty, wt := 0, head := [], fmt := 0, g0 := 0, ng := 0, col0 := 0, ncols := 0, cells := [], want := [],
    waits := [], ahead := none, codesTo := 0 }

/-- A Tiller that has done nothing: its Drill is gated, as at the end of start-up (R396). -/
def Tiller.reset : Tiller :=
  { threads := [], program := [], hopper := [], sheaves := [], flights := [], nextId := 0,
    drill := none, drillQueue := [], bufA := StashBuf.reset, bufB := StashBuf.reset, feeders := [],
    lastMma := none, turn := 7, blade := none,
    staging := none, ctxs := [], counts := [], stop := none, gate := .gated,
    drillIdle := 0, bypass := 0, job := 0 }

def Ctx.reset : Ctx :=
  { st := .idle, desc := [], base := 0, thread := 0, job := 0, uf := 0, de := 0, ufQueued := false,
    deQueued := false, granted := 0, grants := 0, nextChunk := 0, nextElem := 0, done := 0, chunks := [],
    latched := false, released := false, fault := none, remoteWrites := none, cursor := (0, 0, 0), cache := [],
    asked := [], pinned := none, table := [], sent := 0 }

def Chunk.reset : Chunk :=
  { first := 0, stop := 0, next := 0, pads := 0, writes := [], cursor := (0, 0, 0), after := none, dropped := false,
    readDone := false, inElem := false, rows := [], head := [] }

def Furrow.reset : Furrow := { epoch := 0, next := 0, limit := 0, job := 0 }

def Sem.reset : Sem := { count := 0, waiters := [], producers := [] }

/-- A stack with its spare rows and banks (Table 14-7). -/
def Stack.reset : Stack :=
  { admitted := [], retry := [], nextId := 0, openRow := [], runs := [], refreshed := [], returned := [], scrubPos := 0,
    corrBytes := 0, corrSectors := 0, corrected := [], spareRows := 32768, spareBanks := 64, rowsUsed := [], bankCopy := [],
    bankSpared := [], rowWait := [], rowRepaired := [], rowsFailedInPass := [] }

def Sowing.reset : Sowing :=
  { holder := 0, base := 0, entries := 0, next := 0, lp := 0, ahead := 0, credit := 0, ends := 0,
    lastRefused := 0, prevLayer := 0, flights := [], stopped := false }

def Awn.reset : Awn :=
  { holder := 0, base := 0, entries := 0, next := 0, posts := 0, credits := 0, status := 0, run := none,
    completed := 0, frame := 0, written := 0, reason := 0, waitSince := none }

def Rotation.reset : Rotation :=
  { holder := 0, g := 0, pos := 0, mode := 0, slots := 0, slotb := 0, base := 0, vc := 0, acre := 0,
    members := [], lead := 0, lsem := 0, round := 0, blockSigs := 0, roundSigs := 0, complete := [],
    granted := [], credits := [], sent := [], acked := [], arrived := [], due := [] }

def Saved.reset : Saved := { lams := [], lp := 0, credit := 0, next := 0, round := 0 }

def Stook.reset : Stook :=
  { groups := [], normSent := none, s := 0, scale := 0, flag := false, commitState := 0, step := none,
    job := 0, vote := none, bad := false, badSinceVote := false, steps := 0, saved := Saved.reset,
    tree := [], admits := [], quiet := false, early := false, tasks := [] }

def Manifest.reset : Manifest :=
  { ga := 0, job := 0, span := 0, fact := 0, plim := 0, mvc := 0, aftt := none, afts := 0, tset := [],
    entries := [], ahop := 0, args := 0, alen := 0, prog := 0, plen := 0, ttb := 0, ttn := 0,
    counters := [], mlst := [], vcs := [], regions := [], barnPorts := 0, awn := false, crec := 0,
    stage := (0, 0) }

/-- A free job slot. -/
def Job.reset : Job :=
  { st := 0, reason := 0, man := Manifest.reset, seed := 0, classes := [], abortPolicy := false,
    forced := false, xlate := [], startAux := none, progress := 0, endAux := 0, record := false, freeing := false }

/-- A port that has not trained: DOWN, with no peer (Table 09-10). -/
def Port.reset : Port :=
  { st := 1, peer := 0x7FFF, peerPort := 0xFF, sub := 0xFF, reason := 0, rtt := 0, step := 0, txSeq := 0,
    rxSeq := 0, acked := 0, nakSent := false, replay := [], replaysInWindow := 0, noProgress := 0,
    lastAck := 0, windowStart := 0, since := none, stepSince := 0, credits := [], returns := [], ackDue := false,
    egress := [], turn := (0, 0), parts := [], coming := [], leaving := [] }

def Links.reset : Links :=
  { ports := [], flows := [], expect := [], trans := [], nextTag := [], inbox := [], map := [], formed := false,
    limitWait := [], urgentOut := [], unrouted := [], stookIn := [], transit := [], stopClocks := [], arrivals := [] }

/-- A CXL port out of PERST with its reference clock, whose link has not come up yet. -/
def CxlPort.reset : CxlPort :=
  { up := false, width := 0, rate := 0, mem := false, perst := false, refclk := true, l1 := false, retry := false,
    decoders := [none, none] }

def Cxl.reset : Cxl := { port0 := CxlPort.reset, port1 := CxlPort.reset, directory := [], snoops := [], waiting := [], home := [] }

def Session.reset : Session := { kind := 0, last := 0, record := [], staged := none }

/-- A function that the variant has: RUNNING (Table 12-9). -/
def FnCtl.reset : FnCtl :=
  { st := .running, enable := false, stopRec := false, swapPending := false, lock := 0, reason := 0,
    before := .running, place := 0, switched := [], since := 0 }

def Dict.reset : Dict :=
  { sessions := [], timedOut := [], active := [], shadow := [], previous := [], kept := none, cold := [], stored := none,
    storing := none, storeDone := false, pers := [], changeover := false, snapshot := [],
    snapshotting := false, snapshotDone := false, invalidating := none, invalidDone := true, deferred := [] }

/-- Idle, every Field at OP0 with no ceiling, no alert and no trip (Table 13-9). -/
def Power.reset : Power :=
  { st := .idle, target := none, step := 0, exiting := false, wakeLatched := 0, lastWake := 0,
    entryAux := 0, stepAux := 0, idleSince := 0, point := [], ceiling := [], cool := [], peak := [], sensor := [],
    alertBoard := false, overcurrent := false, underVolt := false, alertSince := 0, alertSource := 0, holdSince := none, trip := false, tripSensor := 0xFF,
    inputMv := 48000, startFrom := [], gateFrom := [], periodAt := 0 }

def Reli.reset : Reli :=
  { bad := [], listed := [], retired := [], spares := [], bridges := [], inCharge := 0, missed := 0,
    upA := true, upB := true, failedStarts := 0, activation := 0, boxA := [], boxB := [], queue := [], boot := 0,
    nextSeq := 0 }

def Slot.reset : Slot := { image := [], checked := false }

/-- What a controller runs once it has started from an image (Table 15-2). -/
def Running.of (b : List Byte) : Running :=
  { version := BitVec.ofNat 32 (leNat ((b.drop 4).take 4)), svn := leNat ((b.drop 8).take 1),
    keyid := leNat ((b.drop 10).take 1) % 16, loader := (b.drop 32).take 64, firmware := (b.drop 96).take 64,
    micro := (b.drop 160).take 64 }

/-- A module as shipped: its image in slot 0 of both Headlands, run by both controllers and loaded in the four units. -/
def Sec.reset : Sec :=
  let r := Running.of Config.shippedImage
  { lifecycle := 0, bootMode := 0, openCount := 0, floor := 0, revoked := 0,
    slot0 := { image := Config.shippedImage, checked := true }, slot1 := Slot.reset,
    slotB0 := { image := Config.shippedImage, checked := true }, slotB1 := Slot.reset, bootA := 0, bootB := 0,
    runA := r, runB := r, upload := 0, challenge := none, debugPort := 0, refusedTokens := 0, erasePending := false, unlock := none,
    chains := [], keys := [], aliasKey := false, conns := [], sessions := [], nextSess := 1,
    microcode := [(0x20, r.micro), (0x30, r.micro), (0x50, r.micro), (0x60, r.micro)] }

/-- Start-up done: 3V3AUX present, MODRDY high, no I3C address yet (R451). -/
def Board.reset : Board :=
  { step := 11, aux := true, offEntered := false, thermtrip := false, modrdy := some true, straps := (false, false), i3c := none,
    eid := 0, scan := (false, true, true, false), tap := 0 }

def Clocks.reset : Clocks :=
  { aux := 0, selty := [], hedgerow := 0, granary := [], tc := [], port := [], transmit := [], phy := [], ticks := 0 }

/-- The module right after reset: a GZ940 that has finished start-up and received no programming. -/
def State.reset : State :=
  { variant := .gz940, clocks := Clocks.reset, free := 0, out := [], granary := [], tillers := [],
    furrows := [], furrowQ := [], furrowReplies := [], sems := [], signals := [], urgentWait := [], nextSignal := 0,
    granStacks := [], valid := [], dirty := [], bales := [], baleMax := 0, faultWait := [], sowing := Sowing.reset,
    latches := [], held := [], heldMax := 0, heldFailed := [], slotWaits := [], longest := none, streamFaults := [], awn := Awn.reset,
    rot := Rotation.reset, stook := Stook.reset, jobs := [], admitResult := 0, admitSlot := 0xFF,
    admitHeld := none, links := Links.reset, cxl := Cxl.reset, dict := Dict.reset, fns := [], counts := [],
    power := Power.reset, reli := Reli.reset, sec := Sec.reset, board := Board.reset, pending := [] }

end Sys2Proof.Machine
end

