-- ==== Sys2Proof/Machine/Ops.lean ====
section
/-! DEFINITION. The named operations over the state that the commands share: functions and settings,
Tillers, threads and registers, counters, semaphores and signals. -/
namespace Sys2Proof.Machine

/-- What a command answers: a next state. -/
abbrev Answer := Host.Outcome State Fault Refusal

/-! ## Names -/

/-- A Tiller ID: Field in [15:8], slot in [7:0] (R108). -/
def tilKey (t : Tid) : Nat := 256 * t.field.val + t.slot.val

/-- The Tiller that an ID names, if the module has such a slot. -/
def tilOf (id : Nat) : Option Tid :=
  if h : id / 256 < 8 ∧ id % 256 < 88 then some { field := ⟨id / 256, h.1⟩, slot := ⟨id % 256, h.2⟩ } else none

/-- The slots of all eight Fields, Field by Field. -/
def allTil : List Nat := (upto 8).flatMap (fun f => (upto 88).map (fun s => 256 * f + s))

/-- The name of a Tiller's semaphore (R137). -/
def semName (t : Tid) (i : Nat) : Nat := 65536 * t.field.val + 256 * t.slot.val + i

def jobOfTil (s : State) (id : Nat) : Nat := (kvGet Tiller.reset s.tillers id).job

/-! ## Functions (Table 00-3, Table 12-9) -/

def fnIds : List Nat := [1, 2, 3, 4, 5, 6, 7, 8, 0x10, 0x11, 0x20, 0x30, 0x40, 0x41, 0x50, 0x60]

/-- Whether a variant has a function (R1, R2). -/
def fnPresent (v : Variant) (fn : Nat) : Bool :=
  fnIds.elem fn && !(fn == 0x30 && v != .gz940) && !(fn == 0x11 && v == .gz932)

/-- A function's control object at reset: RUNNING, or ABSENT at all times. -/
def fnDefault (v : Variant) (fn : Nat) : FnCtl :=
  if fnPresent v fn || fn == 0 then FnCtl.reset else { FnCtl.reset with st := .absent }

def fnGet (s : State) (fn : Nat) : FnCtl := kvGet (fnDefault s.variant fn) s.fns fn

def fnSet (s : State) (fn : Nat) (c : FnCtl) : State :=
  { s with fns := kvSet (fnDefault s.variant fn) s.fns fn c }

/-- The module's clocks run: start-up is done, and the module is in Run or Idle and has not tripped (Table 13-1,
R402). -/
def clocksOn (s : State) : Bool :=
  decide (s.board.step = 11 ∧ (s.power.st = .run ∨ s.power.st = .idle)) && !s.power.trip

/-- A function is RUNNING and its clocks run. -/
def running (s : State) (fn : Nat) : Bool := decide ((fnGet s fn).st = .running) && clocksOn s

/-- Whether a Field's function is RUNNING. -/
def fieldOn (s : State) (f : Nat) : Bool := running s (f + 1)

/-! ## The fabric in the power states (Tables 13-1 and 13-2) -/

/-- Whether the Hedgerow and Granary clocks run. -/
def fabricOn (s : State) : Bool := decide (7 ≤ s.board.step ∧ (s.power.st = .run ∨ s.power.st = .idle)) && !s.power.trip

/-- The Tiller clocks run in Run. -/
def tcOn (s : State) : Bool := decide (s.board.step = 11 ∧ s.power.st = .run) && !s.power.trip

/-- Step 4 of an entry to Sleep or Deep sleep has been reached: patrol scrub is paused and Granary enters self-refresh. -/
def selfRefresh (s : State) : Bool := s.power.target.isSome && decide (4 ≤ s.power.step ∧ s.power.step ≤ 7)

/-- Granary serves requests. -/
def granaryOn (s : State) : Bool := fabricOn s && !selfRefresh s

/-- The ports have begun to withdraw for an entry, are in standby, or wait for the exit: no new transaction starts and no port
trains (Table 13-2, step 3; R390). -/
def portsRest (s : State) : Bool :=
  (s.power.target.isSome && decide (3 ≤ s.power.step)) || s.power.exiting
    || decide (s.power.st = .sleep ∨ s.power.st = .deepSleep ∨ s.power.st = .off)

/-! ## Settings: entries by 256 × index + subindex, an unlisted one at its default -/

def od (idx sub : Nat) : Nat := 256 * idx + sub

/-- Table 02-7: threshold, fallback, escalation enabled, default rounding. -/
def classDefault : Nat → List Nat
  | 0 => [20000, 6, 1, 0] | 1 => [30000, 6, 1, 0] | 2 => [50000, 1, 1, 1] | 3 => [50000, 1, 1, 1]
  | 4 => [50000, 1, 1, 1] | 5 => [10000, 1, 1, 0] | 6 => [1000, 1, 1, 0] | 7 => [0, 1, 1, 0]
  | 8 => [30000, 6, 1, 0] | 9 => [20000, 6, 1, 0] | 10 => [20000, 6, 1, 0] | 11 => [20000, 6, 1, 0]
  | _ => [1000000, 1, 0, 0]

/-- The default of a setting (the Default columns of the object tables). -/
def settingDefault (idx sub : Nat) : Nat :=
  match idx with
  | 0x3000 => if sub = 1 then 1 else 0
  | 0x5000 => if sub = 1 then 0x7FFF else if sub = 2 then 1 else if sub = 3 then 32 else 0
  | 0x5001 => 1
  | 0x5003 => if sub = 1 then 1048576 else 4096
  | 0x5010 => if sub = 1 then 1 else 0
  | 0x1201 => 30000
  | 0x7000 => if sub = 4 then 0x3F else if sub = 6 then 10 else 0
  | 0x7030 => if sub = 1 then 95000 else if sub = 2 then 100000 else 115000
  | 0x7031 => if sub = 1 then 80000 else if sub = 2 then 85000 else 95000
  | 0x7032 => if sub = 1 then 95000 else if sub = 2 then 100000 else 115000
  | 0x7040 => if sub = 2 then 10 else 0
  | 0x7800 => 12
  | 0x7813 => 4
  | _ => if 0x3010 ≤ idx ∧ idx ≤ 0x301F then natAt (classDefault (idx - 0x3010)) (sub - 1) else 0

/-- A value of one set of settings. -/
def setIn (m : KV Nat) (idx sub : Nat) : Nat := kvGet (settingDefault idx sub) m (od idx sub)

/-- Whether an index holds cold settings, RWC (Tables 09-10 and 11-7). -/
def isCold (idx : Nat) : Bool := decide (idx = 0x5000 ∨ (0x6030 ≤ idx ∧ idx ≤ 0x6032))

/-- The value of a setting that is in effect: a cold one is what its owner took when it last passed STARTING (R376). -/
def setting (s : State) (idx sub : Nat) : Nat := setIn (if isCold idx then s.dict.cold else s.dict.active) idx sub

/-- Whether a function is an owner of a cold index (R376). -/
def coldOwner (fn idx : Nat) : Bool :=
  if fn = 0x10 ∨ fn = 0x11 then decide (idx = 0x5000) else decide (fn = 0x60) && isCold idx && decide (idx ≠ 0x5000)

/-- A function passes STARTING: its cold settings take effect (R376). -/
def applyCold (s : State) (fn : Nat) : State :=
  let d := s.dict
  let mine := fun (p : Nat × Nat) => coldOwner fn (p.1 / 256)
  { s with dict := { d with
    cold := (d.active.filter (fun p => isCold (p.1 / 256) && mine p)).foldl (fun m p => kvPut m p.1 p.2)
      (d.cold.filter (fun p => !mine p)) } }

/-- The class configuration of a set: threshold, fallback, enabled, rounding, scale rule of class c. -/
def classCfg (m : KV Nat) (c k : Nat) : Nat := setIn m (0x3010 + c) k

/-! ## Clocks and counters -/

/-- The Tiller clock of a Field, the Granary clock of a stack, and the Selty clock of a Headland. -/
def tcNow (s : State) (f : Nat) : Nat := kvGet 0 s.clocks.tc f
def granaryNow (s : State) (k : Nat) : Nat := kvGet 0 s.clocks.granary k
def seltyNow (s : State) (h : Nat) : Nat := kvGet 0 s.clocks.selty h

/-- Adds n to a module counter. -/
def bump (s : State) (idx sub n : Nat) : State :=
  { s with counts := kvMod 0 s.counts (od idx sub) (· + n) }

def count (s : State) (idx sub : Nat) : Nat := kvGet 0 s.counts (od idx sub)

/-- Draws a free value (log entry 2). -/
def drawFree (s : State) : Nat × State := (Config.free s.free, { s with free := s.free + 1 })

/-- Draws free bytes of free length (log entry 2). -/
def drawBytes (s : State) : List Byte × State := (Config.freeBytes s.free, { s with free := s.free + 1 })

/-- Records an answer that leaves the module. -/
def emit (s : State) (o : Output) : State := { s with out := o :: s.out }

/-- Queues a black-box record of an event; a full queue loses it (R425). -/
def boxAdd (s : State) (func : Option Nat) (event : Nat) (facts : List Nat) : State :=
  if s.reli.queue.length < 256 then
    let r : BoxRec :=
      { seq := s.reli.nextSeq, boot := s.reli.boot, taux := s.clocks.aux,
        func := func.getD (Config.boxFunction event), sev := Config.boxSeverity event, event := event,
        facts := facts, good := true }
    { s with reli := { s.reli with queue := s.reli.queue ++ [r], nextSeq := s.reli.nextSeq + 1 } }
  else bump s 0x9000 4 1

/-! ## Operating points (R394, R395, R401, R404, R405) -/

/-- Whether PWRALERT_N is asserted, by the board or by the module (R404). -/
def alerted (s : State) : Bool := s.power.alertBoard || s.power.overcurrent || s.power.underVolt

/-- Fields are held at OPL by the alert or its release hold. -/
def alertHolds (s : State) : Bool := alerted s || s.power.holdSince.isSome

def ceilingOf (s : State) (f : Nat) : Nat := kvGet 0 s.power.ceiling f
def pointOf (s : State) (f : Nat) : Nat := kvGet 0 s.power.point f
def requested (s : State) : Nat := setting s 0x7010 1

/-- The slowest of the three (R394); a larger code is a slower point. -/
def targetPoint (s : State) (f : Nat) : Nat :=
  max (max (requested s) (ceilingOf s f)) (if alertHolds s then 5 else 0)

def setPoint (s : State) (f p : Nat) : State :=
  if pointOf s f = p then s
  else bump { s with power := { s.power with point := kvSet 0 s.power.point f p } } 0x7060 3 1

/-- PWRALERT_N acts on the Fields in Run and during exit, and in no other state (R392). -/
def alertActs (s : State) : Bool := decide (s.power.st = .run) || s.power.exiting

/-- The point above which a Field does not stay: in a state in which PWRALERT_N has nothing to act on, the other two alone. -/
def limitPoint (s : State) (f : Nat) : Nat := if alertActs s then targetPoint s f else max (requested s) (ceilingOf s f)

/-- Every Field above its limit falls to it at once (R395). -/
def lowerFields (s : State) : State :=
  foldUpto 8 s (fun s f => if pointOf s f < limitPoint s f then setPoint s f (limitPoint s f) else s)

/-- Every Field below its target rises by one point. -/
def raiseFields (s : State) : State :=
  foldUpto 8 s (fun s f => if targetPoint s f < pointOf s f then setPoint s f (pointOf s f - 1) else s)

/-! ## Tillers and threads -/

/-- The state of a slot by its ID. -/
def tilAt (s : State) (id : Nat) : Tiller := kvGet Tiller.reset s.tillers id

def setTilAt (s : State) (id : Nat) (t : Tiller) : State :=
  { s with tillers := kvSet Tiller.reset s.tillers id t }

def til (s : State) (t : Tid) : Tiller := tilAt s (tilKey t)

def setTil (s : State) (t : Tid) (x : Tiller) : State := setTilAt s (tilKey t) x

def modTil (s : State) (t : Tid) (f : Tiller → Tiller) : State := setTil s t (f (til s t))

/-- Enabled slots: 0 to 79 at shipment, a retired one out, a spare in (R18, log entry 6). -/
def enabled (s : State) (id : Nat) : Bool :=
  (decide (id % 256 < 80) && decide (id / 256 < 8) && !s.reli.retired.elem id) || s.reli.spares.elem id

/-- Present Drill width W (R102). -/
def widthOf16 (m : BitVec 16) : Nat :=
  256 - 16 * ((upto 16).filter (fun i => bitAt m.toNat i)).length

def drillWidth (t : Tiller) : Nat := widthOf16 t.bypass

/-- Adds n to a count kept per Tiller and summed for the module (R106, R147). -/
def bumpTil (s : State) (id idx sub n : Nat) : State :=
  let t := tilAt s id
  bump (setTilAt s id { t with counts := kvMod 0 t.counts (od idx sub) (· + n) }) idx sub n

def thr (t : Tiller) (n : Nat) : Thread := kvGet Thread.reset t.threads n

def setThr (t : Tiller) (n : Nat) (x : Thread) : Tiller :=
  { t with threads := kvSet Thread.reset t.threads n x }

def thread (s : State) (t : Thr) : Thread := thr (til s t.til) t.n.val

def setThread (s : State) (t : Thr) (x : Thread) : State :=
  modTil s t.til (fun y => setThr y t.n.val x)

/-- Register r; x0 reads as zero (R107). -/
def reg (x : Thread) (r : Reg) : Word64 := if r = 0 then 0 else kvGet 0 x.regs r.toNat

/-- Writes register r; a write to x0 has no effect (R107). -/
def setReg (x : Thread) (r : Reg) (v : Word64) : Thread :=
  if r = 0 then x else { x with regs := kvSet 0 x.regs r.toNat v }

def regN (x : Thread) (r : Reg) : Nat := (reg x r).toNat

/-! ## Jobs -/

def jobAt (s : State) (slot : Nat) : Job := kvGet Job.reset s.jobs slot

def setJob (s : State) (slot : Nat) (j : Job) : State := { s with jobs := kvSet Job.reset s.jobs slot j }

/-- The slot that holds a job number. -/
def slotOf (s : State) (job : Nat) : Option Nat :=
  (upto 4).find? (fun i => decide ((jobAt s i).st ≠ 0 ∧ (jobAt s i).man.job = job ∧ job ≠ 0))

/-- A job in state 1, 2 or 3. -/
def jobLive (j : Job) : Bool := decide (j.st = 1 ∨ j.st = 2 ∨ j.st = 3)

def jobOf (s : State) (job : Nat) : Job :=
  match slotOf s job with
  | some i => jobAt s i
  | none => Job.reset

def modJob (s : State) (job : Nat) (f : Job → Job) : State :=
  match slotOf s job with
  | some i => setJob s i (f (jobAt s i))
  | none => s

/-- Progress of a job (R347). -/
def progress (s : State) (job : Nat) : State := modJob s job (fun j => { j with progress := s.clocks.aux })

/-- IDs of the Tillers a job holds. -/
def jobTils (s : State) (job : Nat) : List Nat :=
  (s.tillers.filter (fun p => decide (p.2.job = job ∧ job ≠ 0))).map (·.1)

/-! ## The end of a wait (R231, R233) -/

/-- A stall cause with its two details (Table 07-15). -/
abbrev Cause := Nat × Nat × Nat

/-- What a FENCE is charged to while it waits for tile instructions: Table 07-15 has no cause for it (log entry 2). -/
def fenceCause : Cause :=
  let c := Config.fenceCause
  (1 + c.1 % 16, c.2.1 % 2 ^ 32, c.2.2 % 2 ^ 32)

/-- A thread's wait since a tc ends: its length is recorded with the cause last charged, where it is the longest since the
record was cleared. -/
def endWait (s : State) (id n since : Nat) : State :=
  let x := thr (tilAt s id) n
  let len := tcNow s (id / 256) - since
  let c := x.cause
  let longer := match s.longest with
    | some (_, _, _, _, _, k) => decide (k < len)
    | none => decide (0 < len)
  let s := setTilAt s id (setThr (tilAt s id) n { x with cause := (0, 0, 0) })
  if longer then { s with longest := some (c.1, c.2.1, c.2.2, id, n, len) } else s

/-! ## Waiting at issue and in WAIT (R105, R142, R147, R322) -/

/-- Whether thread n is the Aftermath thread of its Tiller's job. -/
def isAftermath (s : State) (id n : Nat) : Bool := decide ((jobOf s (tilAt s id).job).man.aftt = some n)

/-- Charges the time a thread has waited at issue and clears the stamp: to `OD A230:02` where the Aftermath
thread waited for Drill room (R322), to `OD A210:04` otherwise. -/
def settle (s : State) (id n : Nat) : State :=
  let x := thr (tilAt s id) n
  match x.issueWait with
  | none => s
  | some since =>
    let s' := setTilAt s id (setThr (tilAt s id) n { x with issueWait := none, drillWait := false })
    let k := tcNow s (id / 256) - since
    if x.drillWait && isAftermath s id n then bumpTil s' id 0xA230 2 k else bumpTil s' id 0xA210 4 k

/-- A thread whose next instruction has no room waits at issue. A wait that turns from one for the Drill into another, or
the other way round, is charged so far, and the new one begins. -/
def waitIssue (s : State) (t : Thr) (drill : Bool) : State :=
  let stamp := fun (s : State) =>
    setThread s t { thread s t with issueWait := some (tcNow s t.til.field.val), drillWait := drill }
  match (thread s t).issueWait with
  | some _ => if (thread s t).drillWait = drill then s else stamp (settle s (tilKey t.til) t.n.val)
  | none => stamp s

/-- A thread's wait at issue for the Granary requests of a stream ends: one that was charged to a cause is recorded (R233). -/
def issueEnds (s : State) (id n : Nat) : State :=
  let x := thr (tilAt s id) n
  match x.issueWait with
  | some since => if x.cause = (0, 0, 0) then s else endWait s id n since
  | none => s

/-- Stops a thread that is ready or waiting, charging its WAIT time (A210:05). -/
def stopThread (s : State) (id n : Nat) : State :=
  let s := settle (issueEnds s id n) id n
  let t := tilAt s id
  let x := thr t n
  let stop := fun (s : State) => setTilAt s id (setThr (tilAt s id) n { thr (tilAt s id) n with st := .stopped })
  match x.st with
  | .ready => stop s
  | .waitFurrow _ => stop s
  | .waitFence since => stop (endWait s id n since)
  | .waitSem _ _ since => stop (endWait (bumpTil s id 0xA210 5 (tcNow s (id / 256) - since)) id n since)
  | _ => s

/-! ## Semaphores and signals (R137 to R145) -/

def sem (s : State) (name : Nat) : Sem := kvGet Sem.reset s.sems name

def setSem (s : State) (name : Nat) (x : Sem) : State := { s with sems := kvSet Sem.reset s.sems name x }

/-- The Tiller of a semaphore name, when its die is a Field. -/
def semTil (name : Nat) : Option Nat :=
  if name / 65536 < 8 ∧ field name 8 8 < 88 then some (256 * (name / 65536) + field name 8 8) else none

/-- The Tiller that sends a signal: a thread's or a stream's. -/
def sourceTil : SigSource → Option Tid
  | .thread t _ _ => some t.til
  | .stream c => some c.til
  | _ => none

/-- Urgent messages of a Tiller in flight: the signals of its threads and streams and its remote Furrow requests (R142). -/
def urgentCount (s : State) (t : Tid) : Nat :=
  (s.signals.filter (fun g => decide (sourceTil g.src = some t))).length
    + (s.furrowQ.filter (fun r => decide (r.thr.map (·.til) = some t ∧ r.die ≠ t.field.val))).length

/-- Whether a sender has as many urgent messages in flight as R142 allows: 3 of a Tiller, 64 of a Headland. -/
def urgentFull (s : State) (src : SigSource) : Bool :=
  match sourceTil src with
  | some t => decide (3 ≤ urgentCount s t)
  | none => decide (64 ≤ (s.signals.filter (fun g => decide (sourceTil g.src = none))).length)

/-- A message to another die travels the urgent class: it is counted under its Tiller, or for the module alone where a
Headland sends it (R141, R147; log entry 23). -/
def countUrgent (s : State) (src : SigSource) (die : Nat) : State :=
  match sourceTil src with
  | some t => if die = t.field.val then s else bumpTil s (tilKey t) 0xA210 7 1
  | none => if die = 8 then s else bump s 0xA210 7 1

/-- A signal is in flight. -/
def launch (s : State) (g : Signal) : State :=
  { countUrgent s g.src (g.sem / 65536) with signals := s.signals ++ [g] }

/-- Sends a signal, which arrives later (R139); a stream's or an engine's waits while its Tiller or Headland has no room for
one more urgent message (R142, R243). -/
def sendSignal (s : State) (src : SigSource) (name cnt before job : Nat) : State :=
  let g : Signal := { id := s.nextSignal, src := src, sem := name, count := cnt, before := before, job := job }
  let s := { s with nextSignal := s.nextSignal + 1 }
  if urgentFull s src then { s with urgentWait := s.urgentWait ++ [g] } else launch s g

/-- Signals that waited for room are sent as it comes, the oldest first. -/
def releaseSignals (s : State) : State :=
  s.urgentWait.foldl (fun s g =>
    if urgentFull s g.src then s else launch { s with urgentWait := s.urgentWait.erase g } g) s

/-- Drops the waiters of a Tiller's threads. -/
def dropWaiters (s : State) (id : Nat) : State :=
  { s with sems := (s.sems.map (fun p => (p.1, { p.2 with waiters := p.2.waiters.filter (fun w => match w with
      | .thread t _ => decide (tilKey t.til ≠ id)
      | _ => true) }))).filter (fun p => decide (p.2 ≠ Sem.reset)) }

/-- Drops the waiters of one stream context. -/
def dropStreamWaiter (s : State) (c : CtxId) : State :=
  { s with sems := (s.sems.map (fun p => (p.1, { p.2 with waiters := p.2.waiters.filter (fun w => match w with
      | .stream d _ => decide (d ≠ c)
      | _ => true) }))).filter (fun p => decide (p.2 ≠ Sem.reset)) }

/-! ## Sources of Granary accesses (Table 07-6) -/

/-- Source numbers, for the order of stores and reads (R178): Tillers, CXL ports, Riljo ports, the engines of Headland A,
and the sources of requests that other dies send. -/
def srcTil (t : Tid) : Nat := 1 + tilKey t
def srcCxl (p : Nat) : Nat := 0x10000 + p
def srcRiljo (p : Nat) : Nat := 0x20000 + p
def srcEngine : Nat := 0x30000
def srcAwn : Nat := 0x30001
def srcRot : Nat := 0x30002
def srcStook : Nat := 0x30003
def srcJob : Nat := 0x30004

/-- The Stook units of both Headlands, each under its Headland's slots (R299). -/
def srcStookB : Nat := 0x50003
def stookSrc (port : Nat) : Nat := if port < 32 then srcStook else srcStookB

/-- The writes of the job engine for the job in a slot: its counters and its completion record. -/
def srcSlot (i : Nat) : Nat := 0x30010 + i

/-- A source has given up what it asked: nothing of it waits for admission any more. -/
def dropWaits (s : State) (src : Nat) : State := { s with slotWaits := s.slotWaits.filter (fun w => decide (w.source ≠ src)) }

end Sys2Proof.Machine
end

