-- ==== Sys2Proof/Machine/Links.lean ====
section
/-! DEFINITION. The Riljo base (R267, R268, R276 to R290): ports and credits, routes from the discovered map, flits
that leave, messages, flows and their transactions. -/
namespace Sys2Proof.Machine

/-! ## Modules and ports -/

def myId (s : State) : Nat := setting s 0x5000 1
def acreCount (s : State) : Nat := setting s 0x5000 2
/-- Members of an Acre: 32, or `OD 5000:03` when A is 1 (R281). -/
def memberCount (s : State) : Nat := if acreCount s = 1 then setting s 0x5000 3 else 32

/-- A port; ports 32 to 63 of a GZ932 are ABSENT at all times (R294). -/
def portAt (s : State) (p : Nat) : Port :=
  if s.variant = .gz932 ∧ 32 ≤ p then { Port.reset with st := 0 } else kvGet Port.reset s.links.ports p

def setPort (s : State) (p : Nat) (x : Port) : State :=
  if s.variant = .gz932 ∧ 32 ≤ p then s
  else { s with links := { s.links with ports := kvSet Port.reset s.links.ports p x } }

/-- The clock of a port (R265): the time-outs that a port applies are counted in it. -/
def portClock (s : State) (p : Nat) : Nat := kvGet 0 s.clocks.port p

/-- A setting of the port groups as port p acts on it: the shadow value once the port has switched for a pending swap, and for a
port of 0x11 the set it keeps until its next STARTING (R374, R377). -/
def portSetting (s : State) (p idx sub : Nat) : Nat :=
  let c := fnGet s 0x10
  let now := if 32 ≤ p then s.dict.kept.getD s.dict.active else s.dict.active
  setIn (if c.swapPending && c.switched.elem p then s.dict.shadow else now) idx sub

/-- A port that carries all traffic: ACTIVE or SUBSTITUTING (Table 09-5). -/
def carries (x : Port) : Bool := decide (x.st = 4 ∨ x.st = 7)

/-- The port group's function: 0x10 for ports 0 to 31, 0x11 for 32 to 63. -/
def portFn (p : Nat) : Nat := if p < 32 then 0x10 else 0x11

/-- The port that carries the traffic of port k: itself, or the spare in its place (R292). -/
def carrier (s : State) (k : Nat) : Option Nat :=
  if (portAt s k).st = 4 then some k
  else if (portAt s 31).st = 7 ∧ (portAt s 31).sub.toNat = k then some 31
  else none

/-! ## Routes (R282 to R286) -/

/-- One port of a module as the map shows it. -/
structure LinkEnt where
  mod : Nat
  port : Nat
  st : Nat
  peer : Nat
  deriving DecidableEq, Repr

/-- This module's ports, and the ports of every module whose MAP it holds. -/
def linkTable (s : State) : List LinkEnt :=
  (upto 64).map (fun p => { mod := myId s, port := p, st := (portAt s p).st, peer := (portAt s p).peer.toNat }) ++
  s.links.map.flatMap (fun m => m.ports.map (fun q =>
    { mod := m.module.toNat, port := q.1, st := q.2.1, peer := q.2.2.1 }))

/-- A link in service: its port is ACTIVE, or its module's spare serves the same peer. -/
def entUp (T : List LinkEnt) (e : LinkEnt) : Bool :=
  decide (e.st = 4) || T.any (fun x => decide (x.mod = e.mod ∧ x.port = 31 ∧ x.st = 7 ∧ x.peer = e.peer))

/-- Whether a hop's port is in service; one of another Acre that no MAP shows is taken to be. -/
def hopUp (own : Nat) (T : List LinkEnt) (h : Nat × Nat) : Bool :=
  match T.find? (fun e => decide (e.mod = h.1 ∧ e.port = h.2)) with
  | some e => entUp T e
  | none => decide (h.1 / 32 ≠ own / 32)

/-- The Acre port from a member to another (R282). -/
def acrePort (a b : Nat) : Nat := (b % 32 + 63 - a % 32) % 32

def insertEnt (x : LinkEnt) : List LinkEnt → List LinkEnt
  | [] => [x]
  | y :: l => if 32 * (x.mod % 32) + x.port ≤ 32 * (y.mod % 32) + y.port then x :: y :: l else y :: insertEnt x l

/-- The links of an Acre to another, ascending, the first two (R283, R284, `OD 5300`). -/
def acreLinks (T : List LinkEnt) (a b : Nat) : List LinkEnt :=
  ((T.filter (fun e => decide (e.mod / 32 = a ∧ 32 ≤ e.port ∧ e.peer / 32 = b ∧ e.peer ≠ 0x7FFF))).foldl
    (fun l e => insertEnt e l) []).take 2

/-- The hop between two members of one Acre; none for a module and itself. -/
def localHop (a b : Nat) : List (Nat × Nat) := if a = b then [] else [(a, acrePort a b)]

/-- The minimal route from module a to module b (R284), where a link between their Acres is known. -/
def minimalRoute (T : List LinkEnt) (a b : Nat) : Option (List (Nat × Nat)) :=
  if a / 32 = b / 32 then some (localHop a b)
  else
    let l := acreLinks T (a / 32) (b / 32)
    match l[(a % 32 + b % 32) % 2 % l.length]? with
    | none => none
    | some e => some (localHop a e.mod ++ [(e.mod, e.port)] ++ localHop e.peer b)

/-- A minimal route whose every port is in service. -/
def serviceRoute (own : Nat) (T : List LinkEnt) (a b : Nat) : Option (List (Nat × Nat)) :=
  match minimalRoute T a b with
  | some r => if r.all (hopUp own T) then some r else none
  | none => none

/-- A minimal route in service from a to the Acre c. -/
def toAcre (own : Nat) (T : List LinkEnt) (a c : Nat) : Option (List (Nat × Nat)) :=
  let l := acreLinks T (a / 32) c
  match l[(a % 32) % 2 % l.length]? with
  | none => none
  | some e =>
    let r := localHop a e.mod ++ [(e.mod, e.port)]
    if r.all (hopUp own T) then some r else none

/-- The non-minimal route (R285). Between Acres it is the part up to the Acre it passes through: the MAPs that this module hears
are those of its own Acre, so the links of another one are taken to be in service, and its modules route on (log entry 72). -/
def spreadRoute (own acres members : Nat) (T : List LinkEnt) (a b : Nat) : Option (List (Nat × Nat)) :=
  if a / 32 = b / 32 then
    let via := (upto 32).map (fun i => a / 32 * 32 + (a % 32 + b % 32 + i) % 32)
    (via.filter (fun x => decide (x ≠ a ∧ x ≠ b ∧ x % 32 < members))).findSome? (fun x =>
      let r := localHop a x ++ localHop x b
      if r.all (hopUp own T) then some r else none)
  else
    let via := (upto acres).map (fun i => (a + b + i) % acres)
    (via.filter (fun c => decide (c ≠ a / 32 ∧ c ≠ b / 32))).findSome? (toAcre own T a)

/-- `OD 5002:01` for a flow, as the port acts on it by which its minimal route leaves this module. -/
def spreadMask (s : State) (src dst : Nat) : Nat :=
  match minimalRoute (linkTable s) src dst with
  | some (h :: _) => if h.1 = myId s then portSetting s h.2 0x5002 1 else setting s 0x5002 1
  | _ => setting s 0x5002 1

/-- The route of a flow: minimal, or non-minimal where a port is out of service or `OD 5002:01` says so. -/
def routeOf (s : State) (src dst vc : Nat) : Option (List (Nat × Nat)) :=
  let T := linkTable s
  let spread := spreadRoute (myId s) (acreCount s) (memberCount s) T src dst
  if vc < 14 ∧ bitAt (spreadMask s src dst) vc = true then spread
  else match serviceRoute (myId s) T src dst with
    | some r => some r
    | none => spread

/-- Whether a route is other than the minimal one. -/
def isSpread (s : State) (src dst : Nat) (r : Option (List (Nat × Nat))) : Bool :=
  r.isSome && decide (r ≠ minimalRoute (linkTable s) src dst)

/-! ## Credits (R277): the receive buffer of the peer, one slot for each VC, class and STAGE, and 864 shared ones -/

def flitClass (f : OutFlit) : Nat := if f.typ = 2 then 1 else 0

def creditKey (f : OutFlit) : Nat := 2 * f.vc + flitClass f

/-- Slots taken under a key, oldest first: STAGE + 1 a reserved one, 0 a shared one. -/
def slotsTaken (x : Port) (k : Nat) : List Nat := kvGet [] x.credits k

def sharedTaken (x : Port) : Nat := x.credits.foldl (fun n c => n + (c.2.filter (fun t => decide (t = 0))).length) 0

/-- The slot that a flit would take: the reserved one of its VC, class and STAGE where that is free, else a shared one. -/
def creditFor (x : Port) (f : OutFlit) : Option Nat :=
  if !(slotsTaken x (creditKey f)).elem (f.stage + 1) then some (f.stage + 1)
  else if sharedTaken x < 864 then some 0
  else none

def takeCredit (x : Port) (f : OutFlit) : Port :=
  match creditFor x f with
  | some t => { x with credits := kvSet [] x.credits (creditKey f) (slotsTaken x (creditKey f) ++ [t]) }
  | none => x

/-- n slots of this port's own receive buffer are free again: their credits are to be returned. -/
def freeSlots (s : State) (p k n : Nat) : State :=
  let x := portAt s p
  setPort s p { x with returns := kvMod 0 x.returns k (· + n) }

/-! ## Flits that leave a port (R267 to R269, R277 to R280) -/

/-- The 96-bit header of a flit of a type (Table 09-3). -/
def flitHeader (f : Flit) (typ : Nat) : Nat :=
  f.seq.toNat * 2 ^ 84 + f.ack.toNat * 2 ^ 72 + boolNat f.nak * 2 ^ 71 + typ * 2 ^ 67 + f.vc.toNat * 2 ^ 63
    + boolNat f.rsv62 * 2 ^ 62 + f.stage.toNat * 2 ^ 59 + f.crvc.toNat * 2 ^ 55 + boolNat f.crmc * 2 ^ 54
    + f.crn.toNat * 2 ^ 47 + f.dst.toNat * 2 ^ 32 + f.src.toNat * 2 ^ 17 + f.tag.toNat * 2 ^ 5
    + f.nsec.toNat * 4 + f.rsv.toNat

/-- Bytes 0 to 331 of a flit. -/
def flitBytes (f : Flit) (typ : Nat) : List Byte := padTo 320 f.payload ++ toLe 12 (flitHeader f typ)

/-- Sequenced types: all but IDLE, LINK and TRAINING. -/
def sequenced (typ : Nat) : Bool := decide (typ ≠ 0 ∧ typ ≠ 5 ∧ typ ≠ 6)

/-- The credits that the next flit of a port returns: a key with some, and at most 127 of them. -/
def returnNow (x : Port) : Nat × Nat :=
  match x.returns.find? (fun q => decide (q.2 ≠ 0)) with
  | some (k, n) => (k, min n 127)
  | none => (0, 0)

/-- A flit as it goes on the wire, with the port's ACK and returned credits. -/
def wireFlit (x : Port) (f : OutFlit) (nak : Bool) : Flit :=
  let c := returnNow x
  let g : Flit :=
    { seq := BitVec.ofNat 12 f.seq, ack := BitVec.ofNat 12 x.rxSeq, nak := nak, vc := BitVec.ofNat 4 f.vc, rsv62 := false,
      stage := BitVec.ofNat 3 f.stage, crvc := BitVec.ofNat 4 (c.1 / 2), crmc := decide (c.1 % 2 = 1),
      crn := BitVec.ofNat 7 c.2, dst := BitVec.ofNat 15 f.dst, src := BitVec.ofNat 15 f.src, tag := BitVec.ofNat 12 f.tag,
      nsec := BitVec.ofNat 3 (ceilDiv f.bytes.length 64), rsv := 0, payload := padTo 320 f.bytes, crc := 0,
      reserved := none, codewords := [], fecBad := false }
  { g with crc := BitVec.ofNat 32 (crc32 (flitBytes g f.typ)) }

/-- A flit is sent: it carries the port's ACK and the credits it can return. -/
def putOut (s : State) (p : Nat) (f : OutFlit) (nak : Bool) : State :=
  let x := portAt s p
  let c := returnNow x
  let s := setPort s p { x with returns := kvMod 0 x.returns c.1 (· - c.2), ackDue := false }
  emit (bump s (0xA500 + p) 1 1) (.flit p f.typ (wireFlit x f nak) f.note)

/-- A LINK flit of a port. -/
def linkFlit : OutFlit :=
  { seq := 0, typ := 5, vc := 0, src := 0, dst := 0, stage := 0, tag := 0, bytes := [], note := .none, came := none, more := 0 }

/-- A LINK flit returns credits and an ACK where there is nothing else to send. -/
def sendLink (s : State) (p : Nat) (nak : Bool) : State :=
  let x := portAt s p
  if carries x ∨ x.st = 3 then putOut s p linkFlit nak else s

/-- Whether a flit can leave now. LINK flits take no credit, and a HELD port sends them too. -/
def canLeave (x : Port) (f : OutFlit) : Bool :=
  if f.typ = 5 then carries x || decide (x.st = 3)
  else carries x && (creditFor x f).isSome && decide (x.replay.length < 1024)

/-- What a flit shares with the other flits of its train. -/
def trainKey (f : OutFlit) : Nat × Nat × Nat × Nat := (f.typ, f.src, f.dst, f.tag)

/-- The flit may leave next on its VC: no train has begun to leave there, or it is of that train (R268). -/
def nextInTrain (x : Port) (f : OutFlit) : Bool :=
  match kvFind x.leaving f.vc with
  | some k => decide (trainKey f = k)
  | none => true

/-- The train of a flit that leaves stays open on its VC until its last flit has left. -/
def openTrain (x : Port) (f : OutFlit) : Port :=
  if !sequenced f.typ then x
  else { x with leaving := (x.leaving.filter (fun q => decide (q.1 ≠ f.vc))) ++ (if f.more = 0 then [] else [(f.vc, trainKey f)]) }

/-- The first flit of a VC at the egress, where it can leave: a train's flits leave one after the other. -/
def headOf (x : Port) (vc : Nat) : Option OutFlit :=
  match x.egress.find? (fun f => decide (f.vc = vc) && nextInTrain x f) with
  | some f => if canLeave x f then some f else none
  | none => none

/-- The first LINK flit at the egress, where it can leave. -/
def linkHead (x : Port) : Option OutFlit := x.egress.find? (fun f => decide (f.typ = 5) && canLeave x f)

/-- The next flit: LINK, VC 15, VC 14, then VCs 0 to 13 in weighted round robin (R279), with the turn after it. -/
def nextFlit (s : State) (p : Nat) (x : Port) : Option (OutFlit × (Nat × Nat)) :=
  match linkHead x, headOf x 15, headOf x 14 with
  | some f, _, _ => some (f, x.turn)
  | none, some f, _ => some (f, x.turn)
  | none, none, some f => some (f, x.turn)
  | none, none, none =>
    let more := if x.turn.2 < portSetting s p 0x5001 (x.turn.1 + 1) then headOf x x.turn.1 else none
    match more with
    | some f => some (f, (x.turn.1, x.turn.2 + 1))
    | none =>
      ((upto 14).map (fun i => (x.turn.1 + 1 + i) % 14)).findSome? (fun v =>
        match headOf x v with
        | some f => some (f, (v, 1))
        | none => none)

/-- A sequenced flit takes the next SEQ, a slot at the peer, and its place in the replay buffer until it is acknowledged. -/
def sequence (s : State) (p : Nat) (x : Port) (f : OutFlit) : OutFlit × Port :=
  if !sequenced f.typ then (f, x)
  else
    let g := { f with seq := (x.txSeq + 1) % 4096, came := none }
    (g, { takeCredit x f with
      txSeq := g.seq, replay := x.replay ++ [g], lastAck := if x.replay.isEmpty then portClock s p else x.lastAck })

/-- One flit leaves a port; a transit flit leaves the slot it came in. -/
def sendOne (s : State) (p : Nat) : State :=
  let x := portAt s p
  match nextFlit s p x with
  | none => s
  | some (f, turn) =>
    let q := sequence s p { openTrain x f with egress := x.egress.erase f, turn := turn } f
    let s := putOut (setPort s p q.2) p q.1 false
    match f.came with
    | some c => freeSlots s c.1 c.2 1
    | none => s

/-- Every flit that can leave a port leaves it. -/
def pump (s : State) (p : Nat) : State := iter (fun s => sendOne s p) (portAt s p).egress.length s

/-- Puts flits at an egress port. -/
def enqueueFlits (s : State) (p : Nat) (fs : List OutFlit) : State :=
  let x := portAt s p
  pump (setPort s p { x with egress := x.egress ++ fs }) p

/-- Room for one more URGENT flit at an egress (R280). -/
def urgentRoom (s : State) (p : Nat) : Bool :=
  decide (((portAt s p).egress.filter (fun f => decide (f.typ = 4))).length < 64)

/-- Puts a flit at an egress port; an URGENT flit waits at its source while the port holds 64 of them, behind those that wait. -/
def placeFlit (s : State) (p : Nat) (f : OutFlit) : State :=
  if f.typ = 4 ∧ (urgentRoom s p = false ∨ s.links.urgentOut.any (fun q => decide (q.1 = p)) = true) then
    { s with links := { s.links with urgentOut := s.links.urgentOut ++ [(p, f)] } }
  else enqueueFlits s p [f]

/-- The egress port of a route that starts here. -/
def egressOf (s : State) (r : Option (List (Nat × Nat))) : Option Nat :=
  match r with
  | some (h :: _) => carrier s h.2
  | _ => none

/-- URGENT flits that waited for room take it, the oldest first; one whose port carries no more takes another. -/
def kickUrgent (s : State) : State :=
  s.links.urgentOut.foldl (fun s q =>
    let p := if carries (portAt s q.1) then some q.1 else egressOf s (routeOf s (myId s) q.2.dst q.2.vc)
    match p with
    | some p => if urgentRoom s p then
        enqueueFlits { s with links := { s.links with urgentOut := s.links.urgentOut.erase q } } p [q.2] else s
    | none => s) s

/-- Flits that travel consecutively: each says how many follow it. -/
def numberTrain : List OutFlit → List OutFlit
  | [] => []
  | f :: fs => { f with more := fs.length } :: numberTrain fs

/-- The flits of a train of sectors, five to a flit, of a transaction that begins here. -/
def train (s : State) (typ vc dst tag : Nat) (bytes : List Byte) : List OutFlit :=
  numberTrain ((chunksOf 320 (bytes.length / 320 + 1) bytes).map (fun b =>
    { seq := 0, typ := typ, vc := vc, src := myId s, dst := dst, stage := 0, tag := tag, bytes := b, note := .none,
      came := none, more := 0 }))

/-- A flit of this module with a content whose layout is not given: its payload is free bytes (log entry 72). -/
def noteFlit (s : State) (typ vc dst : Nat) (n : Note) : OutFlit :=
  { seq := 0, typ := typ, vc := vc, src := myId s, dst := dst, stage := 0, tag := 0,
    bytes := (Config.freeBytes s.free).take 320, note := n, came := none, more := 0 }

/-- Puts a train at an egress port. -/
def placeTrain (s : State) (p : Nat) : List OutFlit → State
  | [f] => placeFlit s p f
  | fs => enqueueFlits s p fs

/-- A train of this module leaves by the route to its destination, or waits for one: behind those that wait to go there, and a
STOOK train also while its port group stops (R291, R307, R313, R318). -/
def leave (s : State) (fs : List OutFlit) : State :=
  match fs with
  | [] => s
  | f :: _ =>
    let hold := { s with links := { s.links with unrouted := s.links.unrouted ++ [fs] } }
    let same := fun (l : List OutFlit) => l.any (fun g => decide (g.dst = f.dst ∧ g.vc = f.vc))
    match egressOf s (routeOf s (myId s) f.dst f.vc) with
    | some p => if s.links.unrouted.any same || (decide (f.typ = 3) && !running s (portFn p)) then hold else placeTrain s p fs
    | none => hold

/-- Trains that waited for a route leave, where there is one. -/
def kickUnrouted (s : State) : State :=
  s.links.unrouted.foldl leave { s with links := { s.links with unrouted := [] } }

/-- A MAP and a replay notice are worth nothing later: they are sent again (R275, R289). -/
def passing : Note → Bool
  | .map _ => true
  | .replay _ _ => true
  | _ => false

/-- Sends a message of a VC to a module. -/
def sendNote (s : State) (typ vc dst : Nat) (n : Note) : State :=
  if passing n && (egressOf s (routeOf s (myId s) dst vc)).isNone then s
  else leave { s with free := s.free + 1 } [noteFlit s typ vc dst n]

/-- Sends bytes on a VC to a module, with what they are: its first flit tells it. -/
def sendBytes (s : State) (typ vc dst : Nat) (bytes : List Byte) (n : Note) : State :=
  match train s typ vc dst 0 bytes with
  | f :: fs => leave s ({ f with note := n } :: fs)
  | [] => s

/-! ## An attempt that is given up (Table 10-4, step 2) -/

/-- VCs on which the STOOK flits of the job with the Stook layer travel. -/
def stookVcs (s : State) : List Nat := s.stook.groups.map (fun g => g.cfg.vc)

/-- A STOOK flit of this module's own on one of those VCs. -/
def ownStook (s : State) (f : OutFlit) : Bool := decide (f.typ = 3 ∧ f.src = myId s) && (stookVcs s).elem f.vc

/-- The flits at an egress that stay: those of other uses, and the rest of a train that has begun to leave. -/
def dropUnsent (own : OutFlit → Bool) : KV (Nat × Nat × Nat × Nat) → List OutFlit → List OutFlit
  | _, [] => []
  | l, f :: fs =>
    if !own f then f :: dropUnsent own l fs
    else if kvFind l f.vc = some (trainKey f) then
      f :: dropUnsent own (if f.more = 0 then l.filter (fun q => decide (q.1 ≠ f.vc)) else l) fs
    else dropUnsent own l fs

/-- The STOOK flits of the abandoned attempt that have not begun to leave are dropped. -/
def dropStook (s : State) : State :=
  let own := ownStook s
  let s := { s with links := { s.links with unrouted := s.links.unrouted.filter (fun l => !l.any own) } }
  foldUpto 64 s (fun s p =>
    let x := portAt s p
    if x.egress.any own then setPort s p { x with egress := dropUnsent own x.leaving x.egress } else s)

/-- No STOOK flit of the abandoned attempt is left at this module's ports. -/
def stookGone (s : State) : Bool :=
  (upto 64).all (fun p =>
    let x := portAt s p
    !(x.egress ++ x.replay).any (ownStook s) && !x.parts.any (fun q => decide (q.1 = 3) && (stookVcs s).elem q.2.2.1))

/-! ## Flows and transactions (R284 to R289) -/

def flowKey (dst vc : Nat) : Nat := 16 * dst + vc

def Flow.reset : Flow := { route := none, eseq := 0, move := none }

def flowAt (s : State) (dst vc : Nat) : Flow := kvGet Flow.reset s.links.flows (flowKey dst vc)

def setFlow (s : State) (dst vc : Nat) (f : Flow) : State :=
  { s with links := { s.links with flows := kvPut s.links.flows (flowKey dst vc) f } }

/-- A flow begins: it takes the route of the present map. -/
def openFlow (s : State) (dst vc : Nat) : State :=
  match kvFind s.links.flows (flowKey dst vc) with
  | some _ => s
  | none =>
    let r := routeOf s (myId s) dst vc
    let s := setFlow s dst vc { Flow.reset with route := r }
    if isSpread s (myId s) dst r then bump s 0xA540 1 1 else s

/-- The 64-byte descriptor of a request (R268). -/
def requestDesc (write : Bool) (sectors ga eseq : Nat) : List Byte :=
  toLe 64 (ga * 2 ^ 13 + (sectors - 1) * 2 ^ 52 + (if write then 2 ^ 60 else 0) + eseq * 2 ^ 64)

/-- The descriptor of a response. -/
def responseDesc (status sectors eseq : Nat) : List Byte :=
  toLe 64 ((sectors - 1) * 2 ^ 52 + status * 2 ^ 60 + eseq * 2 ^ 64)

def transFlits (s : State) (x : Trans) : List OutFlit :=
  train s 1 x.vc x.dst x.tag (requestDesc x.write x.sectors x.ga x.eseq ++ x.data)

/-- Transactions outstanding at a port (R288); a parked one has no place there yet. -/
def outstandingAt (s : State) (p : Nat) : Nat :=
  (s.links.trans.filter (fun x => decide (x.port = p) && !x.parked)).length

/-- A tag of a port that no outstanding transaction holds, from the next one on. -/
def freeTag (s : State) (p : Nat) : Nat :=
  let start := kvGet 0 s.links.nextTag p
  match ((upto 4096).map (fun i => (start + i) % 4096)).find? (fun g =>
      !s.links.trans.any (fun x => decide (x.port = p ∧ x.tag = g) && !x.parked)) with
  | some g => g
  | none => start

/-- The port on which the requests of a flow leave: the spare, while requests of it are outstanding there (R286, R293), or the
port that carries its route. -/
def flowEgress (s : State) (dst vc : Nat) : Option Nat :=
  let r := (flowAt s dst vc).route
  match r with
  | some (h :: _) =>
    if (portAt s 31).st = 7 ∧ (portAt s 31).sub.toNat = h.2
        ∧ s.links.trans.any (fun x => decide (x.dst = dst ∧ x.vc = vc ∧ x.port = 31)) = true then some 31
    else carrier s h.2
  | _ => none

inductive Sent where
  | sent
  /-- 4 096 transactions are outstanding at the port, or its group is stopping, or the ports rest -/
  | wait
  | unreachable
  deriving DecidableEq, Repr

/-- A requester waits, or waits no longer, at the outstanding limit of a port. -/
def noteLimit (s : State) (p : Nat) (owner : TransOwner) (dst : Nat) (on : Bool) : State :=
  let l := s.links
  let rest := l.limitWait.filter (fun q => decide (q ≠ (p, owner, dst)))
  { s with links := { l with limitWait := if on then rest ++ [(p, owner, dst)] else rest } }

/-- Sends a request of at most 64 sectors within one granule to another module. -/
def sendRequest (s : State) (owner : TransOwner) (job dst vc ga sectors : Nat) (write : Bool) (data : List Byte) :
    State × Sent :=
  let s := openFlow s dst vc
  let f := flowAt s dst vc
  match flowEgress s dst vc with
  | none => (bump s 0xA540 6 1, .unreachable)
  | some p =>
    if !running s (portFn p) || portsRest s then (s, .wait)
    else if 4096 ≤ outstandingAt s p then (noteLimit s p owner dst true, .wait)
    else
      let g := freeTag s p
      let x : Trans :=
        { port := p, tag := g, dst := dst, vc := vc, eseq := f.eseq, write := write, ga := ga, sectors := sectors,
          data := data, timeouts := 0, since := portClock s p, parked := false, owner := owner, job := job }
      let s := setFlow (noteLimit s p owner dst false) dst vc { f with eseq := (f.eseq + 1) % 65536 }
      let l := s.links
      let s := { s with links := { l with
        trans := l.trans ++ [x], nextTag := kvSet 0 l.nextTag p ((g + 1) % 4096) } }
      (enqueueFlits s p (transFlits s x), .sent)

def setTrans (s : State) (x y : Trans) : State :=
  { s with links := { s.links with trans := s.links.trans.map (fun z => if z = x then y else z) } }

/-- Sends a request of a flow again on a port; one that comes to a port with 4 096 outstanding is parked. -/
def resend (s : State) (p : Nat) (x : Trans) : State :=
  if (x.port ≠ p ∨ x.parked = true) ∧ 4096 ≤ outstandingAt s p then setTrans s x { x with parked := true }
  else
    let tag := if x.port = p ∧ x.parked = false then x.tag else freeTag s p
    let y := { x with port := p, tag := tag, parked := false, since := portClock s p }
    enqueueFlits (bump (setTrans s x y) 0xA540 3 1) p (transFlits s y)

/-- Sends again, in order, every unacknowledged request of a flow, over its present route (R289). -/
def replayFlow (s : State) (dst vc : Nat) : State :=
  match flowEgress s dst vc with
  | none => s
  | some p => (s.links.trans.filter (fun x => decide (x.dst = dst ∧ x.vc = vc))).foldl (fun s x => resend s p x) s

/-- Requests that are parked are sent as room comes, in order. -/
def kickParked (s : State) : State :=
  (s.links.trans.filter (·.parked)).foldl (fun s x =>
    match flowEgress s x.dst x.vc with
    | some p => resend s p x
    | none => s) s

/-- A flow moves to a route (R286). -/
def moveFlow (s : State) (dst vc : Nat) (r : Option (List (Nat × Nat))) (replay : Bool) : State :=
  let s := bump (setFlow s dst vc { flowAt s dst vc with route := r, move := none }) 0xA540 2 1
  let s := if isSpread s (myId s) dst r then bump s 0xA540 1 1 else s
  if replay then replayFlow s dst vc else s

/-- A request of the flow was left at a port that no longer carries it. -/
def stranded (s : State) (dst vc : Nat) : Bool :=
  s.links.trans.any (fun x => decide (x.dst = dst ∧ x.vc = vc) && !x.parked && !carries (portAt s x.port))

def flowBusy (s : State) (dst vc : Nat) : Bool := s.links.trans.any (fun x => decide (x.dst = dst ∧ x.vc = vc))

/-- Recomputes the route of every flow: one whose route has lost a port moves at once and replays; another
will move once it has nothing outstanding (R286). -/
def reroute (s : State) : State :=
  s.links.flows.foldl (fun s q =>
    let dst := q.1 / 16
    let vc := q.1 % 16
    let f := flowAt s dst vc
    let r := routeOf s (myId s) dst vc
    let lost := match f.route with
      | none => r.isSome
      | some hs => !hs.all (hopUp (myId s) (linkTable s)) || (egressOf s f.route).isNone
    if r = f.route then
      let s := setFlow s dst vc { f with move := none }
      if stranded s dst vc then replayFlow s dst vc else s
    else if lost then moveFlow s dst vc r true
    else setFlow s dst vc { f with move := some r }) s

end Sys2Proof.Machine
end

