-- ==== Sys2Proof/Machine/Tree.lean ====
section
/-! DEFINITION. The scalar tree of a job (R318): its modules by index, and what a member sends up or down. Round
numbers: 0 norm, 1 and 2 commit, 3 quiescent, 4 admitted. -/
namespace Sys2Proof.Machine

/-- The modules of a job in ascending order: MLST, or this module alone. -/
def jobModules (s : State) (job : Nat) : List Nat :=
  let l := (jobOf s job).man.mlst
  if l.isEmpty then [setting s 0x5000 1] else l

/-- This module's index among the modules of a job. -/
def treeIndex (s : State) (job : Nat) : Nat :=
  let l := jobModules s job
  ((upto l.length).find? (fun i => decide (natAt l i = setting s 0x5000 1))).getD 0

/-- The index of the leader of a member: of its group at the first level that it does not lead. -/
def treeLeader (i : Nat) : Nat :=
  if i % 32 ≠ 0 then i - i % 32 else if i % 1024 ≠ 0 then i - i % 1024 else 0

/-- The indices that a member leads, level by level, among n. -/
def treeMembers (n i : Nat) : List Nat :=
  ([1, 32, 1024].filter (fun u => decide (i % (32 * u) = 0))).flatMap (fun u =>
    ((upto 31).map (fun j => i + (j + 1) * u)).filter (fun k => decide (k < n)))

/-- Sends an URGENT message on VC 14 to the module at an index of a job (R318). -/
def sendTree (s : State) (job i : Nat) (m : UrgentMsg) : State := sendNote s 4 14 (natAt (jobModules s job) i) (.urgent m)

/-- Sends a value up to this member's leader; the root has none. -/
def treeUp (s : State) (job round : Nat) (a b : Word32) (bit : Bool) : State :=
  let i := treeIndex s job
  if i = 0 then s else sendTree s job (treeLeader i) (.treeUp job round i a b bit)

/-- Passes a message down to the members this one leads. -/
def treeSpread (s : State) (job : Nat) (m : UrgentMsg) : State :=
  (treeMembers (jobModules s job).length (treeIndex s job)).foldl (fun s k => sendTree s job k m) s

/-- Passes a value down to the members this one leads. -/
def treeDown (s : State) (job round : Nat) (a b : Word32) (bit : Bool) : State :=
  treeSpread s job (.treeDown job round a b bit)

/-- Votes 0 in a round: a 0 goes up at once, and from the root down (R327). -/
def treeZero (s : State) (job round : Nat) : State :=
  let s := treeUp s job round 0 0 false
  if treeIndex s job = 0 then treeDown s job round 0 0 false else s

/-- The end notice of a job goes to every neighbour on the tree (R349). -/
def treeNotice (s : State) (job : Nat) : State :=
  let m : UrgentMsg := .endNotice (BitVec.ofNat 32 job)
  let i := treeIndex s job
  treeSpread (if i = 0 then s else sendTree s job (treeLeader i) m) job m

end Sys2Proof.Machine
end

