-- ==== Sys2Proof/Machine/Ends.lean ====
section
/-! DEFINITION. The end of a job (R348 to R350) and the refusals that lead to it (R125), additions to semaphores (R139), and a
thread's next instruction (R109). -/
namespace Sys2Proof.Machine

/-! ## The end of a job (R125, R253, R348 to R350) -/

/-- The Sheaf that an accepted tile instruction works on, if any. -/
def opSheaves : TileOp → List Nat
  | .mma _ _ _ _ _ sh _ _ => [sh]
  | .attf _ _ _ _ _ _ _ s1 s2 => [s1, s2]
  | .attb _ _ _ _ _ _ _ s1 s2 s3 => [s1, s2, s3]
  | .sload _ _ sh _ => [sh]
  | .sdrain _ _ _ sh _ _ _ => [sh]
  | .discard sh => [sh]
  | _ => []

/-- Discards every open Sheaf that no accepted instruction still needs. -/
def reapSheaves (t : Tiller) : Tiller :=
  let used := (t.flights.map (fun f => opSheaves f.op)).flatten
  { t with sheaves := t.sheaves.filter (fun p => used.elem p.1) }

/-- Stops every thread of a Tiller, and discards its open Sheaves as accepted instructions leave them. -/
def stopTiller (s : State) (id : Nat) : State :=
  let s := foldUpto 8 s (fun s n => stopThread s id n)
  let s := dropWaiters s id
  setTilAt s id (reapSheaves (tilAt s id))

/-- A bale that is ABSENT and unpinned leaves the directory (R220). -/
def baleStays (b : Bale) : Bool := !(decide (b.st = .absent ∧ b.pins = 0))

/-- The pin of a demand fault goes from the bale that covers a granule (R222). -/
def unpinDemand (s : State) (ga : Nat) : State :=
  { s with bales := (s.bales.map (fun b =>
      if b.ga ≤ ga ∧ ga < b.ga + b.len then { b with pins := b.pins - 1, demand := b.demand - 1 } else b)).filter baleStays }

/-- Every claim of a producer on a semaphore goes (R231). -/
def dropClaims (s : State) (p : Nat × Nat × Nat) : State :=
  let drop := fun (x : Sem) => { x with producers := x.producers.filter (fun r => decide (r ≠ p)) }
  { s with sems := (s.sems.map (fun q => (q.1, drop q.2))).filter (fun q => decide (q.2 ≠ Sem.reset)) }

/-- What a stream context holds outside its Tiller goes: its place at a semaphore, its claims, its pin and its
latch. -/
def freeStream (s : State) (c : CtxId) : State :=
  let x := kvGet Ctx.reset (til s c.til).ctxs c.ctx.val
  let s := dropClaims (dropStreamWaiter s c) (2, tilKey c.til, c.ctx.val)
  let s := dropWaits (match x.pinned with
    | some ga => unpinDemand s ga
    | none => s) (srcTil c.til)
  let orphan := fun (x : Trans) => if x.owner = .streamWrite c then { x with owner := .gone } else match x.owner with
    | .streamRead d _ => if d = c then { x with owner := .gone } else x
    | _ => x
  { s with latches := (s.latches.map (fun p => (p.1, p.2.filter (fun d => decide (d ≠ c))))).filter (fun p => !p.2.isEmpty),
           faultWait := s.faultWait.erase c,
           links := { s.links with trans := s.links.trans.map orphan } }

/-- Sets the outcome of the unresolved record of a context (`OD 4710:08`). -/
def resolveRecord (s : State) (c : CtxId) (status : Nat) : State :=
  { s with streamFaults := s.streamFaults.map (fun r =>
      if r.1 = tilKey c.til ∧ r.2.1 = c.ctx.val ∧ r.2.2.2.2 = 1 then (r.1, r.2.1, r.2.2.1, r.2.2.2.1, status) else r) }

/-- Ends the stream contexts of a Tiller in IDLE (R253); a fault that one was halted on is aborted. -/
def endStreams (s : State) (id : Nat) : State :=
  match tilOf id with
  | none => s
  | some t =>
    let s := foldUpto 16 s (fun s c => if h : c < 16 then
      freeStream (resolveRecord s { til := t, ctx := ⟨c, h⟩ } 4) { til := t, ctx := ⟨c, h⟩ } else s)
    setTilAt s id { tilAt s id with ctxs := [] }

/-- Ends a wait of the Awn engine: for credit in `OD A600:04`, for frame lines in `OD A600:06`. -/
def awnWaited (s : State) : State :=
  match s.awn.waitSince with
  | none => s
  | some t =>
    let s' := bump s 0xA600 (if s.awn.status = 3 then 4 else 6) (s.clocks.hedgerow - t)
    { s' with awn := { s'.awn with waitSince := none, status := 2 } }

/-- The Awn engine abandons what it runs for a job; a wait it was in is charged (R191, R200). A tile that it is writing is still
completed where `finish` says so. -/
def awnAbandon (s : State) (job : Nat) (finish : Bool) : State :=
  if s.awn.holder = job ∧ job ≠ 0 then
    match s.awn.run with
    | none => s
    | some r =>
      let s := awnWaited s
      let run := if finish ∧ r.due ≠ 0 then some { r with left := true } else none
      dropWaits (dropClaims { s with awn := { s.awn with run := run, status := 5 } } (4, 0, 0)) srcAwn
  else s

/-- Ends a job in a slot with a state and reason of Table 11-7: its threads stop, its Sheaves are discarded,
its streams end where told, an end notice goes out under FACT 1 (R349), and the completion record is due. -/
def endJob (s : State) (slot st reason : Nat) (streams notice : Bool) : State :=
  let j := jobAt s slot
  if jobLive j then
    let tils := jobTils s j.man.job
    let s := tils.foldl stopTiller s
    let s := if streams then tils.foldl endStreams s else s
    let s := awnAbandon s j.man.job true
    let s := setJob s slot { jobAt s slot with st := st, reason := reason, endAux := s.clocks.aux,
                                               record := decide (j.man.crec ≠ 0) }
    let s := { s with power := { s.power with idleSince := s.clocks.aux } }
    let s := if st = 5 then boxAdd s none 0x0013 [j.man.job, st, reason] else s
    if notice && decide (j.man.fact = 1 ∧ 1 < j.man.span) then treeNotice s j.man.job else s
  else s

/-- A program fault of a job: it ends with state 5, reason 0x01 (R125, Table 11-7). -/
def programFault (s : State) (job : Nat) : State :=
  match slotOf s job with
  | some i => endJob s i 5 0x01 false true
  | none => s

/-- A refusal of a thread's instruction, or its stop on a saturated semaphore (R125, R139): the thread stops,
the Tiller records the first stop and counts it, and the job faults. tile tells which refusals are counted. -/
def recordStop (s : State) (t : Thr) (pc : Word32) (bytes : List Byte) (reason : Nat) : State :=
  let id := tilKey t.til
  let y := tilAt s id
  let s := match y.stop with
    | some _ => s
    | none => setTilAt s id { y with stop := some { thread := t.n.val, pc := pc, bytes := padTo 16 bytes, reason := reason } }
  let s := stopThread s id t.n.val
  let s := bumpTil s id 0xA210 3 1
  programFault s (tilAt s id).job

/-- A refused scalar instruction. -/
def refuseScalar (s : State) (t : Thr) (word : Nat) (reason : Nat) : State :=
  let s := bumpTil s (tilKey t.til) 0xA210 2 1
  recordStop s t ((thread s t).pc.setWidth 32) (toLe 4 word) reason

/-- A refused tile instruction; a refusal under R91 (0x06) is counted in `OD A200:09` only (R120). -/
def refuseTile (s : State) (t : Thr) (w : Word128) (reason : Nat) : State :=
  let s := if reason = 0x06 then bumpTil s (tilKey t.til) 0xA200 9 1 else bumpTil s (tilKey t.til) 0xA210 1 1
  recordStop s t ((thread s t).pc.setWidth 32) (toLe 16 w.toNat) reason

/-- An addition that would exceed 65 535 (R139): it is counted under the Tiller that holds the semaphore, and
faults the job; the sender's own thread, if a thread sent it, stops with reason 0x09. -/
def semOverflow (s : State) (sg : Signal) : State :=
  let s := match semTil sg.sem with
    | some id => bumpTil s id 0xA210 6 1
    | none => bump s 0xA210 6 1
  match sg.src with
  | .thread t pc word => recordStop s t pc (toLe 4 word.toNat) 0x09
  | _ => programFault s sg.job

/-- Adds a count to a semaphore at its block (R139). -/
def addSem (s : State) (sg : Signal) : State :=
  let x := sem s sg.sem
  let total := x.count + sg.count
  let s := setSem s sg.sem { x with count := min total 65535 }
  if total ≤ 65535 then s else semOverflow s sg

/-! ## A thread's next instruction -/

/-- Registers an accepted BCVT of the thread has yet to write (R123). -/
def busyRegs (t : Tiller) (n : Nat) : List Nat :=
  (t.flights.filter (fun f => decide (f.thread = n))).filterMap (fun f => match f.op with
    | .bcvt _ _ _ _ _ ar => if ar = 0 then none else some ar.toNat
    | _ => none)

/-- Thread n is ready, as far as is known: it waits for no operand register, no room and no line of its own (R109). -/
def readyThr (y : Tiller) (n : Nat) : Bool :=
  let x := thr y n
  x.st.isReady && x.issueWait.isNone && !x.lineWait && (busyRegs y n).isEmpty

/-- No ready thread stands before thread n in the round that starts after the thread that issued last (R109). -/
def itsTurn (y : Tiller) (n : Nat) : Bool := (upto ((n + 7 - y.turn) % 8)).all (fun i => !readyThr y ((y.turn + 1 + i) % 8))

/-- Whether thread t can issue: its Field is RUNNING with its clock, it is ready and its turn has come, no register it names
still being written (R109, R123). -/
def canIssue (s : State) (t : Thr) (regs : List Reg) : Bool :=
  let y := til s t.til
  fieldOn s t.til.field.val && tcOn s && (thread s t).st.isReady && itsTurn y t.n.val &&
    !(regs.any (fun r => (busyRegs y t.n.val).elem r.toNat))

/-- The thread has issued an instruction: it is the last of its Tiller to do so (R109), and its job has made progress. -/
def issued (s : State) (t : Thr) : State :=
  progress (modTil s t.til (fun y => { y with turn := t.n.val })) (til s t.til).job

/-- The thread has issued an instruction of n bytes: its pc moves past it. -/
def advance (s : State) (t : Thr) (n : Nat) : State :=
  let x := thread s t
  issued (setThread s t { x with pc := x.pc + BitVec.ofNat 64 n }) t

end Sys2Proof.Machine
end

