-- ==== Sys2Proof/Machine/Slots.lean ====
section
/-! DEFINITION. Granary addresses, planes and request slots (R23, R205, R208 to R211): where an address lies, which source
holds which slots of a stack, and what a request needs to be admitted. -/
namespace Sys2Proof.Machine

/-! ## Granary addresses (Table 07-3) -/

def granaryBytes : Nat := 2 ^ 39

/-- Whether a range touches the reserved 1 GiB of any stack (R21, R205). -/
def hitsReserved (a n : Nat) : Bool :=
  (upto 8).any (fun k => overlap (a, n) (k * 2 ^ 36 + 0xFC0000000, 2 ^ 30))

/-- A range that a manifest or a record may name: within Granary, clear of the reserved 1 GiB. -/
def gaOk (a n : Nat) : Bool := decide (a + n ≤ granaryBytes) && !hitsReserved a n

def stackOf (ga : Nat) : Nat := ga / 2 ^ 36

/-- Channel and bank of a Granary address as 32 × channel + bank, and its row (Table 07-3). -/
def bankKey (ga : Nat) : Nat := 32 * field ga 10 6 + field ga 17 5
def rowKey (ga : Nat) : Nat := bankKey ga * 16384 + field ga 22 14

def stackAt (s : State) (k : Nat) : Stack := kvGet Stack.reset s.granStacks k
def setStack (s : State) (k : Nat) (x : Stack) : State := { s with granStacks := kvSet Stack.reset s.granStacks k x }

/-! ## Hedgerow planes (R23, R409) -/

/-- The plane that bits [13:12] of the target address select. -/
def planeOf (a : Nat) : Nat := field a 12 2

/-- The plane that a transfer of plane p uses at a die: the next one in service where the die's bridge of p is retired. -/
def planeAt (s : State) (die p : Nat) : Nat :=
  (((upto 4).map (fun i => (p + i) % 4)).find? (fun q => !s.reli.bridges.elem (die, q))).getD p

/-! ## Sources (Table 07-6) -/

/-- The source number of a requester. -/
def reqSource : SectorSource → Nat
  | .tiller t => srcTil t.til
  | .field f => 0x40000 + f.val
  | .headlandA _ => srcEngine
  | .headlandB => 0x50000
  | .scrub => 0x60000

/-- Whose slots a source number uses: a remote access those of the Headland whose port received it (R211). -/
def slotSource (src : Nat) : SectorSource :=
  if src < 0x10000 then (match tilOf (src - 1) with
    | some t => .tiller { til := t, n := 0 }
    | none => .headlandA false)
  else if src = srcAwn then .headlandA true
  else if src = 0x10001 ∨ src = 0x50000 ∨ src = srcStookB ∨ (0x20020 ≤ src ∧ src < 0x30000) then .headlandB
  else if src = 0x60000 then .scrub
  else if h : 0x40000 ≤ src ∧ src < 0x40008 then .field ⟨src - 0x40000, by omega⟩
  else .headlandA false

/-- The source of a request as the stack counts it: a Tiller of another Field comes through the Hedgerow. -/
def sourceClass (stack : Nat) : SectorSource → SectorSource
  | .tiller t => if t.til.field.val = stack then .tiller { til := t.til, n := 0 } else .field t.til.field
  | .headlandA _ => .headlandA false
  | x => x

/-- Slots reserved for a source (Table 07-6). -/
def reservedSlots (s : State) (stack : Nat) : SectorSource → Nat
  | .tiller t => if enabled s (tilKey t.til) then 32 else 0
  | .field f => if f.val = stack then 0 else 64
  | .headlandA _ => 512
  | .headlandB => 512
  | .scrub => 64

/-! ## Slots and banks in use (R208, R209): admitted requests, and stores held, whose sectors are still to be written -/

/-- Stores held that lie in a stack. -/
def heldIn (s : State) (k : Nat) : List HeldStore := s.held.filter (fun h => decide (stackOf h.ga = k))

def slotsUsed (s : State) (k : Nat) : Nat := (stackAt s k).admitted.length + (heldIn s k).length

def bankFull (s : State) (sec : Nat) : Bool :=
  let k := stackOf (64 * sec)
  let bk := bankKey (64 * sec)
  decide (64 ≤ ((stackAt s k).admitted.filter (fun a => decide (bankKey (64 * a.req.sector) = bk))).length
    + ((heldIn s k).filter (fun h => decide (bankKey h.ga = bk))).length)

def reservedFree (s : State) (k : Nat) (src : SectorSource) : Bool :=
  let c := sourceClass k src
  decide (((stackAt s k).admitted.filter (fun a => a.reserved && decide (sourceClass k a.req.source = c))).length
    + ((heldIn s k).filter (fun h => h.reserved && decide (sourceClass k (slotSource h.source) = c))).length
    < reservedSlots s k c)

def sharedFree (s : State) (k : Nat) : Bool :=
  decide (((stackAt s k).admitted.filter (fun a => !a.reserved)).length
    + ((heldIn s k).filter (fun h => !h.reserved)).length < 12288)

/-- A source has a slot of a stack to take: a reserved one, or one of the shared pool. -/
def slotFree (s : State) (k : Nat) (src : SectorSource) : Bool := reservedFree s k src || sharedFree s k

def sameSource (stack : Nat) (a b : SectorSource) : Bool := decide (sourceClass stack a = sourceClass stack b)

/-- An earlier request of the same source to the same sector still waits in the retry buffer. -/
def behindOwn (k : Nat) (l : List Retry) (src : SectorSource) (sec : Nat) : Bool :=
  l.any (fun q => sameSource k q.req.source src && decide (q.req.sector = sec))

/-- A row of a sector's bank is being copied to a spare: requests to the bank wait (R414). -/
def rowCopying (s : State) (sec : Nat) : Bool :=
  (stackAt s (stackOf (64 * sec))).rowWait.any (fun r => decide (r / 16384 = bankKey (64 * sec)))

/-! ## Waits for admission (R209, R210) -/

/-- What a wait has been counted as, brought up to date: at the bank limit in `OD A400:03`, for a shared slot in `OD A400:02`,
each once for a request. -/
def noteWait (s : State) (bank slot full room : Bool) : State × Bool × Bool :=
  if full then (if bank then s else bump s 0xA400 3 1, true, slot)
  else if room then (s, bank, slot)
  else (if slot then s else bump s 0xA400 2 1, bank, true)

/-- Requests of a stack that wait for a slot of the shared pool: whether Awn's, and since when. -/
def waitShared (s : State) (k : Nat) : List (Bool × Nat) :=
  let poor := fun (src : SectorSource) (sec : Nat) => !bankFull s sec && !rowCopying s sec && !reservedFree s k src
  ((stackAt s k).retry.filter (fun q => poor q.req.source q.req.sector)).map (fun q =>
      (decide (q.req.source = .headlandA true), q.since))
    ++ (s.slotWaits.filter (fun w => decide (stackOf (64 * w.sector) = k) && poor (slotSource w.source) w.sector)).map (fun w =>
      (decide (w.source = srcAwn), w.since))

/-- A slot of the shared pool goes to Awn's requests first and then to the oldest (R209). -/
def sharedTurn (s : State) (k : Nat) (awn : Bool) (since : Nat) : Bool :=
  !(waitShared s k).any (fun w => if w.1 = awn then decide (w.2 < since) else w.1)

/-- A request that has waited since a clock is admitted: its bank has room, and its source a slot (R209). -/
def admits (s : State) (src : SectorSource) (sec since : Nat) : Bool :=
  let k := stackOf (64 * sec)
  !bankFull s sec && (reservedFree s k src || (sharedFree s k && sharedTurn s k (decide (src = .headlandA true)) since))

end Sys2Proof.Machine
end

