-- ==== Sys2Proof/Machine/Memory.lean ====
section
/-! DEFINITION. Granary, translation and the accesses of a job (R205 to R215, R340, R410): where an address
lies, what an access meets, stores that are held, snoops, uncorrectable sectors, and the start of a rollback. -/
namespace Sys2Proof.Machine

def gran (s : State) (a n : Nat) : List Byte := readBytes s.granary a n
def granLe (s : State) (a n : Nat) : Nat := readLe s.granary a n

/-! ## Uncorrectable errors (R326, R410, R411, Table 10-4 steps 1 and 2) -/

/-- Whether step commit is enabled for a job (R325). -/
def commitOn (s : State) (job : Nat) : Bool := s.stook.step.isSome && decide (s.stook.job = job ∧ job ≠ 0)

/-- Stops what a job runs for a rollback: threads, stream contexts, the Awn descriptor, Sowing entries; the
Stook groups drop their tiles in progress. -/
def quiesce (s : State) (job : Nat) : State :=
  let tils := jobTils s job
  let s := tils.foldl endStreams (tils.foldl stopTiller s)
  let s := awnAbandon s job false
  let s := if s.sowing.holder = job then
      let t := s.sowing.flights.foldl (fun s f => dropClaims s (1, f.index, f.layer)) s
      dropWaits { t with sowing := { t.sowing with flights := [] } } srcEngine
    else s
  let s := s.stook.groups.foldl (fun s g => g.windows.foldl (fun s w => dropClaims s (5, g.cfg.gid, w.lam)) s) s
  let s := if s.rot.holder = job then dropWaits (dropClaims s (3, 0, 0)) srcRot else s
  let s := dropStook ([srcStook, srcStookB, srcJob].foldl dropWaits s)
  { s with stook := { s.stook with
    groups := s.stook.groups.map (fun g => { g with windows := [], held := [], partials := [] }),
    tree := s.stook.tree.filter (fun p => decide (p.1 = 3)), quiet := false, early := false, tasks := [] } }

/-- Round 2 has yielded 1, and the job engine has still to commit (R327). -/
def commitPending (s : State) : Bool := s.stook.tasks.any (fun t => decide (t = .commit))

/-- The module votes 0, or receives 0: rollback begins, after a commit that is still under way. -/
def beginRollback (s : State) : State :=
  let job := s.stook.job
  match slotOf s job with
  | none => s
  | some i =>
    if (jobAt s i).st ≠ 2 then s
    else if commitPending s then { s with stook := { s.stook with bad := true, badSinceVote := true } }
    else
      let s := bump (quiesce s job) 0xA580 8 1
      let s := boxAdd s none 0x0012 [job, s.stook.steps, setting s 0x5000 1, boolNat s.stook.bad]
      let s := setJob s i { jobAt s i with st := 3 }
      let round := if s.stook.commitState = 2 then 2 else 1
      treeZero { s with stook := { s.stook with commitState := 3, vote := some false } } job round

/-- A job has met an uncorrectable error or a failed transaction: the module votes rollback at once, or, its
vote being cast, in round 2; with commit not enabled the job ends with reason 0x21 (Table 14-2). -/
def unitError (s : State) (job : Nat) : State :=
  if commitOn s job then
    let s := { s with stook := { s.stook with bad := true, badSinceVote := true } }
    if s.stook.vote.isNone then beginRollback s else s
  else
    match slotOf s job with
    | some i => endJob s i 5 0x21 true true
    | none => s

/-- Lists an uncorrectable sector in `OD 7820`, where the list has room (R411). -/
def listBad (s : State) (sec : Nat) : State :=
  if s.reli.listed.elem sec ∨ 4096 ≤ s.reli.listed.length then s
  else { s with reli := { s.reli with listed := s.reli.listed ++ [sec] } }

/-- The uncorrectable sectors a range touches. -/
def badIn (s : State) (a n : Nat) : List Nat := s.reli.bad.filter (fun x => overlap (64 * x, 64) (a, n))

/-- A read of a range meets its uncorrectable sectors: they are listed. -/
def detectBad (s : State) (a n : Nat) : State := (badIn s a n).foldl listBad s

/-- A whole-sector write replaces an uncorrectable sector (R410, R411). -/
def heal (s : State) (sec : Nat) : State :=
  if s.reli.bad.elem sec || s.reli.listed.elem sec then
    { s with reli := { s.reli with bad := s.reli.bad.erase sec, listed := s.reli.listed.erase sec } }
  else s

/-! ## The directory of lines a host may hold (R340): a line's bits 0 and 1 say that port 0 or 1 may hold it,
bits 2 and 3 that it may hold it modified -/

def portCount (p : Nat) : Nat := 0xA640 + p

/-- Snoops a line on a port, once. -/
def snoopLine (s : State) (p line : Nat) (inv : Bool) : State :=
  if s.cxl.snoops.elem (p, line, inv) then s
  else
    let s := { s with cxl := { s.cxl with snoops := s.cxl.snoops ++ [(p, line, inv)] } }
    bump (emit s (.snoop p line inv)) (portCount p) 4 1

/-- Entries of the directory that a device access of a range must snoop. -/
def heldLines (s : State) (a n : Nat) (write : Bool) : List (Nat × Nat) :=
  s.cxl.directory.filter (fun e => overlap (64 * e.1, 64) (a, n) && (write || decide (4 ≤ e.2)))

/-- Before a device unit reads a line a host may hold modified, or writes a line a host may hold, it snoops:
true when nothing is left to wait for. -/
def snoopSpan (s : State) (a n : Nat) (write : Bool) : State × Bool :=
  let l := heldLines s a n write
  (l.foldl (fun s e => foldUpto 2 s (fun s p =>
      if bitAt e.2 p && (write || bitAt e.2 (p + 2)) then snoopLine s p e.1 write else s)) s,
   l.isEmpty)

/-- Snoops several ranges. -/
def snoopAll (s : State) (l : List (Nat × Nat)) (write : Bool) : State × Bool :=
  l.foldl (fun r x =>
    let q := snoopSpan r.1 x.1 x.2 write
    (q.1, r.2 && q.2)) (s, true)

/-! ## Translation (R213, R214, Table 07-8) -/

/-- A job's translation entry in force for a job address (R215). -/
def xent (j : Job) (ja : Nat) : Nat := kvGet 0 j.xlate (ja / 2097152)

def xKind (e : Nat) : Nat := field e 62 2
def xWrite (e : Nat) : Bool := bitAt e 61
def xModule (e : Nat) : Nat := field e 46 15
def xFrame (e : Nat) : Nat := field e 21 18 * 2097152
def xBarn (e : Nat) : Nat := field e 64 64

def xGa (e ja : Nat) : Nat := xFrame e + ja % 2097152

/-- Where one access within a granule goes, or the fault it meets (Tables 07-9 and 08-6). -/
inductive Place where
  | local (ga : Nat)
  | remote (mod ga : Nat)
  | fault (kind : Nat)
  deriving DecidableEq, Repr

def validGranule (s : State) (ga : Nat) : Bool := kvGet false s.valid (ga / 4096)

def placeRead (j : Job) (s : State) (ja : Nat) : Place :=
  let e := xent j ja
  match xKind e with
  | 1 => .local (xGa e ja)
  | 2 => if validGranule s (xGa e ja) then .local (xGa e ja) else .fault 3
  | 3 => .remote (xModule e) (xGa e ja)
  | _ => .fault 1

/-- The bale that covers a Granary address. -/
def baleAt (s : State) (ga : Nat) : Option Bale :=
  s.bales.find? (fun b => decide (b.ga ≤ ga ∧ ga < b.ga + b.len))

/-- A granule that a move up has yet to bring: a store to it is held (Table 07-12). -/
def arriving (s : State) (ga : Nat) : Bool :=
  match baleAt s ga with
  | some b => decide (b.st = .fetching) && !validGranule s ga
  | none => false

def placeWrite (j : Job) (s : State) (ja n : Nat) : Place :=
  let e := xent j ja
  if xKind e = 0 then .fault 1
  else if !xWrite e then .fault 2
  else if xKind e = 3 then .remote (xModule e) (xGa e ja)
  else if xKind e = 1 then .local (xGa e ja)
  else if validGranule s (xGa e ja) || n = 4096 || arriving s (xGa e ja) then .local (xGa e ja)
  else .fault 3

/-- Splits a range at multiples of m: (start, length); fuel bounds the pieces. -/
def splitAt (m : Nat) : Nat → Nat → Nat → List (Nat × Nat)
  | 0, _, _ => []
  | f + 1, a, n =>
    if n = 0 then []
    else
      let k := min n (m - a % m)
      (a, k) :: splitAt m f (a + k) (n - k)

def granules (a n : Nat) : List (Nat × Nat) := splitAt 4096 (n / 4096 + 2) a n
def sectors (a n : Nat) : List (Nat × Nat) := splitAt 64 (n / 64 + 2) a n

/-! ## Stores (R176, R207, R214, R221) -/

/-- A granule of a KIND 2 frame of some job: a store makes it dirty (R214, R215). -/
def barnFrame (s : State) (ga : Nat) : Bool :=
  (upto 4).any (fun i => decide ((jobAt s i).st ≠ 0) && (jobAt s i).xlate.any (fun p =>
    decide (xKind p.2 = 2 ∧ xFrame p.2 = ga / 2097152 * 2097152)))

def setBale (s : State) (b : Bale) : State :=
  { s with bales := s.bales.map (fun c => if c.ga = b.ga then b else c) }

/-- A store has been performed in a granule: it is dirty, and its clean bale becomes DIRTY. -/
def markDirty (s : State) (ga : Nat) : State :=
  if barnFrame s ga then
    let s := { s with dirty := kvSet false s.dirty (ga / 4096) true }
    match baleAt s ga with
    | some b => if b.st = .clean then setBale s { b with st := .dirty } else s
    | none => s
  else s

/-- Performs a store within one sector; true where the sector is uncorrectable and a partial write fails. -/
def performSector (s : State) (a : Nat) (b : List Byte) : State × Bool :=
  let whole := decide (a % 64 = 0 ∧ b.length = 64)
  let s := if whole then heal s (a / 64) else bump s 0xA400 12 1
  if !whole && s.reli.bad.elem (a / 64) then (listBad s (a / 64), true)
  else (markDirty { s with granary := writeBytes s.granary a b } a, false)

/-- The table of a latched Windrow: header and entries (R171). -/
def tableSpan (s : State) (ta : Nat) : Nat × Nat := (ta, 64 + 8 * granLe s ta 2)

/-- A store to a byte of a latched table, or of a granule still arriving, is held (R176, Table 07-12). -/
def latched (s : State) (a n : Nat) : Bool := s.latches.any (fun p => overlap (tableSpan s p.1) (a, n))

def holdStore (s : State) (src : Nat) (ctx : Option CtxId) (a : Nat) (b : List Byte) : State :=
  let h := s.held ++ [{ source := src, ga := a, bytes := b, ctx := ctx,
                        reserved := reservedFree s (stackOf a) (slotSource src) }]
  { s with held := h, heldMax := max s.heldMax h.length }

/-- Whether a store must be held: for a latched table, or for a granule still arriving. -/
def mustHold (s : State) (a n : Nat) : Bool := latched s a n || arriving s a

/-- An access waits for a held store of its own source to the same sector (R23, R178). -/
def heldFrom (s : State) (src a n : Nat) : Bool :=
  s.held.any (fun h => decide (h.source = src) && overlap (h.ga / 64 * 64, 64) (a, n))

/-! ## The controllers (R23, R194, R207, R414): which requests of a channel may be served next -/

def reqBank (r : SectorReq) : Nat := bankKey (64 * r.sector)

def isAwnReq (r : SectorReq) : Bool := decide (r.source = .headlandA true)

/-- An admitted request of the same source to the same sector. -/
def ownAhead (s : State) (k : Nat) (src : SectorSource) (sec below : Nat) : Bool :=
  (stackAt s k).admitted.any (fun b => decide (b.id < below ∧ b.req.sector = sec) && sameSource k b.req.source src)

/-- What an admitted request waits for itself: an earlier one of its source to the sector, its source's held store, or room
among the stores held (R23, R178). -/
def reqBlocked (s : State) (k : Nat) (a : Admitted) : Bool :=
  let r := a.req
  let src := reqSource r.source
  let n := (r.data.take (64 - r.first)).length
  ownAhead s k r.source r.sector a.id
    || (if r.write then
          (mustHold s (64 * r.sector + r.first) n || heldFrom s src (64 * r.sector) 64) && decide (1024 ≤ s.held.length)
        else heldFrom s src (64 * r.sector) 64)

/-- Of the requests that a channel may serve, those that may be next: the oldest alone once it has waited 256 clocks; otherwise
the direction changes after 32 sectors, row hits go before row misses, and an Awn request goes before a Tiller's of its class:
DESIGN CHOICE (log entry 82), one of its direction among those of the same row-hit rank. -/
def serveNext (s : State) (k chan : Nat) (l : List Admitted) : List Admitted :=
  let x := stackAt s k
  match l.filter (fun a => decide (a.since + 256 ≤ granaryNow s k)) with
  | a :: _ => [a]
  | [] =>
    let run := kvGet (0, false) x.runs chan
    let l := if 32 ≤ run.1 && l.any (fun a => a.req.write != run.2) then l.filter (fun a => a.req.write != run.2) else l
    let hit := fun (a : Admitted) => decide (kvGet 0 x.openRow (reqBank a.req) = field (64 * a.req.sector) 22 14 + 1)
    let l := if l.any hit then l.filter hit else l
    l.filter (fun a => match a.req.source with
      | .tiller _ => !l.any (fun b => isAwnReq b.req && decide (b.req.write = a.req.write))
      | .field _ => !l.any (fun b => isAwnReq b.req && decide (b.req.write = a.req.write))
      | _ => true)

/-- Admitted requests of a channel that wait for nothing but their turn. -/
def unblocked (s : State) (k chan : Nat) : List Admitted :=
  (stackAt s k).admitted.filter (fun a =>
    decide (reqBank a.req / 32 = chan) && !rowCopying s a.req.sector && !reqBlocked s k a)

/-- The requests that a controller may serve next on a channel. -/
def servable (s : State) (k chan : Nat) : List Admitted := serveNext s k chan (unblocked s k chan)

/-- A channel has transferred one more sector. -/
def runOn (x : Stack) (chan : Nat) (write : Bool) : Stack :=
  let run := kvGet (0, false) x.runs chan
  { x with runs := kvSet (0, false) x.runs chan (if run.2 = write then run.1 + 1 else 1, write) }

/-! ## Sector requests of units: admitted and performed in one act (R208 to R211) -/

/-- A sector request of a unit can be admitted and performed now: it is next on its channel among the admitted ones. -/
def canEnter (s : State) (src sec : Nat) (write : Bool) : Bool :=
  let k := stackOf (64 * sec)
  let x := stackAt s k
  let c := slotSource src
  let now := granaryNow s k
  let since := ((s.slotWaits.find? (fun w => decide (w.source = src ∧ w.sector = sec))).map (·.since)).getD now
  let a : Admitted :=
    { id := x.nextId, req := { source := c, sector := sec, write := write, first := 0, data := [] }, reserved := true, since := now }
  !rowCopying s sec && !behindOwn k x.retry c sec && !ownAhead s k c sec x.nextId && admits s c sec since
    && (serveNext s k (reqBank a.req / 32) (unblocked s k (reqBank a.req / 32) ++ [a])).any (fun b => decide (b.id = x.nextId))

/-- A unit's sector request waits for admission in its source's retry buffer, which holds 64 for a stack; others wait at their
source (R209). -/
def waitEnter (s : State) (src sec : Nat) (write : Bool) : State :=
  if canEnter s src sec write then s
  else
    let k := stackOf (64 * sec)
    let mine := fun (w : SlotWait) => decide (w.source = src ∧ w.sector = sec)
    let note := fun (bank slot : Bool) => noteWait s bank slot (bankFull s sec) (slotFree s k (slotSource src))
    match s.slotWaits.find? mine with
    | some w =>
      let n := note w.bank w.slot
      { n.1 with slotWaits := n.1.slotWaits.map (fun v => if mine v then { v with bank := n.2.1, slot := n.2.2 } else v) }
    | none =>
      if 64 ≤ (s.slotWaits.filter (fun w => decide (w.source = src ∧ stackOf (64 * w.sector) = k))).length then s
      else
        let n := note false false
        { n.1 with slotWaits := n.1.slotWaits ++
          [{ source := src, sector := sec, bank := n.2.1, slot := n.2.2, since := granaryNow s k }] }

/-- A unit's sector request is admitted and performed: it opens its row. -/
def enter (s : State) (src sec : Nat) (write : Bool) : State :=
  let k := stackOf (64 * sec)
  let x := stackAt s k
  let bk := bankKey (64 * sec)
  let s := setStack s k (runOn { x with openRow := kvSet 0 x.openRow bk (field (64 * sec) 22 14 + 1) } (bk / 32) write)
  bump { s with slotWaits := s.slotWaits.filter (fun w => !decide (w.source = src ∧ w.sector = sec)) } 0xA400 1 1

/-- A unit has read a range: its sectors were admitted. -/
def entered (s : State) (src a n : Nat) : State :=
  foldUpto ((a + n + 63) / 64 - a / 64) s (fun s i => enter s src (a / 64 + i) false)

/-- Reads or writes of ranges by a unit whose sectors are all admitted now; those that are not wait (R209). -/
def sectorGate (s : State) (src : Nat) (l : List (Nat × Nat)) (write : Bool) : State × Bool :=
  let secs := l.flatMap (fun p => (sectors p.1 p.2).map (fun q => q.1 / 64))
  if secs.all (fun x => canEnter s src x write) then (s, true) else (secs.foldl (fun s x => waitEnter s src x write) s, false)

/-- They are admitted and performed (R208). -/
def enterAll (s : State) (src : Nat) (l : List (Nat × Nat)) (write : Bool) : State :=
  l.foldl (fun s p => (sectors p.1 p.2).foldl (fun s q => enter s src (q.1 / 64) write) s) s

/-! ## Stores -/

/-- One store of a unit within one sector: one behind a held store of its source to the sector is held too (R23). -/
def storeSector (src : Nat) (ctx : Option CtxId) (r : State × Bool) (a : Nat) (b : List Byte) : State × Bool :=
  if latched r.1 a b.length then (bump (holdStore r.1 src ctx a b) 0xA480 1 1, r.2)
  else if arriving r.1 a || heldFrom r.1 src a b.length then (holdStore r.1 src ctx a b, r.2)
  else
    let q := performSector r.1 a b
    (q.1, r.2 || q.2)

/-- The job whose unit a source of stores is; 0 for a port and for another die's. -/
def storeJob (s : State) (src : Nat) : Nat :=
  if src < 0x10000 then jobOfTil s (src - 1)
  else if src = srcEngine then s.sowing.holder
  else if src = srcAwn then s.awn.holder
  else if src = srcRot then s.rot.holder
  else if src = srcStook ∨ src = srcStookB ∨ src = srcJob then
    (if s.stook.job ≠ 0 then s.stook.job else (s.stook.groups.head?.map (·.job)).getD 0)
  else if srcSlot 0 ≤ src ∧ src < srcSlot 4 then (jobAt s (src - srcSlot 0)).man.job
  else 0

/-- A held store has failed: its unit's job meets the uncorrectable sector, or its port is still to answer for it (R410). -/
def heldFails (s : State) (h : HeldStore) : State :=
  if storeJob s h.source = 0 then { s with heldFailed := s.heldFailed ++ [(h.source, h.ga / 64)] }
  else unitError s (storeJob s h.source)

/-- A held store of the same source to the same sector, before this one (R23). -/
def heldBefore (s : State) (h : HeldStore) : Bool :=
  (s.held.takeWhile (fun g => decide (g ≠ h))).any (fun g => decide (g.source = h.source ∧ g.ga / 64 = h.ga / 64))

/-- The copies of hosts that a held store must snoop: a port's own store leaves its own copy alone. -/
def heldSnoop (s : State) (h : HeldStore) : State × Bool :=
  let l := (heldLines s h.ga h.bytes.length true).filter (fun e =>
    (upto 2).any (fun p => bitAt e.2 p && decide (h.source ≠ srcCxl p)))
  (l.foldl (fun s e => foldUpto 2 s (fun s p =>
      if bitAt e.2 p && decide (h.source ≠ srcCxl p) then snoopLine s p e.1 true else s)) s, l.isEmpty)

/-- Performs, in the order they arrived, the held stores that may now be performed. -/
def performHeld (s : State) : State :=
  s.held.foldl (fun s h =>
    if mustHold s h.ga h.bytes.length || heldBefore s h then s
    else
      let g := heldSnoop s h
      if !g.2 then g.1
      else
        let q := performSector { g.1 with held := g.1.held.erase h } h.ga h.bytes
        if q.2 then heldFails q.1 h else q.1) s

def sectorsOf (a : Nat) (b : List Byte) : List (Nat × List Byte) :=
  (sectors a b.length).map (fun p => (p.1, (b.drop (p.1 - a)).take p.2))

/-- A store of bytes, sector by sector; true where it met an uncorrectable sector (R410). -/
def store (s : State) (src : Nat) (ctx : Option CtxId) (a : Nat) (b : List Byte) : State × Bool :=
  (sectorsOf a b).foldl (fun r p => storeSector src ctx (enter r.1 src (p.1 / 64) true, r.2) p.1 p.2) (performHeld s, false)

/-- Whether every sector of some stores is admitted now, and those that must be held leave at most 1 024 held (R178, R209). -/
def storeFits (s : State) (src : Nat) (ws : List (Nat × List Byte)) : Bool :=
  ((ws.flatMap (fun w => sectorsOf w.1 w.2)).foldl (fun (r : State × Bool) p =>
    let ok := r.2 && canEnter r.1 src (p.1 / 64) true
    if mustHold r.1 p.1 p.2.length || heldFrom r.1 src p.1 p.2.length then (holdStore r.1 src none p.1 p.2, ok && decide (r.1.held.length < 1024))
    else (r.1, ok)) (performHeld s, true)).2

/-- Admission of some stores, and room for those that must be held: true when nothing is left to wait for. -/
def roomGate (s : State) (src : Nat) (ws : List (Nat × List Byte)) : State × Bool :=
  if storeFits s src ws then (s, true)
  else ((ws.flatMap (fun w => sectorsOf w.1 w.2)).foldl (fun s p => waitEnter s src (p.1 / 64) true) s, false)

/-- What a unit's stores wait for before they are performed: copies of hosts (R340), admission (R209) and room for those to
be held (R178). True when nothing is left to wait for. -/
def storeGate (s : State) (src : Nat) (ws : List (Nat × List Byte)) : State × Bool :=
  let q := snoopAll s (ws.map (fun w => (w.1, w.2.length))) true
  if !q.2 then q else roomGate q.1 src ws

/-! ## Accesses of a job -/

/-- What a read of a job address range meets. -/
inductive Got where
  | ok (bytes : List Byte)
  | fault (kind ja : Nat)
  /-- remote lines (job address / 64) that have not been read yet -/
  | remote (lines : List Nat)
  /-- a snoop, a held store or admission is waited for -/
  | wait (s : State)
  /-- an uncorrectable sector, listed -/
  | bad (s : State)
  deriving DecidableEq, Repr

/-- A read of Granary by a device unit; `entered` counts its sectors once its bytes are taken. -/
def localRead (s : State) (src ga n : Nat) : Got :=
  let q := snoopSpan s ga n false
  let secs := (sectors ga n).map (fun p => p.1 / 64)
  if !q.2 then .wait q.1
  else if heldFrom s src ga n then .wait s
  else if !secs.all (fun x => canEnter s src x false) then .wait (secs.foldl (fun s x => waitEnter s src x false) s)
  else if (badIn s ga n).isEmpty then .ok (gran s ga n)
  else .bad (detectBad (entered s src ga n) ga n)

/-- The sectors of a job address range that lie in this module's Granary have been read. -/
def jobEntered (s : State) (job src ja n : Nat) : State :=
  (granules ja n).foldl (fun s p => match placeRead (jobOf s job) s p.1 with
    | .local ga => entered s src ga p.2
    | _ => s) s

/-- Bytes of remote lines already read. -/
def fromCache (cache : KV (List Byte)) (ja n : Nat) : Got :=
  let ls := (upto ((ja % 64 + n + 63) / 64)).map (fun i => ja / 64 + i)
  let miss := ls.filter (fun l => (kvFind cache l).isNone)
  if miss.isEmpty then .ok (((ls.flatMap (fun l => padTo 64 (kvGet [] cache l))).drop (ja % 64)).take n)
  else .remote miss

/-- Reads a job address range granule by granule; the first obstacle is the answer. -/
def jobRead (s : State) (job src : Nat) (cache : KV (List Byte)) (ja n : Nat) : Got :=
  let j := jobOf s job
  (granules ja n).foldl (fun g p =>
    match g with
    | .ok b =>
      let r : Got := match placeRead j s p.1 with
        | .fault k => .fault k p.1
        | .local ga => localRead s src ga p.2
        | .remote _ _ => fromCache cache p.1 p.2
      match r with
      | .ok c => .ok (b ++ c)
      | r => r
    | .remote l =>
      match placeRead j s p.1 with
      | .fault k => .fault k p.1
      | .remote _ _ =>
        match fromCache cache p.1 p.2 with
        | .remote m => .remote (l ++ m)
        | _ => .remote l
      | .local _ => .remote l
    | g => g) (.ok [])

/-- Where the granules of a write go: local stores, and remote writes (module, address, bytes). -/
inductive Put where
  | fault (kind ja : Nat)
  | go (locals : List (Nat × List Byte)) (remotes : List (Nat × Nat × List Byte))
  deriving DecidableEq, Repr

def jobPut (s : State) (job ja : Nat) (b : List Byte) : Put :=
  let j := jobOf s job
  (granules ja b.length).foldl (fun g p =>
    match g with
    | .fault k a => .fault k a
    | .go ls rs =>
      let c := (b.drop (p.1 - ja)).take p.2
      match placeWrite j s p.1 p.2 with
      | .fault k => .fault k p.1
      | .local ga => .go (ls ++ [(ga, c)]) rs
      | .remote m ga => .go ls (rs ++ [(m, ga, c)])) (.go [] [])

/-- Performs the local stores of a write; a whole-granule write makes its granule valid (Table 07-9). -/
def putLocal (s : State) (src : Nat) (ctx : Option CtxId) (ls : List (Nat × List Byte)) : State × Bool :=
  ls.foldl (fun r p =>
    let s := if p.2.length = 4096 ∧ barnFrame r.1 p.1 = true ∧ arriving r.1 p.1 = false then
        { r.1 with valid := kvSet false r.1.valid (p.1 / 4096) true }
      else r.1
    let q := store s src ctx p.1 p.2
    (q.1, r.2 || q.2)) (s, false)

end Sys2Proof.Machine
end

