-- ==== Sys2Proof/Machine/Granary.lean ====
section
/-! DEFINITION. The Granary controllers (R205 to R210, R411 to R414): admission of sector requests to slots,
the accesses they perform, refresh, corrections, and the rows and banks that wait for repair. -/
namespace Sys2Proof.Machine

/-! ## Corrections and uncorrectable sectors (R411, R412, R414) -/

/-- Spare rows of a bank that are used or spoken for. -/
def rowsTaken (x : Stack) (bk : Nat) : Nat :=
  kvGet 0 x.rowsUsed bk + (x.rowWait.filter (fun r => decide (r / 16384 = bk))).length

/-- Whether the spare bank of a bank's channel is used or being filled. -/
def bankSpareTaken (x : Stack) (bk : Nat) : Bool := (x.bankCopy ++ x.bankSpared).any (fun b => decide (b / 32 = bk / 32))

/-- The row of a Granary address needs repair: a spare row is copied to, or the bank is spared when it has no
spare row left or more than 4 of its rows have failed in this pass (R414). -/
def rowFails (s : State) (ga : Nat) : State :=
  let k := stackOf ga
  let x := stackAt s k
  let bk := bankKey ga
  if x.rowWait.elem (rowKey ga) then s
  else
    let n := kvGet 0 x.rowsFailedInPass bk + 1
    let x := { x with rowsFailedInPass := kvSet 0 x.rowsFailedInPass bk n }
    if (16 ≤ rowsTaken x bk ∨ 4 < n) ∧ bankSpareTaken x bk = false then
      setStack s k { x with bankCopy := x.bankCopy ++ [bk] }
    else if rowsTaken x bk < 16 then setStack s k { x with rowWait := x.rowWait ++ [rowKey ga] }
    else setStack s k x

/-- Sectors of a row that have been corrected since the pass began. -/
def rowCorrected (x : Stack) (row : Nat) : Nat := (x.corrected.filter (fun sec => decide (rowKey (64 * sec) = row))).length

/-- The most bytes that a sector's code corrects (R408). -/
def codeBytes : Nat := 2

/-- A sector's code corrected bytes: the counts of its stack and of the module, and the row's repair at the threshold of
`OD 7813:01`. -/
def correctSector (s : State) (ga bytes : Nat) : State :=
  let n := min bytes codeBytes
  let s := bump (bump s 0x7880 1 n) 0x7880 2 1
  let k := stackOf ga
  let x := stackAt s k
  let x := { x with corrBytes := x.corrBytes + n, corrSectors := x.corrSectors + 1,
                    corrected := if x.corrected.elem (ga / 64) then x.corrected else x.corrected ++ [ga / 64] }
  let s := setStack s k x
  if setting s 0x7813 1 ≤ rowCorrected x (rowKey ga) then rowFails s ga else s

/-- A sector is found uncorrectable for a requester and its job (Table 14-6); one found while the list is full is counted
(R411). -/
def spoil (s : State) (sec requester job : Nat) : State :=
  if s.reli.bad.elem sec then listBad s sec
  else
    let s := bump { s with reli := { s.reli with bad := s.reli.bad ++ [sec] } } 0x7880 3 1
    let s := if 4096 ≤ s.reli.listed.length ∧ s.reli.listed.elem sec = false then bump s 0x7880 4 1 else s
    let s := boxAdd s none 0x0010 [1, 64 * sec, requester, job]
    rowFails (listBad s sec) (64 * sec)

/-- What the code finds in a sector that is read: whether its data may be delivered. -/
def senseSector (s : State) (sec : Nat) (e : CodeResult) (requester job : Nat) : State × Bool :=
  if s.reli.bad.elem sec then (listBad s sec, false)
  else match e with
    | .clean => (s, true)
    | .corrected n => (correctSector s (64 * sec) n, true)
    | .uncorrectable => (spoil s sec requester job, false)

/-! ## Admission (R208, R209, Table 07-6) -/

/-- Gives a request a slot. -/
def takeSlot (s : State) (k : Nat) (r : SectorReq) : State :=
  let x := stackAt s k
  let a : Admitted := { id := x.nextId, req := r, reserved := reservedFree s k r.source, since := granaryNow s k }
  bump (setStack s k { x with nextId := x.nextId + 1, admitted := x.admitted ++ [a] }) 0xA400 1 1

/-- Sector requests outstanding whose sources are among some. -/
def requestsOf (s : State) (p : SectorSource → Bool) : Nat :=
  foldUpto 8 0 (fun n k => n + ((stackAt s k).admitted.filter (fun a => p a.req.source)).length
    + ((stackAt s k).retry.filter (fun q => p q.req.source)).length)

/-- Those of a Tiller, and those of a thread (Table 03-8). -/
def tillerRequests (s : State) (t : Tid) : Nat :=
  requestsOf s (fun c => match c with
    | .tiller u => decide (u.til = t)
    | _ => false)

def threadRequests (s : State) (t : Thr) : Nat := requestsOf s (fun c => decide (c = .tiller t))

/-- Remote sector requests of a Tiller's contexts that have not been answered: lines asked for, and sectors of remote writes
(R247). -/
def contextAsked (s : State) (p : Nat → Ctx → Bool) (t : Tid) : Nat :=
  ((til s t).ctxs.filter (fun c => p c.1 c.2)).foldl (fun n c => n + c.2.asked.length) 0
    + (s.links.trans.filter (fun x => match x.owner with
        | .streamWrite c => decide (c.til = t) && p c.ctx.val (kvGet Ctx.reset (til s t).ctxs c.ctx.val)
        | _ => false)).foldl (fun n x => n + x.sectors) 0

/-- Stores of a Tiller's contexts that are held: their sectors are still to be written (R178, R208). -/
def contextHeld (s : State) (p : Nat → Ctx → Bool) (t : Tid) : Nat :=
  (s.held.filter (fun h => match h.ctx with
    | some c => decide (c.til = t) && p c.ctx.val (kvGet Ctx.reset (til s t).ctxs c.ctx.val)
    | none => false)).length

/-- Every sector request of a Tiller outstanding, and of a thread (Table 03-8). -/
def tillerAll (s : State) (t : Tid) : Nat :=
  tillerRequests s t + contextAsked s (fun _ _ => true) t + contextHeld s (fun _ _ => true) t

def threadAll (s : State) (t : Thr) : Nat :=
  let own := fun (_ : Nat) (x : Ctx) => decide (x.thread = t.n.val)
  threadRequests s t + contextAsked s own t.til + contextHeld s own t.til

/-- A source that may not issue one more request: a Tiller with 512 outstanding, a thread with 64, or a source whose retry
buffer holds 64. -/
def sourceFull (s : State) (k : Nat) (r : SectorReq) : Bool :=
  decide (64 ≤ ((stackAt s k).retry.filter (fun q => sameSource k q.req.source r.source)).length) ||
  (match r.source with
    | .tiller t => decide (512 ≤ tillerAll s t.til ∨ 64 ≤ threadAll s t)
    | _ => false)

/-- Counts the waits of a stack's retry buffers as they now stand. -/
def noteRetries (s : State) (k : Nat) : State :=
  let q := (stackAt s k).retry.foldl (fun (a : State × List Retry) w =>
    let n := noteWait a.1 w.bank w.slot (bankFull s w.req.sector) (slotFree s k w.req.source)
    (n.1, a.2 ++ [{ w with bank := n.2.1, slot := n.2.2 }])) (s, [])
  setStack q.1 k { stackAt q.1 k with retry := q.2 }

/-- GRANARY_REQUEST_ADMITTED: the request is admitted, or waits in its source's retry buffer; a source with no room for it
there, and a Tiller with 512 requests outstanding, waits at issue. -/
def execGranaryRequestAdmitted (r : SectorReq) (s : State) : Answer :=
  if 2 ^ 33 ≤ r.sector then .fault .noSuchAddress
  else
    let k := stackOf (64 * r.sector)
    let x := stackAt s k
    if !granaryOn s || sourceFull s k r then .next s
    else if admits s r.source r.sector (granaryNow s k) && !behindOwn k x.retry r.source r.sector then .next (takeSlot s k r)
    else .next (noteRetries (setStack s k { x with
      retry := x.retry ++ [{ req := r, bank := false, slot := false, since := granaryNow s k }] }) k)

/-- Admits one request of the retry buffers that can be: Awn requests first, then the oldest. -/
def admitOne (s : State) (k : Nat) : State :=
  let x := stackAt s k
  let can := fun (p : Retry × Nat) =>
    admits s p.1.req.source p.1.req.sector p.1.since && !behindOwn k (x.retry.take p.2) p.1.req.source p.1.req.sector
  let ok := (x.retry.zip (upto x.retry.length)).filter can
  match (ok.filter (fun p => isAwnReq p.1.req)) ++ ok with
  | [] => s
  | p :: _ => takeSlot (setStack s k { x with retry := x.retry.take p.2 ++ x.retry.drop (p.2 + 1) }) k p.1.req

/-- Admits every request of the retry buffers that can be, and counts what the others wait for. -/
def admitAll (s : State) (k : Nat) : State := noteRetries (iter (fun s => admitOne s k) (stackAt s k).retry.length s) k

/-! ## The access (R194, R207, R340, R410) -/

/-- The job of a requester that names one: a Tiller's, or the Awn engine's. -/
def reqJob (s : State) : SectorSource → Nat
  | .tiller t => (til s t.til).job
  | .headlandA true => s.awn.holder
  | _ => 0

/-- Performs an admitted request: a partial write reads its sector first. -/
def performReq (s : State) (k : Nat) (a : Admitted) (e : CodeResult) : State :=
  let r := a.req
  let data := r.data.take (64 - r.first)
  let whole := r.write && decide (r.first = 0 ∧ data.length = 64)
  let src := reqSource r.source
  let q := if whole then (s, true) else senseSector s r.sector e src (reqJob s r.source)
  if !q.2 then
    if reqJob s r.source = 0 then q.1 else unitError q.1 (reqJob s r.source)
  else if r.write then (storeSector src none (q.1, false) (64 * r.sector + r.first) data).1
  else
    let x := stackAt q.1 k
    setStack q.1 k { x with returned := (a.id, gran q.1 (64 * r.sector) 64) :: x.returned }

/-- GRANARY_SECTOR_ACCESS: the controller performs an admitted request that it may serve next, opening its row; a host's copy of
the line is snooped first. -/
def execGranarySectorAccess (stack : Fin 8) (id : Nat) (e : CodeResult) (s : State) : Answer :=
  let k := stack.val
  match (stackAt s k).admitted.find? (fun a => decide (a.id = id)) with
  | none => .next s
  | some a =>
    let r := a.req
    if !granaryOn s || !(servable s k (reqBank r / 32)).any (fun b => decide (b.id = id)) then .next s
    else
      let q := if r.source = .scrub then (s, true) else snoopSpan s (64 * r.sector) 64 r.write
      if !q.2 then .next q.1
      else
        let x := stackAt q.1 k
        let s := setStack q.1 k (runOn { x with
          admitted := x.admitted.filter (fun b => decide (b.id ≠ id)),
          openRow := kvSet 0 x.openRow (reqBank r) (field (64 * r.sector) 22 14 + 1) } (reqBank r / 32) r.write)
        .next (admitAll (performReq s k a e) k)

/-- Whether a request is queued for a bank. -/
def bankQueued (x : Stack) (bk : Nat) : Bool :=
  x.admitted.any (fun a => decide (reqBank a.req = bk)) || x.retry.any (fun q => decide (reqBank q.req = bk))

/-- The bank has had its refresh in its channel's round; the round ends with its last bank. -/
def refreshBank (x : Stack) (bk : Nat) : Stack :=
  let l := if x.refreshed.elem bk then x.refreshed else x.refreshed ++ [bk]
  let done := (upto 32).all (fun i => l.elem (bk / 32 * 32 + i))
  { x with refreshed := if done then l.filter (fun b => decide (b / 32 ≠ bk / 32)) else l, openRow := kvSet 0 x.openRow bk 0 }

/-- BANK_REFRESH: while its controller runs, the refresh closes the bank's row (R206). A bank with a queued request waits for those of its channel that
have none and are still to be refreshed in this round (R207). -/
def execBankRefresh (b : BankId) (s : State) : Answer :=
  let k := b.stack.val
  let x := stackAt s k
  let bk := 32 * b.channel.val + b.bank.val
  let others := (upto 32).any (fun i =>
    let o := 32 * b.channel.val + i
    !x.refreshed.elem o && !bankQueued x o)
  if !granaryOn s || (bankQueued x bk && others) then .next s else .next (setStack s k (refreshBank x bk))

end Sys2Proof.Machine
end

