-- ==== Sys2Proof/Machine/Scalar.lean ====
section
/-! DEFINITION. The scalar instructions of the Culm core (R107 to R113, Tables 04-1 and 04-2): arithmetic,
FP32, immediates, loads and stores, branches, FENCE, HALT and RDID. -/
namespace Sys2Proof.Machine

/-! ## Instruction words (Table 04-1): what the record of a refused instruction holds (R125) -/

def wordA (major : Nat) (rd ra rb : Reg) (fn : Nat) : Nat :=
  major * 2 ^ 27 + rd.toNat * 2 ^ 22 + ra.toNat * 2 ^ 17 + rb.toNat * 2 ^ 12 + fn

def wordI (major : Nat) (rd ra : Reg) (imm : Nat) : Nat :=
  major * 2 ^ 27 + rd.toNat * 2 ^ 22 + ra.toNat * 2 ^ 17 + imm

def wordM (major : Nat) (rd ra : Reg) (size : BitVec 2) (off : BitVec 15) : Nat :=
  major * 2 ^ 27 + rd.toNat * 2 ^ 22 + ra.toNat * 2 ^ 17 + size.toNat * 2 ^ 15 + off.toNat

/-! ## Issue -/

/-- Whether n bytes at the thread's pc lie, aligned, in the 64 KiB program store (R107, R110, log entry 7). -/
def pcOk (x : Thread) (n : Nat) : Bool := decide (x.pc.toNat % n = 0 ∧ x.pc.toNat + n ≤ 65536)

/-- Issues a scalar instruction of thread t: nothing happens where the thread cannot issue; a pc outside the
store and a bad field refuse it; otherwise body acts. -/
def issueScalar (s : State) (t : Thr) (word : Nat) (regs : List Reg) (bad : Option Nat)
    (body : State → State) : State :=
  if !canIssue s t regs then s
  else if !pcOk (thread s t) 4 then refuseScalar s t word 0x05
  else match bad with
    | some r => refuseScalar s t word r
    | none => body (settle s (tilKey t.til) t.n.val)

/-- Writes rd and moves past the instruction. -/
def result (s : State) (t : Thr) (rd : Reg) (v : Word64) : State :=
  advance (setThread s t (setReg (thread s t) rd v)) t 4

/-- A reserved register field that is not zero (R112): reason 0x02. -/
def reservedRegs (rs : List Reg) : Option Nat := if rs.all (fun r => decide (r = 0)) then none else some 0x02

/-- A register operation of major 0x00. -/
def alu (s : State) (t : Thr) (rd ra rb : Reg) (fn : Nat) (f : Word64 → Word64 → Word64) : Answer :=
  .next (issueScalar s t (wordA 0 rd ra rb fn) [rd, ra, rb] none (fun s =>
    let x := thread s t
    result s t rd (f (reg x ra) (reg x rb))))

def boolWord (b : Bool) : Word64 := if b then 1 else 0

def shiftOf (w : Word64) : Nat := w.toNat % 64

def execAdd (t : Thr) (rd ra rb : Reg) (s : State) : Answer := alu s t rd ra rb 0x000 (fun a b => a + b)
def execSub (t : Thr) (rd ra rb : Reg) (s : State) : Answer := alu s t rd ra rb 0x001 (fun a b => a - b)
def execAnd (t : Thr) (rd ra rb : Reg) (s : State) : Answer := alu s t rd ra rb 0x002 (fun a b => a &&& b)
def execOr (t : Thr) (rd ra rb : Reg) (s : State) : Answer := alu s t rd ra rb 0x003 (fun a b => a ||| b)
def execXor (t : Thr) (rd ra rb : Reg) (s : State) : Answer := alu s t rd ra rb 0x004 (fun a b => a ^^^ b)
def execShl (t : Thr) (rd ra rb : Reg) (s : State) : Answer :=
  alu s t rd ra rb 0x005 (fun a b => a <<< shiftOf b)
def execShr (t : Thr) (rd ra rb : Reg) (s : State) : Answer :=
  alu s t rd ra rb 0x006 (fun a b => a >>> shiftOf b)
def execSar (t : Thr) (rd ra rb : Reg) (s : State) : Answer :=
  alu s t rd ra rb 0x007 (fun a b => a.sshiftRight (shiftOf b))
def execMul (t : Thr) (rd ra rb : Reg) (s : State) : Answer := alu s t rd ra rb 0x008 (fun a b => a * b)
def execMulhu (t : Thr) (rd ra rb : Reg) (s : State) : Answer :=
  alu s t rd ra rb 0x009 (fun a b => BitVec.ofNat 64 (a.toNat * b.toNat / 2 ^ 64))
/-- A division by zero gives all ones. -/
def execDivu (t : Thr) (rd ra rb : Reg) (s : State) : Answer :=
  alu s t rd ra rb 0x00A (fun a b => if b = 0 then BitVec.allOnes 64 else BitVec.ofNat 64 (a.toNat / b.toNat))
/-- A remainder by zero gives ra. -/
def execRemu (t : Thr) (rd ra rb : Reg) (s : State) : Answer :=
  alu s t rd ra rb 0x00B (fun a b => if b = 0 then a else BitVec.ofNat 64 (a.toNat % b.toNat))
def execMinu (t : Thr) (rd ra rb : Reg) (s : State) : Answer :=
  alu s t rd ra rb 0x00C (fun a b => if a.toNat ≤ b.toNat then a else b)
def execMaxu (t : Thr) (rd ra rb : Reg) (s : State) : Answer :=
  alu s t rd ra rb 0x00D (fun a b => if a.toNat ≤ b.toNat then b else a)
def execSlt (t : Thr) (rd ra rb : Reg) (s : State) : Answer :=
  alu s t rd ra rb 0x00E (fun a b => boolWord (decide (a.toInt < b.toInt)))
def execSltu (t : Thr) (rd ra rb : Reg) (s : State) : Answer :=
  alu s t rd ra rb 0x00F (fun a b => boolWord (decide (a.toNat < b.toNat)))
def execSeq (t : Thr) (rd ra rb : Reg) (s : State) : Answer :=
  alu s t rd ra rb 0x010 (fun a b => boolWord (decide (a = b)))

/-- Goes to an address and links the return address in rd (Table 04-2). -/
def jumpTo (s : State) (t : Thr) (rd : Reg) (dest : Word64) : State :=
  let x := thread s t
  issued (setThread s t { setReg x rd (x.pc + 4) with pc := dest }) t

def execJr (t : Thr) (rd ra rb : Reg) (s : State) : Answer :=
  .next (issueScalar s t (wordA 0 rd ra rb 0x020) [rd, ra, rb] (reservedRegs [rb]) (fun s =>
    jumpTo s t rd (reg (thread s t) ra)))

/-! ## FP32 on bits [31:0]; the upper half of an FP32 result is a free value (log entry 2) -/

def lo32 (w : Word64) : Word32 := w.setWidth 32

/-- An FP32 result under free upper bits. -/
def result32 (s : State) (t : Thr) (rd : Reg) (v : Word32) : State :=
  let d := drawFree s
  result d.2 t rd (BitVec.ofNat 64 (d.1 % 2 ^ 32 * 2 ^ 32 + v.toNat))

def fpu (s : State) (t : Thr) (rd ra rb : Reg) (fn : Nat) (f : Word32 → Word32 → Word32) : Answer :=
  .next (issueScalar s t (wordA 0 rd ra rb fn) [rd, ra, rb] none (fun s =>
    let x := thread s t
    result32 s t rd (f (lo32 (reg x ra)) (lo32 (reg x rb)))))

def execFadd (t : Thr) (rd ra rb : Reg) (s : State) : Answer := fpu s t rd ra rb 0x040 fadd
def execFsub (t : Thr) (rd ra rb : Reg) (s : State) : Answer := fpu s t rd ra rb 0x041 fsub
def execFmul (t : Thr) (rd ra rb : Reg) (s : State) : Answer := fpu s t rd ra rb 0x042 fmul
def execFmax (t : Thr) (rd ra rb : Reg) (s : State) : Answer := fpu s t rd ra rb 0x043 fmax
def execFmin (t : Thr) (rd ra rb : Reg) (s : State) : Answer := fpu s t rd ra rb 0x044 fmin

/-- FTOU: truncation; NaN and negatives give 0. A value of 2^64 or more has no stated result (log entry 4). -/
def ftou64 (a : Word32) : Word64 :=
  match val32 a with
  | .nan => 0
  | .inf n => if n then 0 else Config.ftouBeyond a
  | .fin n m e =>
    if n then 0
    else
      let v := if 0 ≤ e then m <<< e.toNat else m >>> (-e).toNat
      if v < 2 ^ 64 then BitVec.ofNat 64 v else Config.ftouBeyond a

def execFtou (t : Thr) (rd ra rb : Reg) (s : State) : Answer :=
  .next (issueScalar s t (wordA 0 rd ra rb 0x045) [rd, ra, rb] (reservedRegs [rb]) (fun s =>
    result s t rd (ftou64 (lo32 (reg (thread s t) ra)))))

def execUtof (t : Thr) (rd ra rb : Reg) (s : State) : Answer :=
  .next (issueScalar s t (wordA 0 rd ra rb 0x046) [rd, ra, rb] (reservedRegs [rb]) (fun s =>
    result32 s t rd (fofNat (regN (thread s t) ra))))

/-! ## Immediates -/

def aluImm (s : State) (t : Thr) (major : Nat) (rd ra : Reg) (imm : Nat) (bad : Option Nat)
    (f : Word64 → Word64) : Answer :=
  .next (issueScalar s t (wordI major rd ra imm) [rd, ra] bad (fun s => result s t rd (f (reg (thread s t) ra))))

def execAddi (t : Thr) (rd ra : Reg) (imm : BitVec 17) (s : State) : Answer :=
  aluImm s t 0x01 rd ra imm.toNat none (fun a => a + imm.signExtend 64)
def execAndi (t : Thr) (rd ra : Reg) (imm : BitVec 17) (s : State) : Answer :=
  aluImm s t 0x02 rd ra imm.toNat none (fun a => a &&& imm.setWidth 64)
def execOri (t : Thr) (rd ra : Reg) (imm : BitVec 17) (s : State) : Answer :=
  aluImm s t 0x03 rd ra imm.toNat none (fun a => a ||| imm.setWidth 64)
def execXori (t : Thr) (rd ra : Reg) (imm : BitVec 17) (s : State) : Answer :=
  aluImm s t 0x04 rd ra imm.toNat none (fun a => a ^^^ imm.setWidth 64)

/-- imm17[7:6] are reserved in a shift (R112, major 0x05). -/
def shiftReserved (imm : BitVec 8) : Option Nat := if imm.toNat < 64 then none else some 0x02

def execShli (t : Thr) (rd ra : Reg) (imm : BitVec 8) (s : State) : Answer :=
  aluImm s t 0x05 rd ra imm.toNat (shiftReserved imm) (fun a => a <<< (imm.toNat % 64))
def execShri (t : Thr) (rd ra : Reg) (imm : BitVec 8) (s : State) : Answer :=
  aluImm s t 0x05 rd ra (256 + imm.toNat) (shiftReserved imm) (fun a => a >>> (imm.toNat % 64))
def execSari (t : Thr) (rd ra : Reg) (imm : BitVec 8) (s : State) : Answer :=
  aluImm s t 0x05 rd ra (512 + imm.toNat) (shiftReserved imm) (fun a => a.sshiftRight (imm.toNat % 64))
def execSlti (t : Thr) (rd ra : Reg) (imm : BitVec 17) (s : State) : Answer :=
  aluImm s t 0x06 rd ra imm.toNat none (fun a => boolWord (decide (a.toInt < imm.toInt)))

def execLup (t : Thr) (rd : Reg) (imm : BitVec 22) (s : State) : Answer :=
  .next (issueScalar s t (0x07 * 2 ^ 27 + rd.toNat * 2 ^ 22 + imm.toNat) [rd] none (fun s =>
    result s t rd (imm.signExtend 64 <<< 17)))

/-! ## Words that no row of Table 04-2 lists (R112) -/

/-- Whether Table 04-2 lists a scalar word's major code and fn; the marker of a tile instruction is listed (R114). -/
def listedWord (w : Nat) : Bool :=
  let fn := field w 0 12
  match field w 27 5 with
  | 0x00 => decide (fn ≤ 0x010 ∨ fn = 0x020 ∨ (0x040 ≤ fn ∧ fn ≤ 0x046))
  | 0x05 => decide (field w 8 9 ≤ 2)
  | 0x0B => false
  | 0x0E => false
  | 0x0F => false
  | 0x10 => decide (fn ≤ 0x001)
  | 0x11 => decide (field w 10 2 ≤ 2)
  | 0x12 => decide (fn ≤ 0x001 ∨ (0x010 ≤ fn ∧ fn ≤ 0x014))
  | m => decide (m ≤ 0x0D ∨ m = 0x1F)

/-- A thread that is to issue an unlisted word is refused it with reason 0x01: no command stands for such a word. -/
def refuseUnlisted (s : State) (t : Thr) : State :=
  let x := thread s t
  let w := readLe (til s t.til).program x.pc.toNat 4
  if canIssue s t [] && pcOk x 4 && !listedWord w then refuseScalar (settle s (tilKey t.til) t.n.val) t w 0x01 else s

/-! ## Loads and stores of the Tiller's own Hopper (R113) -/

/-- The Hopper byte address of a load or store. -/
def memAddr (x : Thread) (ra : Reg) (off : BitVec 15) : Nat := (reg x ra + off.signExtend 64).toNat

/-- Aligned, and within the 8 MiB. -/
def memOk (a size : Nat) : Bool := decide (a % 2 ^ size = 0 ∧ a + 2 ^ size ≤ 8388608)

def load (s : State) (t : Thr) (major : Nat) (rd ra : Reg) (size : BitVec 2) (off : BitVec 15) (sign : Bool) :
    Answer :=
  let w := wordM major rd ra size off
  .next (issueScalar s t w [rd, ra] none (fun s =>
    let x := thread s t
    let a := memAddr x ra off
    if memOk a size.toNat then
      let n := 2 ^ size.toNat
      let v := readLe (til s t.til).hopper a n
      result s t rd (if sign then BitVec.ofInt 64 (sext v (8 * n)) else BitVec.ofNat 64 v)
    else refuseScalar s t w 0x05))

def execLd (t : Thr) (rd ra : Reg) (size : BitVec 2) (off : BitVec 15) (s : State) : Answer :=
  load s t 0x08 rd ra size off false
def execLds (t : Thr) (rd ra : Reg) (size : BitVec 2) (off : BitVec 15) (s : State) : Answer :=
  load s t 0x0A rd ra size off true

/-- ST: rd names the source. -/
def execSt (t : Thr) (rd ra : Reg) (size : BitVec 2) (off : BitVec 15) (s : State) : Answer :=
  let w := wordM 0x09 rd ra size off
  .next (issueScalar s t w [rd, ra] none (fun s =>
    let x := thread s t
    let a := memAddr x ra off
    if memOk a size.toNat then
      let s := modTil s t.til (fun y => { y with hopper := writeBytes y.hopper a (toLe (2 ^ size.toNat) (regN x rd)) })
      advance s t 4
    else refuseScalar s t w 0x05))

/-! ## Branches and jumps (R111): offsets count words from the instruction itself -/

/-- The condition codes 0 EQ, 1 NE, 2 LT, 3 GE, 4 LTU, 5 GEU. -/
def condHolds (c : BitVec 3) (a b : Word64) : Bool :=
  match c.toNat with
  | 0 => decide (a = b)
  | 1 => decide (a ≠ b)
  | 2 => decide (a.toInt < b.toInt)
  | 3 => decide (b.toInt ≤ a.toInt)
  | 4 => decide (a.toNat < b.toNat)
  | _ => decide (b.toNat ≤ a.toNat)

def execBranch (t : Thr) (cond : BitVec 3) (ra rb : Reg) (off : BitVec 14) (s : State) : Answer :=
  let w := 0x0C * 2 ^ 27 + ra.toNat * 2 ^ 22 + rb.toNat * 2 ^ 17 + cond.toNat * 2 ^ 14 + off.toNat
  .next (issueScalar s t w [ra, rb] (if cond.toNat ≤ 5 then none else some 0x01) (fun s =>
    let x := thread s t
    if condHolds cond (reg x ra) (reg x rb) then
      issued (setThread s t { x with pc := x.pc + (off.signExtend 64 <<< 2) }) t
    else advance s t 4))

def execJal (t : Thr) (rd : Reg) (off : BitVec 22) (s : State) : Answer :=
  .next (issueScalar s t (0x0D * 2 ^ 27 + rd.toNat * 2 ^ 22 + off.toNat) [rd] none (fun s =>
    jumpTo s t rd ((thread s t).pc + (off.signExtend 64 <<< 2))))

/-! ## System instructions -/

/-- FENCE: waits until every earlier tile instruction of the thread is complete (R113). -/
def execFence (t : Thr) (rd ra rb : Reg) (s : State) : Answer :=
  .next (issueScalar s t (wordA 0x12 rd ra rb 0x000) [rd, ra, rb] (reservedRegs [rd, ra, rb]) (fun s =>
    let s := advance s t 4
    if (til s t.til).flights.any (fun f => decide (f.thread = t.n.val)) then
      setThread s t { thread s t with st := .waitFence (tcNow s t.til.field.val) }
    else s))

/-- RDID (fn 0x010 to 0x014). -/
def execRdid (t : Thr) (rd ra rb : Reg) (sel : IdSel) (s : State) : Answer :=
  let fn := match sel with | .thread => 0x010 | .tiller => 0x011 | .width => 0x012 | .argptr => 0x013 | .tc => 0x014
  .next (issueScalar s t (wordA 0x12 rd ra rb fn) [rd, ra, rb] (reservedRegs [ra, rb]) (fun s =>
    let y := til s t.til
    let v := match sel with
      | .thread => t.n.val
      | .tiller => tilKey t.til
      | .width => drillWidth y
      | .argptr => (jobOf s y.job).man.ahop
      | .tc => tcNow s t.til.field.val - (thread s t).startTc
    result s t rd (BitVec.ofNat 64 v)))

end Sys2Proof.Machine
end

