-- ==== Sys2Proof/Machine/Bales.lean ====
section
/-! DEFINITION. Barn and the bale directory (R214, R220 to R226, R351, R352): moves up, write-backs, evictions,
pins, demand faults, the completion of Sowing entries, and the write-back before a job completes. -/
namespace Sys2Proof.Machine

/-! ## Barn ranges (R351) -/

/-- The entry of the range that holds a Barn address (`OD 6032`); 0 where none does. -/
def barnRange6032 (s : State) (barn : Nat) : Nat :=
  match (upto 16).find? (fun i => decide (setting s 0x6030 (i + 1) ≤ barn
      ∧ barn < setting s 0x6030 (i + 1) + setting s 0x6031 (i + 1))) with
  | some i => setting s 0x6032 (i + 1)
  | none => 0

/-- PORTS of the range, and whether it is fabric-attached memory (Table 11-9). -/
def barnPorts (s : State) (barn : Nat) : Nat := barnRange6032 s barn % 4
def barnFabric (s : State) (barn : Nat) : Bool := bitAt (barnRange6032 s barn) 2

def cxlFn (p : Nat) : Nat := 0x40 + p

/-- The port that a granule goes through while both run: bit 12 of its Barn address chooses between two. -/
def barnFirst (s : State) (barn : Nat) : Nat :=
  let ports := barnPorts s barn
  if ports = 3 then (if bitAt barn 12 then 1 else 0) else if ports = 2 then 1 else 0

/-- The port that a granule goes through now; none where it waits. -/
def barnPort (s : State) (barn : Nat) : Option Nat :=
  let first := barnFirst s barn
  if barnPorts s barn = 0 then none
  else if running s (cxlFn first) then some first
  else if barnPorts s barn = 3 ∧ running s (cxlFn (1 - first)) = true then some (1 - first)
  else none

/-! ## Bales -/

/-- Granules of a bale, as Granary addresses. -/
def baleGranules (b : Bale) : List Nat := (upto (b.len / 4096)).map (fun i => b.ga + 4096 * i)

def invalidOf (s : State) (b : Bale) : List Nat := (baleGranules b).filter (fun g => !validGranule s g)
def dirtyOf (s : State) (b : Bale) : List Nat := (baleGranules b).filter (fun g => kvGet false s.dirty (g / 4096))

def barnOf (b : Bale) (g : Nat) : Nat := b.barn + (g - b.ga)

def baleNamed (s : State) (ga : Nat) : Option Bale := s.bales.find? (fun b => decide (b.ga = ga))

/-- The bale leaves the directory where it is ABSENT (it holds no valid granule) and unpinned. -/
def dropBale (s : State) (b : Bale) : State := { s with bales := s.bales.filter (fun c => decide (c.ga ≠ b.ga)) }

def setValid (s : State) (g : Nat) (v : Bool) : State := { s with valid := kvSet false s.valid (g / 4096) v }
def setDirty (s : State) (g : Nat) (v : Bool) : State := { s with dirty := kvSet false s.dirty (g / 4096) v }

/-- Every granule of a page is invalid when the page is first entered, and no bale lies in its frame (R214). -/
def clearFrame (s : State) (f : Nat) : State :=
  let outside := fun (g : Nat) => decide (g / 512 ≠ f / 2097152)
  { s with valid := s.valid.filter (fun q => outside q.1), dirty := s.dirty.filter (fun q => outside q.1),
           bales := s.bales.filter (fun b => outside (b.ga / 4096)) }

/-- An edit enters a page of KIND 2; a frame that a page in force already uses keeps its granules. -/
def enterFrame (s : State) (e : Nat) : State :=
  if xKind e ≠ 2 ∨ barnFrame s (xFrame e) = true then s else clearFrame s (xFrame e)

/-! ## Sowing entries in flight (R227, R229, R231) -/

/-- A semaphore is claimed by a producer that will signal it: engine, and two details (R231). -/
def claimSem (s : State) (name : Nat) (p : Nat × Nat × Nat) : State :=
  let x := sem s name
  setSem s name { x with producers := x.producers ++ [p] }

/-- A producer's oldest claim on a semaphore goes when it signals. -/
def unclaimSem (s : State) (name : Nat) (p : Nat × Nat × Nat) : State :=
  let x := sem s name
  setSem s name { x with producers := x.producers.erase p }

def flightEntry (s : State) (i : Nat) : Option SowFlight := s.sowing.flights.find? (fun f => decide (f.index = i))

/-- A refused entry stops the schedule and is a program fault (R230). -/
def refuseEntry (s : State) (i : Nat) : State :=
  let s := bump s 0xA400 5 1
  let s := { s with sowing := { s.sowing with
    lastRefused := i, stopped := true, flights := s.sowing.flights.filter (fun f => decide (f.index ≠ i)) } }
  programFault s s.sowing.holder

/-- An entry completes: it returns credit, and signals its semaphore (R227, R229). -/
def completeEntry (s : State) (i credit : Nat) : State :=
  match flightEntry s i with
  | none => s
  | some f =>
    let w := s.sowing
    let s := { s with sowing := { w with
      flights := w.flights.filter (fun g => decide (g.index ≠ i)), credit := (w.credit + credit) % 2 ^ 32 } }
    let s := progress (bump s 0xA400 4 1) s.sowing.holder
    match f.sem with
    | some n => sendSignal (unclaimSem s n (1, i, f.layer)) .engine n 1 0 s.sowing.holder
    | none => s

/-- The header check of an entry whose H is 1 (R230): true where it passes. -/
def arrivalOk (s : State) (f : SowFlight) (ga : Nat) : Bool :=
  if f.h then
    let b := gran s ga 64
    let h := Hdr.parse b
    (hdrReason b).isNone && decide (h.size = tileSize h ∧ h.size ≤ f.len)
  else true

/-- A FETCH's granules are all valid: its header is checked, and it completes. -/
def completeFetch (s : State) (i ga : Nat) : State :=
  match flightEntry s i with
  | none => s
  | some f => if arrivalOk s f ga then completeEntry s i 0 else refuseEntry s i

/-! ## Moves up (R220, R221, R223) -/

/-- Asks Barn for the invalid granules of a FETCHING bale that it has not been asked for, where a port may carry them. -/
def requestGranules (s : State) (b : Bale) : State :=
  let want := (invalidOf s b).filter (fun g => !(b.asked.map (·.1)).elem g)
  let asked := want.filterMap (fun g => (barnPort s (barnOf b g)).map (fun p => (g, p)))
  let s := asked.foldl (fun s q => emit s (.barnRead q.2 (barnFabric s (barnOf b q.1)) (barnOf b q.1) 4096)) s
  setBale s { b with asked := b.asked ++ asked }

/-- A bale begins a move up. -/
def beginMove (s : State) (b : Bale) : State := requestGranules s { b with st := .fetching, asked := [] }

/-- A move up cancels an eviction that is pending or under way: its entries complete with nothing invalidated. -/
def cancelEviction (s : State) (b : Bale) : State :=
  if b.evictPending || b.evicting then
    let s := bump (setBale s { b with evictPending := false, evicting := false, onEvict := [], evictNow := [] }) 0xA400 7 1
    (b.evictNow ++ b.onEvict).foldl (fun s i => completeEntry s i 0) s
  else s

/-! ## Write-back and eviction (R222 to R225) -/

/-- The most bytes that one write to fabric-attached memory carries (Table 11-1). -/
def maxPayload : Nat := 512

/-- The writes that take a granule to Barn: to fabric-attached memory in pieces of at most 512 bytes. -/
def emitGranule (s : State) (port : Nat) (fabric : Bool) (barn : Nat) (bytes : List Byte) : State :=
  if fabric then
    foldUpto (ceilDiv bytes.length maxPayload) s (fun s i =>
      emit s (.barnWrite port true (barn + maxPayload * i) ((bytes.drop (maxPayload * i)).take maxPayload)))
  else emit s (.barnWrite port false barn bytes)

/-- Reads the dirty granules of a bale for a write-back: the write of each goes to its port, and its dirty bit
is cleared. A granule with an uncorrectable sector stays, and its job meets the error (R410). -/
def writeOut (s : State) (b : Bale) (evict : Bool) : State :=
  let all := dirtyOf s b
  let good := all.filter (fun g => (badIn s g 4096).isEmpty)
  let out := good.filterMap (fun g => (barnPort s (barnOf b g)).map (fun p => (g, p)))
  let s := enterAll s srcEngine (all.map (fun g => (g, 4096))) false
  let s := out.foldl (fun s q =>
    setDirty (emitGranule s q.2 (barnFabric s (barnOf b q.1)) (barnOf b q.1) (gran s q.1 4096)) q.1 false) s
  let s := setBale s (if evict then
      { b with st := .writing, evicting := true, writing := out, evictPending := false, onEvict := [], evictNow := b.onEvict }
    else { b with st := .writing, evicting := false, writing := out })
  if good.length = all.length then s
  else unitError ((all.filter (fun g => !(badIn s g 4096).isEmpty)).foldl (fun s g => detectBad s g 4096) s) b.job

/-- Starts a write-back where no host copy is left to snoop, every granule has a port, and its sectors are admitted. -/
def startWrite (s : State) (b : Bale) (evict : Bool) : State :=
  let l := (dirtyOf s b).map (fun g => (g, 4096))
  let q := snoopAll s l false
  if q.2 && (dirtyOf s b).all (fun g => (barnPort s (barnOf b g)).isSome) then
    let r := sectorGate q.1 srcEngine l false
    if r.2 then writeOut r.1 b evict else r.1
  else q.1

/-- Evictions complete: the first of the entries takes the credit. -/
def completeEvicts (s : State) (es : List Nat) (credit : Nat) : State :=
  match es with
  | [] => s
  | i :: rest => rest.foldl (fun s j => completeEntry s j 0) (completeEntry s i credit)

/-- A bale is ABSENT: a demand fault that waits for one of its granules moves it up; unpinned, it leaves the directory, and
evictions of it complete at once (R220, Table 07-12). -/
def goAbsent (s : State) (b : Bale) : State :=
  let b := { b with st := .absent, evicting := false, writing := [], evictNow := [] }
  if 0 < b.demand then beginMove (setBale s b) b
  else if b.pins = 0 then completeEvicts (dropBale s b) b.onEvict 0
  else setBale s b

/-- A bale with nothing dirty is evicted: its granules are invalidated and its eviction entries complete with
their credit. -/
def invalidateBale (s : State) (b : Bale) : State :=
  let gone := (baleGranules b).filter (validGranule s)
  let s := gone.foldl (fun s g => setValid s g false) s
  let s := goAbsent s { b with evictPending := false, onEvict := [] }
  completeEvicts s b.onEvict gone.length

/-- Does what a bale waits for and may now do: granules still to be asked of Barn, a write-back that waited for its move, a
move for a demand fault that waited for its write-back. -/
def kickBale (s : State) (ga : Nat) : State :=
  match baleNamed s ga with
  | none => s
  | some b =>
    if b.st = .fetching then requestGranules s b
    else if b.st = .writing then s
    else if !b.onWrite.isEmpty then
      if b.st = .dirty then startWrite s b false
      else (b.onWrite).foldl (fun s i => completeEntry s i 0) (setBale s { b with onWrite := [] })
    else if 0 < b.demand ∧ invalidOf s b ≠ [] then beginMove s b
    else s

/-- Performs a deferred eviction (R222). -/
def performEviction (s : State) (b : Bale) : State :=
  if b.st = .fetching ∨ b.st = .writing ∨ b.pins ≠ 0 then s
  else if b.st = .dirty then startWrite s b true
  else invalidateBale s b

/-- Adds a bale to the directory. -/
def addBale (s : State) (b : Bale) : State :=
  { s with bales := s.bales ++ [b], baleMax := max s.baleMax (s.bales.length + 1) }

/-- A bale of a range in a state. -/
def baleOf (ga barn len job : Nat) (st : BaleSt) : Bale :=
  { ga := ga, barn := barn, len := len, st := st, evictPending := false, evicting := false, pins := 0, demand := 0,
    onMove := [], onWrite := [], onEvict := [], evictNow := [], asked := [], writing := [], job := job }

/-- A new bale enters the directory FETCHING. -/
def newBale (s : State) (ga barn len job pins demand : Nat) (onMove : List Nat) : State :=
  let b := { baleOf ga barn len job .fetching with pins := pins, demand := demand, onMove := onMove }
  requestGranules (addBale s b) b

def directoryRoom (s : State) : Bool := decide (s.bales.length < 65536)

/-- A range whose granules stores have made valid without a move up is a bale once an entry, or the job engine, writes it back
or evicts it (R221, R226, log entry 73). -/
def formBale (s : State) (ga barn len job : Nat) : State :=
  let b := baleOf ga barn len job .clean
  if (baleNamed s ga).isSome || s.bales.any (fun c => overlap (c.ga, c.len) (ga, len)) || !directoryRoom s
    || !(baleGranules b).any (validGranule s) then s
  else addBale s { b with st := if (dirtyOf s b).isEmpty then .clean else .dirty }

/-- The maximal run of invalid granules around a granule, in its aligned 64 KiB and outside any bale (R220). -/
def faultRun (s : State) (g : Nat) : Nat × Nat :=
  let lo := g / 65536 * 65536
  let k := (g - lo) / 4096
  let free := fun i => !validGranule s (lo + 4096 * i) && (baleAt s (lo + 4096 * i)).isNone
  let down := ((upto (k + 1)).map (fun i => k - i)).takeWhile free
  let up := ((upto (16 - k)).map (fun i => k + i)).takeWhile free
  (lo + 4096 * (k + 1 - down.length), 4096 * (down.length + up.length - 1))

/-- A demand fault of a stream at a Granary address of a KIND 2 page: it forms its bale, or joins the one that covers it. The
flag tells that its pin is on a bale; a full directory makes it wait, ahead of every entry not yet started (R220, R222, R229). A
bale that is WRITING moves up once its write-back has ended. -/
def demandFault (s : State) (c : CtxId) (job ga barn : Nat) : State × Bool :=
  let g := ga / 4096 * 4096
  let s' := { s with faultWait := s.faultWait.erase c }
  match baleAt s g with
  | some b =>
    let s := cancelEviction s' b
    match baleNamed s b.ga with
    | none => (s, false)
    | some b =>
      let b' := { b with pins := b.pins + 1, demand := b.demand + 1 }
      if b.st = .fetching then (bump (setBale s b') 0xA400 11 1, true)
      else if b.st = .writing then (setBale s b', true)
      else (beginMove (setBale s b') b', true)
  | none =>
    if directoryRoom s then
      let r := faultRun s g
      (newBale s' r.1 (barn / 4096 * 4096 + r.1 - g) r.2 job 1 1 [], true)
    else (if s.faultWait.elem c then s else { s with faultWait := s.faultWait ++ [c] }, false)

/-! ## Completion of a job (R108, R226, R348) -/

/-- Every named thread on every Tiller of the job has halted. -/
def allHalted (s : State) (job : Nat) : Bool :=
  let j := jobOf s job
  (jobTils s job).all (fun id => j.man.entries.all (fun e => decide ((thr (tilAt s id) e.1).st = .halted)))

/-- Whether a granule lies in a KIND 2 frame of the job. -/
def jobFrame (j : Job) (g : Nat) : Bool :=
  j.xlate.any (fun p => decide (xKind p.2 = 2 ∧ xFrame p.2 = g / 2097152 * 2097152))

/-- The Barn address of a granule of the job's KIND 2 pages. -/
def jobBarn (j : Job) (g : Nat) : Nat :=
  match j.xlate.find? (fun p => decide (xKind p.2 = 2 ∧ xFrame p.2 = g / 2097152 * 2097152)) with
  | some p => xBarn p.2 + g % 2097152
  | none => 0

/-- Writes back every dirty granule of the job's KIND 2 pages; one that no bale covers becomes a bale for it. -/
def writeBackJob (s : State) (job : Nat) : State :=
  let j := jobOf s job
  let loose := (s.dirty.map (fun p => 4096 * p.1)).filter (fun g => jobFrame j g && (baleAt s g).isNone)
  let s := loose.foldl (fun s g => formBale s g (jobBarn j g) 4096 job) s
  (s.bales.filter (fun b => jobFrame j b.ga)).foldl (fun s b => if b.st = .dirty then startWrite s b false else s) s

/-- Whether a dirty granule of the job is still to be written back, or a write-back of it is under way. -/
def writeBackLeft (s : State) (job : Nat) : Bool :=
  let j := jobOf s job
  s.dirty.any (fun p => jobFrame j (4096 * p.1)) || s.bales.any (fun b => jobFrame j b.ga && decide (b.st = .writing))

/-- A running job whose named threads have all halted completes once its write-back is done. -/
def tryComplete (s : State) (job : Nat) : State :=
  match slotOf s job with
  | none => s
  | some i =>
    if (jobAt s i).st ≠ 2 ∨ allHalted s job = false then s
    else
      let s := writeBackJob s job
      if writeBackLeft s job then s else endJob s i 4 0 false false

/-- HALT: the thread ends; the job completes with its last thread (R108). -/
def execHalt (t : Thr) (rd ra rb : Reg) (s : State) : Answer :=
  .next (issueScalar s t (wordA 0x12 rd ra rb 0x001) [rd, ra, rb] (reservedRegs [rd, ra, rb]) (fun s =>
    let s := advance s t 4
    tryComplete (setThread s t { thread s t with st := .halted }) (til s t.til).job))

/-! ## Answers from Barn -/

/-- The granules of a move up arrive, in ascending order; those at the positions `failed` came back in error and are
uncorrectable (R352). Stores that waited for them are performed, and the bale is CLEAN or DIRTY; its entries complete where every
granule has come. -/
def landMove (s : State) (b : Bale) (data : List Byte) (failed : List Nat) : State :=
  let want := invalidOf s b
  let portOf := fun (g : Nat) => ((b.asked.find? (fun q => decide (q.1 = g))).map (·.2)).getD 0
  let s := enterAll s srcEngine (want.map (fun g => (g, 4096))) true
  let s := (want.zip (upto want.length)).foldl (fun s p =>
    if failed.elem p.2 then
      let s := bump s (0xA640 + portOf p.1) 6 1
      setValid ((sectors p.1 4096).foldl (fun s q => spoil s (q.1 / 64) srcEngine b.job) s) p.1 true
    else
      let bytes := padTo 4096 (data.drop (4096 * p.2))
      let s := bump { s with granary := writeBytes s.granary p.1 bytes } (0xA640 + portOf p.1) 3 1
      setValid ((sectors p.1 4096).foldl (fun s q => heal s (q.1 / 64)) s) p.1 true) s
  let ok := (upto want.length).all (fun i => !failed.elem i)
  let s := setBale s { b with st := .clean, onMove := [], asked := [] }
  let s := performHeld s
  let s := match baleNamed s b.ga with
    | some c => if (dirtyOf s c).isEmpty then s else setBale s { c with st := .dirty }
    | none => s
  if ok then kickBale (b.onMove.foldl (fun s i => completeFetch s i b.ga) s) b.ga
  else kickBale (unitError s b.job) b.ga

/-- BALE_MOVE_COMPLETE: data holds the requested granules in ascending order, and failed names those that came back in error;
nothing arrives while a granule has not been asked for. -/
def execBaleMoveComplete (ga : Nat) (data : List Byte) (failed : List Nat) (s : State) : Answer :=
  match baleNamed s ga with
  | none => .next s
  | some b =>
    if b.st ≠ .fetching ∨ !(invalidOf s b).all (fun g => (b.asked.map (·.1)).elem g) then .next s
    else
      let l := (invalidOf s b).map (fun g => (g, 4096))
      let q := snoopAll s l true
      if !q.2 then .next q.1
      else
        let r := sectorGate q.1 srcEngine l true
        .next (if r.2 then landMove r.1 b data failed else r.1)

/-- The acknowledged end of a write-back (R224, R225): an eviction invalidates what no store has reached. DESIGN CHOICE (log entry
83): a WRITEBACK that found the bale WRITING completes with that write-back, even where a store has made the bale dirty again. -/
def endWrite (s : State) (b : Bale) : State :=
  let s := bump s 0xA400 9 b.writing.length
  let s := b.writing.foldl (fun s q => bump s (0xA640 + q.2) 3 1) s
  let dirty := dirtyOf s b
  let after : BaleSt := if dirty.isEmpty then .clean else .dirty
  let s := if b.evicting then
      let gone := (baleGranules b).filter (fun g => validGranule s g && !dirty.elem g)
      let s := gone.foldl (fun s g => setValid s g false) s
      let s := if dirty.isEmpty then goAbsent s { b with onWrite := [] }
        else bump (setBale s { b with st := .dirty, evicting := false, writing := [], evictNow := [], onWrite := [] }) 0xA400 8 1
      completeEvicts s b.evictNow gone.length
    else setBale s { b with st := after, writing := [], onWrite := [] }
  kickBale (b.onWrite.foldl (fun s i => completeEntry s i 0) s) b.ga

/-- A failed write-back leaves its granules dirty and is counted at each port where a write failed, by the writes' positions
(R352); the next write-back tries them again, an eviction's among them. -/
def failWrite (s : State) (b : Bale) (failed : List Nat) : State :=
  let ports := dedup (failed.filterMap (fun i => (b.writing[i]?).map (·.2)))
  let s := ports.foldl (fun s p => bump s (0xA640 + p) 6 1) (b.writing.foldl (fun s q => setDirty s q.1 true) s)
  let s := setBale s { b with st := .dirty, evicting := false, writing := [], onWrite := [], evictNow := [],
                              onEvict := b.evictNow ++ b.onEvict, evictPending := b.evictPending || b.evicting }
  b.onWrite.foldl (fun s i => completeEntry s i 0) s

/-- BALE_WRITEBACK_DONE: every write of the write-back is acknowledged, or those at the positions `failed` have failed. -/
def execBaleWritebackDone (ga : Nat) (failed : List Nat) (s : State) : Answer :=
  match baleNamed s ga with
  | none => .next s
  | some b =>
    if b.st ≠ .writing then .next s
    else .next (tryComplete (if failed.isEmpty then endWrite s b else failWrite s b failed) b.job)

/-- DEFERRED_EVICTION: neither a move nor a write-back is under way and no pin is left. -/
def execDeferredEviction (ga : Nat) (s : State) : Answer :=
  match baleNamed s ga with
  | none => .next s
  | some b => if b.evictPending then .next (performEviction s b) else .next s

end Sys2Proof.Machine
end

