-- ==== Sys2Proof/Machine/Furrow.lean ====
section
/-! DEFINITION. Furrow counters (R130 to R136): TAKE and ARM, the counter block's service, the replies. -/
namespace Sys2Proof.Machine

/-- The key of a counter: 0x80 × Field + number, or 0x400 + number on Headland A; its objects lie at 0x2800
and 0xA800 above it. -/
def furKey (die num : Nat) : Nat := 0x80 * die + num

/-- A counter's name as its die and number (R130); none where no such counter exists. -/
def furName (n : Nat) : Option (Nat × Nat) :=
  let die := field n 12 4
  let num := field n 0 7
  if field n 7 5 ≠ 0 ∨ 8 < die ∨ (die = 8 ∧ 63 < num) then none else some (die, num)

def furrow (s : State) (die num : Nat) : Furrow := kvGet Furrow.reset s.furrows (furKey die num)

def setFurrow (s : State) (die num : Nat) (x : Furrow) : State :=
  { s with furrows := kvSet Furrow.reset s.furrows (furKey die num) x }

/-- Counts an event of a counter: 1 served, 2 stale, 3 exhausted, 4 unavailable, 5 arms (Table 04-16). -/
def furCount (s : State) (die num k : Nat) : State := bump s (0xA800 + furKey die num) k 1

/-- Whether a counter's die answers: a Field's only while it is RUNNING, Headland A's always (R132, R136). -/
def furUp (s : State) (die : Nat) : Bool := if die = 8 then true else fieldOn s die

/-- A new epoch (R134): the counter's new value of epoch. -/
def armCounter (s : State) (die num limit : Nat) : State :=
  let x := furrow s die num
  furCount (setFurrow s die num { x with epoch := x.epoch + 1, next := 0, limit := BitVec.ofNat 32 limit }) die num 5

/-! ## Requests -/

/-- The port a request arrives on: its slot in its own Field, and otherwise the bridge of a plane, which the model takes as the
sender's slot modulo 4 (R131, log entry 8). -/
def furPort (s : State) (t : Tid) (die : Nat) : Nat :=
  if die = t.field.val then t.slot.val else (if die = 8 then 0 else 88) + planeAt s die (t.slot.val % 4)

/-- The dictionary port of a counter block (R131). -/
def dictPort (die : Nat) : Nat := if die = 8 then 4 else 92

/-- The clock of a counter's die: tc of its Field, or the Hedgerow clock (R131). -/
def furClock (s : State) (die : Nat) : Nat := if die = 8 then s.clocks.hedgerow else tcNow s die

/-- Puts a request behind those that arrived before it; in one cycle the lower port goes first (R131). -/
def enqueue (q : List FurrowReq) (r : FurrowReq) : List FurrowReq :=
  match q with
  | [] => [r]
  | x :: m =>
    if x.die = r.die ∧ x.num = r.num ∧ x.stamp = r.stamp ∧ r.port < x.port then r :: x :: m
    else x :: enqueue m r

/-- Sends a TAKE or ARM; the thread waits for the reply. -/
def furRequest (s : State) (t : Thr) (rd : Reg) (word die num : Nat) (arm : Option Word32) (epoch : BitVec 16) :
    State :=
  if (furrow s die num).job ≠ (til s t.til).job ∨ (til s t.til).job = 0 then refuseScalar s t word 0x07
  else if die ≠ t.til.field.val ∧ 3 ≤ urgentCount s t.til then waitIssue s t false
  else
    let s := settle s (tilKey t.til) t.n.val
    let s := countUrgent s (.thread t 0 0) die
    let s := advance s t 4
    let s := setThread s t { thread s t with st := .waitFurrow rd }
    { s with furrowQ := enqueue s.furrowQ { die := die, num := num, thr := some t, arm := arm, epoch := epoch,
                                            stamp := furClock s die, port := furPort s t.til die } }

/-- An ARM by the dictionary: it takes its place among the requests of the counter (R131, R134). -/
def dictArm (s : State) (die num limit : Nat) : State :=
  { s with furrowQ := enqueue s.furrowQ { die := die, num := num, thr := none, arm := some (BitVec.ofNat 32 limit), epoch := 0,
                                          stamp := furClock s die, port := dictPort die } }

/-- A scalar instruction that may wait at issue for room: its stamp of waiting is not cleared first. -/
def issueRoom (s : State) (t : Thr) (word : Nat) (regs : List Reg) (bad : Option Nat)
    (body : State → State) : State :=
  if !canIssue s t regs then s
  else if !pcOk (thread s t) 4 then refuseScalar s t word 0x05
  else match bad with
    | some r => refuseScalar s t word r
    | none => body s

def execTake (t : Thr) (rd ra rb : Reg) (s : State) : Answer :=
  let w := wordA 0x10 rd ra rb 0x000
  .next (issueRoom s t w [rd, ra, rb] (reservedRegs [rb]) (fun s =>
    let a := regN (thread s t) ra
    if field a 32 32 ≠ 0 then refuseScalar s t w 0x08
    else match furName (field a 0 16) with
      | none => refuseScalar s t w 0x01
      | some (die, num) => furRequest s t rd w die num none (BitVec.ofNat 16 (field a 16 16))))

def execArm (t : Thr) (rd ra rb : Reg) (s : State) : Answer :=
  let w := wordA 0x10 rd ra rb 0x001
  .next (issueRoom s t w [rd, ra, rb] none (fun s =>
    let a := regN (thread s t) ra
    let b := regN (thread s t) rb
    if field a 16 48 ≠ 0 ∨ field b 32 32 ≠ 0 then refuseScalar s t w 0x08
    else match furName a with
      | none => refuseScalar s t w 0x01
      | some (die, num) => furRequest s t rd w die num (some (BitVec.ofNat 32 b)) 0))

/-! ## Service and replies -/

/-- Serves one request: the reply of Table 04-14 and the counter after it (R132 to R134). -/
def furAnswer (s : State) (r : FurrowReq) : State × Nat :=
  let x := furrow s r.die r.num
  match r.arm with
  | some limit =>
    if furUp s r.die then
      let s := armCounter s r.die r.num limit.toNat
      (s, (furrow s r.die r.num).epoch.toNat)
    else (s, 2 ^ 61)
  | none =>
    let e := x.epoch.toNat * 2 ^ 32
    if !furUp s r.die then (furCount s r.die r.num 4, 2 ^ 61 + 0xFFFFFFFF)
    else if r.epoch ≠ x.epoch then (furCount s r.die r.num 2, 2 ^ 63 + e + 0xFFFFFFFF)
    else if x.next.toNat < x.limit.toNat then
      (furCount (setFurrow s r.die r.num { x with next := x.next + 1 }) r.die r.num 1, e + x.next.toNat)
    else (furCount s r.die r.num 3, 2 ^ 62 + e + 0xFFFFFFFF)

/-- A reply reaches its thread: rd is written and the thread is ready. -/
def furReply (s : State) (t : Thr) (v : Word64) : State :=
  match (thread s t).st with
  | .waitFurrow rd => setThread s t { setReg (thread s t) rd v with st := .ready }
  | _ => s

/-- FURROW_SERVE: the counter serves its oldest request; a reply to its own Field is there at once, and the dictionary
takes none. -/
def execFurrowServe (die num : Nat) (s : State) : Answer :=
  match s.furrowQ.find? (fun r => decide (r.die = die ∧ r.num = num)) with
  | none => .next s
  | some r =>
    let a := furAnswer { s with furrowQ := s.furrowQ.erase r } r
    let v := BitVec.ofNat 64 a.2
    match r.thr with
    | none => .next a.1
    | some t =>
      if t.til.field.val = die then .next (furReply a.1 t v)
      else .next (releaseSignals { a.1 with furrowReplies := a.1.furrowReplies ++ [(t, v)] })

/-- FURROW_REPLY_ARRIVAL: another die's reply reaches the thread (R146). -/
def execFurrowReplyArrival (t : Thr) (s : State) : Answer :=
  match s.furrowReplies.find? (fun p => decide (p.1 = t)) with
  | none => .next s
  | some p => .next (furReply { s with furrowReplies := s.furrowReplies.erase p } t p.2)

end Sys2Proof.Machine
end

