-- ==== Sys2Proof/Machine/Operands.lean ====
section
/-! DEFINITION. Operands of tile instructions (R110, R114 to R120, R216 to R219): fields, address operands,
extent registers, tile operands and their checks, room and hazards at issue (R105, R123). -/
namespace Sys2Proof.Machine

/-! ## Fields of the 128-bit word -/

/-- Bits hi to lo of a tile instruction. -/
def bits (w : Word128) (hi lo : Nat) : Nat := field w.toNat lo (hi + 1 - lo)

def regField (w : Word128) (hi lo : Nat) : Reg := BitVec.ofNat 5 (bits w hi lo)

/-- The number whose set bits are the ranges given: the bits a table assigns. -/
def maskOf (rs : List (Nat × Nat)) : Nat := rs.foldl (fun a r => a + (2 ^ (r.1 + 1 - r.2) - 1) * 2 ^ r.2) 0

/-- Whether every set bit lies in the ranges (R117). -/
def onlyBits (w : Nat) (rs : List (Nat × Nat)) : Bool := decide (Nat.land w (maskOf rs) = w)

/-- Opcodes of Table 04-3. -/
def tileOpcodes : List Nat := [0x00, 0x01, 0x02, 0x04, 0x05, 0x06, 0x08, 0x09, 0x0A, 0x0B, 0x0C]

/-- A check that refuses with a reason code. -/
abbrev Check := Option Nat

/-- The first failed check. -/
def firstOf : List Check → Check
  | [] => none
  | some r :: _ => some r
  | none :: l => firstOf l

def failIf (b : Bool) (r : Nat) : Check := if b then some r else none

/-! ## Address operands and extents -/

/-- The Hopper address that an address operand names: x[base] + 64 × imm17 (R114). -/
def addrOf (x : Thread) (op : Nat) : Nat :=
  (reg x (BitVec.ofNat 5 (field op 17 5)) + BitVec.ofNat 64 (64 * field op 0 17)).toNat

/-- Misaligned or outside the Hopper: reason 0x05. -/
def addrCheck (a : Nat) : Check := failIf (decide (a % 64 ≠ 0 ∨ 8388608 ≤ a)) 0x05

/-- A region that does not lie within the Hopper: reason 0x05 (R219, log entry 9). -/
def regionCheck (a n : Nat) : Check := failIf (decide (8388608 < a + n)) 0x05

def baseReg (op : Nat) : Reg := BitVec.ofNat 5 (field op 17 5)

/-- The extents minus 1: the immediates, or the fields of a named extent register (R119). Each field is
(immediate, register offset, register width). A non-zero immediate beside a register is 0x02, a register
bit outside the fields 0x08. -/
def extents (x : Thread) (xr : Reg) (fs : List (Nat × Nat × Nat)) : Check × List Nat :=
  if xr = 0 then (none, fs.map (fun f => f.1))
  else
    let v := regN x xr
    let c := firstOf [failIf (fs.any (fun f => decide (f.1 ≠ 0))) 0x02,
                      failIf (!onlyBits v (fs.map (fun f => (f.2.1 + f.2.2 - 1, f.2.1)))) 0x08]
    (c, fs.map (fun f => field v f.2.1 f.2.2))

/-! ## Tile operands -/

/-- The bytes of the Hopper from an address. -/
def hop (y : Tiller) (a n : Nat) : List Byte := readBytes y.hopper a n

def hdrBytes (y : Tiller) (a : Nat) : List Byte := hop y a 64

def hdrOf (y : Tiller) (a : Nat) : Hdr := Hdr.parse (hdrBytes y a)

/-- A tile operand: its header passes R216, its format is one the role accepts (0x03), its layout is the
role's, its stored extent covers rows × cols (0x04), and it lies within the Hopper. -/
def tileCheck (y : Tiller) (a layout rows cols : Nat) (accepts : Nat → Bool) : Check :=
  let h := hdrOf y a
  firstOf [hdrReason (hdrBytes y a), failIf (!accepts h.fmt) 0x03, failIf (decide (h.layout ≠ layout)) 0x04,
           failIf (decide (h.rows < rows ∨ h.cols < cols)) 0x04, regionCheck a h.size]

/-- The Hopper range of the tile at an address. -/
def tileRange (y : Tiller) (a : Nat) : Nat × Nat := (a, (hdrOf y a).size)

/-- Weight and activation formats of the Drill (R45). -/
def drillWeight (f : Nat) : Bool := decide (f ≠ 0)
def drillAct (f : Nat) : Bool := decide (f ≠ 0 ∧ f ≠ 0xE)

def anyFmt (_ : Nat) : Bool := true

/-! ## Issue of a tile instruction -/

/-- Whether ranges read and written meet those of an instruction in flight (R123). -/
def meets (f : InFlight) (reads writes : List (Nat × Nat)) : Bool :=
  f.writes.any (fun w => reads.any (overlap w) || writes.any (overlap w)) || f.reads.any (fun r => writes.any (overlap r))

/-- Whether an earlier incomplete instruction of the thread holds a range (R123). -/
def hazard (y : Tiller) (n : Nat) (reads writes : List (Nat × Nat)) : Bool :=
  y.flights.any (fun f => decide (f.thread = n) && meets f reads writes)

/-- The lines of an instruction in flight are free of its thread's earlier ones: it may start its accesses (R123). -/
def lineClear (y : Tiller) (f : InFlight) : Bool :=
  y.flights.all (fun g => !decide (g.thread = f.thread ∧ g.id < f.id) || !meets g f.reads f.writes)

def drillFlight (f : InFlight) : Bool :=
  match f.op with
  | .mma .. => true
  | .attf .. => true
  | .attb .. => true
  | _ => false

def drainFlight (f : InFlight) : Bool :=
  match f.op with
  | .sdrain .. => true
  | .sload .. => true
  | _ => false

/-- Room under R105 for one more tile instruction of thread n. -/
def tileRoom (y : Tiller) (n : Nat) : Bool :=
  decide ((y.flights.filter (fun f => decide (f.thread = n))).length < 4 ∧ y.flights.length < 16)

/-- Room at the Drill (R105); the Aftermath thread has it only when no instruction is there and no other
thread waits for that room (R322). -/
def drillRoom (s : State) (t : Thr) : Bool :=
  let y := til s t.til
  let n := (y.flights.filter drillFlight).length
  if isAftermath s (tilKey t.til) t.n.val then
    decide (n = 0) && !(upto 8).any (fun k => decide (k ≠ t.n.val) && (thr y k).drillWait)
  else decide (n < 4)

def drainRoom (y : Tiller) : Bool := decide ((y.flights.filter drainFlight).length < 4)

/-- What an instruction does once its room is there. -/
inductive Plan where
  | refuse (reason : Nat)
  /-- it waits for a line that it reads at issue and an earlier instruction of its own thread still writes (R123) -/
  | hold
  /-- it waits at issue for room (R105, R235) -/
  | room (drill : Bool)
  | go (s : State)

/-- Marks, or clears, a thread's wait for a line (R123). -/
def lineHeld (s : State) (t : Thr) (on : Bool) : State := setThread s t { thread s t with lineWait := on }

/-- Issues a tile instruction. op: its opcode; regs: the registers it names; dec: its decode checks;
plan: what it does. A word whose opcode is unassigned is refused; a word of another command is not this one. -/
def issueTile (s : State) (t : Thr) (w : Word128) (op : Nat) (regs : List Reg) (dec : Check)
    (plan : State → Plan) : State :=
  if !canIssue s t regs then s
  else if bits w 31 27 ≠ 0x1F then s
  else if !pcOk (thread s t) 16 then refuseTile s t w 0x05
  else if !tileOpcodes.elem (bits w 26 22) then refuseTile s t w 0x01
  else if bits w 26 22 ≠ op then s
  else match dec with
    | some r => refuseTile s t w r
    | none =>
      if !tileRoom (til s t.til) t.n.val then waitIssue s t false
      else match plan s with
        | .refuse r => refuseTile s t w r
        | .hold => lineHeld (settle s (tilKey t.til) t.n.val) t true
        | .room d => waitIssue s t d
        | .go s' => s'

/-- The instruction is accepted: its wait is charged, and it is in flight with the ranges it holds. -/
def accept (s : State) (t : Thr) (w : Word128) (op : TileOp) (reads writes : List (Nat × Nat)) (stage : Stage) :
    State :=
  let s := lineHeld (settle s (tilKey t.til) t.n.val) t false
  let pc := (thread s t).pc.setWidth 32
  let s := modTil s t.til (fun y => { y with
    nextId := y.nextId + 1,
    flights := y.flights ++ [{ id := y.nextId, thread := t.n.val, pc := pc, word := w, op := op, reads := reads,
                               writes := writes, stage := stage, since := tcNow s t.til.field.val }] })
  advance s t 16

/-- An instruction accepted and complete at once. -/
def acceptDone (s : State) (t : Thr) : State := advance (lineHeld (settle s (tilKey t.til) t.n.val) t false) t 16

def flight (y : Tiller) (id : Nat) : Option InFlight := y.flights.find? (fun f => decide (f.id = id))

def flightOp (y : Tiller) (id : Nat) : Option TileOp :=
  match flight y id with
  | some f => some f.op
  | none => none

def setStage (y : Tiller) (id : Nat) (g : Stage) : Tiller :=
  { y with flights := y.flights.map (fun f => if f.id = id then { f with stage := g } else f) }

/-- An accepted instruction is complete (R124): it frees its room and its lines, and a FENCE that waited for it may end.
The Sheaves of a job that has ended, or rolls back, go with the last instruction that needed them. -/
def complete (s : State) (t : Tid) (id : Nat) : State :=
  let y := til s t
  match flight y id with
  | none => s
  | some f =>
    let y := { y with flights := y.flights.filter (fun g => decide (g.id ≠ id)) }
    let y := setThr y f.thread { thr y f.thread with lineWait := false }
    let x := thr y f.thread
    let y := match x.st with
      | .waitFence _ =>
        if y.flights.any (fun g => decide (g.thread = f.thread)) then y else setThr y f.thread { x with st := .ready }
      | _ => y
    let live := decide ((jobOf s y.job).st = 2)
    let s := setTil s t (if live then y else reapSheaves y)
    match x.st with
    | .waitFence since =>
      if (thr (til s t) f.thread).st.isReady then endWait s (tilKey t) f.thread since else s
    | _ => s

/-- A Tern2 operand's invalid codes, counted under the CLS of its header (R44). -/
def countTern (s : State) (y : Tiller) (a rows cols : Nat) : State :=
  let h := hdrOf y a
  let n := ternInvalid (hop y) a h rows cols
  if n = 0 then s else bump s 0xA313 (h.cls + 1) n

end Sys2Proof.Machine
end

