-- ==== Sys2Proof/Machine/Flags.lean ====
section
/-! DEFINITION. The counts and flags a unit raises (R50, R62 to R71, R95): the Winnow's counts, the escalation
of a converting operation, the amax and non-finite flag of a Blade conversion, and the flags of one
addition. -/
namespace Sys2Proof.Machine

/-! ## The Winnow -/

/-- Adds n under a count of the Winnow, kept per Tiller where a Tiller made it (R63, R65). -/
def winnowOne (s : State) (who : Option Nat) (idx sub n : Nat) : State :=
  if n = 0 then s
  else match who with
    | some id => bumpTil s id idx sub n
    | none => bump s idx sub n

/-- Adds one operation's counts under its class and destination format. -/
def addWinnow (s : State) (who : Option Nat) (cls fmt : Nat) (c : WCount) : State :=
  let i := 0xA300 + cls
  let s := winnowOne s who i (4 * fmt + 1) c.overs
  let s := winnowOne s who i (4 * fmt + 2) c.vanish
  let s := winnowOne s who i (4 * fmt + 3) c.nonfin
  winnowOne s who i (4 * fmt + 4) c.total

/-- The class configuration a job latched (R61). -/
def jobClass (s : State) (job c k : Nat) : Nat := classCfg (jobOf s job).classes c k

/-- Whether a converting operation rounds stochastically (R52): its own field, or the class default. -/
def roundsSr (s : State) (job cls rnd : Nat) : Bool :=
  if rnd = 0 then decide (jobClass s job cls 4 = 1) else decide (rnd = 2)

/-- What a converting operation produced: the tile in its final format. -/
structure Converted where
  state : State
  out : TileOut
  esc : Bool

/-- Whether a destination is narrower than a fallback (R67, log entry 10). -/
def narrower (f g : Nat) : Bool := decide (storedBits4 f < storedBits4 g)

/-- SIZE of a converted tile of rows × cols in A layout. -/
def outSize (fmt rows cols : Nat) : Nat :=
  tileSize { user := 0, size := 0, rm1 := rows - 1, km1 := cols - 1, t := 0, cls := 0, pfmt := fmt, esc := false,
             layout := 0, fmt := fmt }

/-- Takes padding out of a conversion's count of elements. -/
def unpad (pads : Nat) (o : TileOut) : TileOut := { o with count := { o.count with total := o.count.total - pads } }

/-- One converting operation with its escalation (R46 to R71): converts, counts, and where the class's
threshold is passed and there is room for the fallback, converts again. room is in bytes; pads elements of
src are padding, given as +0: no Winnow count takes them (R39, R153). -/
def convertOp (s : State) (who : Option Nat) (job : Nat) (cv : Conv) (src : List (List FV)) (cols room pads : Nat) :
    Converted :=
  let rule := jobClass s job cv.cls 5
  let sr := if roundsSr s job cv.cls cv.rnd then some ((jobOf s job).seed.toNat, cv.key.toNat) else none
  let a := unpad pads (convTile cv.fmt rule cv.t src cols sr)
  let s := addWinnow s who cv.cls cv.fmt a.count
  let fb := jobClass s job cv.cls 2
  let th := jobClass s job cv.cls 1
  if decide (jobClass s job cv.cls 3 = 1) && narrower cv.fmt fb && lossy cv.fmt th a.count then
    if room < outSize fb src.length cols then { state := bump s 0xA311 (cv.cls + 1) 1, out := a, esc := false }
    else
      let b := unpad pads (convTile fb rule 0 src cols sr)
      let s := addWinnow s who cv.cls fb b.count
      let s := bump s 0xA310 (cv.cls + 1) 1
      let s := if lossy fb th b.count then bump s 0xA312 (cv.cls + 1) 1 else s
      { state := s, out := b, esc := true }
  else { state := s, out := a, esc := false }

/-- A conversion's scale parameters are refused: FMT 0xF (0x03), T of -128, or T for a format that is not
tile-scaled (0x02) (R33, R40). -/
def fmtCheck (fmt : Nat) (t : Int) : Check :=
  firstOf [failIf (decide (fmt = 0xF)) 0x03,
           failIf (decide (t = -128) || (decide (t ≠ 0) && !tileScaled fmt)) 0x02]

/-- The amax and the non-finite flag that a Blade conversion returns (R50). -/
def amaxReg (src : List (List FV)) : Word64 :=
  let a := src.foldl (fun a r => r.foldl maxMag a) (0, 0)
  let m := if a.1 = 0 then 0 else (rn32 (.fin false a.1 a.2)).toNat
  BitVec.ofNat 64 (m + (if src.any anyNonfin then 2 ^ 32 else 0))

/-! ## One addition into an FP32 or BF16 entry (R92 to R95) -/

/-- An entry after an addition, and whether it saturated and whether it became NaN. -/
structure Added where
  s : Word32
  e : Word32
  sat : Bool
  becameNan : Bool
  deriving DecidableEq, Repr

/-- An entry that takes a non-finite sum. -/
def addNonfin (old : Word32) (x : FV) : Added :=
  { s := rn32 x, e := 0, sat := false, becameNan := x.isNan && !isNan32 old }

/-- Plain FP32 mode: s ← rn32(s + p) (R92). -/
def addPlain (s : Word32) (p : FV) : Added :=
  let x := (val32 s).add p
  match x with
  | .fin n _ _ =>
    if over32 x then { s := top32 n, e := 0, sat := true, becameNan := false }
    else { s := rn32 x, e := 0, sat := false, becameNan := false }
  | _ => addNonfin s x

/-- Exact-compensated mode (R93): the rounding error of the sum is added to e. -/
def addEc (s e : Word32) (p : FV) : Added :=
  let x := (val32 s).add p
  match x with
  | .fin n _ _ =>
    if over32 x then { s := top32 n, e := 0, sat := true, becameNan := false }
    else
      let s' := rn32 x
      { s := s', e := rn32 ((val32 e).add (x.sub (val32 s'))), sat := false, becameNan := false }
  | _ => addNonfin s x

/-- SR mode: s + p rounded to BF16 under draw r (R94); the entry holds the BF16 value widened. -/
def addSr (s : Word32) (p : FV) (r : Nat) : Added :=
  let x := (val32 s).add p
  match x with
  | .fin n m e =>
    let c := srCode bf16 m e r
    { s := BitVec.ofNat 32 ((signBit bf16 n + c) * 65536), e := 0, sat := aboveTop bf16 m e && decide (bf16.top < rneCode bf16 m e),
      becameNan := false }
  | _ => addNonfin s x

/-- The value a drain reads (Table 03-5): rn32(s + e) in EC mode. -/
def drainValue (mode : SheafMode) (c : Word32 × Word32) : Word32 :=
  match mode with
  | .ec => rn32 ((val32 c.1).add (val32 c.2))
  | _ => c.1

end Sys2Proof.Machine
end

