-- ==== Sys2Proof/Machine/Sheaf.lean ====
section
/-! DEFINITION. The Sheaf store (R90 to R101, R118, R468): SOPEN, SDRAIN, SPASS, SHEAF_DISCARD, and the
reading and completion of drains. -/
namespace Sys2Proof.Machine

def sheafOf (y : Tiller) (sh : Nat) : Option Sheaf := kvFind y.sheaves sh

def setSheaf (y : Tiller) (sh : Nat) (x : Sheaf) : Tiller := { y with sheaves := kvPut y.sheaves sh x }

def freeSheaf (y : Tiller) (sh : Nat) : Tiller := { y with sheaves := kvDrop y.sheaves sh }

/-- Rows of a mode (Table 03-5). -/
def modeRows (m : SheafMode) : Nat := match m with | .ec => 32 | .plain => 64 | .sr => 128

/-- The entry at a row and column of a Sheaf. -/
def cell (x : Sheaf) (row col : Nat) : Word32 × Word32 := kvGet (0, 0) x.cells (256 * row + col)

def setCell (x : Sheaf) (row col : Nat) (v : Word32 × Word32) : Sheaf :=
  { x with cells := kvSet (0, 0) x.cells (256 * row + col) v }

/-- Fills a Sheaf's rows from a list of rows of entries. -/
def fillCells (x : Sheaf) (rows : List (List (Word32 × Word32))) : Sheaf :=
  foldUpto rows.length x (fun x i =>
    let r := (rows[i]?).getD []
    foldUpto r.length x (fun x j => setCell x i j ((r[j]?).getD (0, 0))))

/-- The owner's open Sheaf; anything else is refused with 0x06 (R91). -/
def ownCheck (y : Tiller) (n sh : Nat) : Check :=
  match sheafOf y sh with
  | none => some 0x06
  | some x => failIf (decide (x.owner ≠ n) || x.closing) 0x06

def rowsOf (y : Tiller) (sh : Nat) : Nat :=
  match sheafOf y sh with
  | none => 0
  | some x => modeRows x.mode

def modeOf (y : Tiller) (sh : Nat) : SheafMode :=
  match sheafOf y sh with
  | none => .plain
  | some x => x.mode

/-! ## SOPEN (Table 04-6, R91, R101, R468) -/

def sopenMode (k : Nat) : SheafMode := if k = 0 then .ec else if k = 1 then .plain else .sr

/-- Load sources that R101 allows: LD 1 pair form, 2 FP32, 3 BF16. -/
def loadAllowed (mode ld : Nat) : Bool :=
  decide (ld = 0 ∨ (mode = 0 ∧ (ld = 1 ∨ ld = 2)) ∨ (mode = 1 ∧ ld = 2) ∨ (mode = 2 ∧ ld = 3))

def sopenDecode (w : Word128) : Check :=
  let ld := bits w 42 41
  firstOf [failIf (!onlyBits w.toNat [(127, 106), (54, 48), (47, 45), (44, 43), (42, 41), (31, 22)]) 0x02,
           failIf (decide (bits w 44 43 = 3) || !loadAllowed (bits w 44 43) ld) 0x01,
           failIf (decide (ld = 0 ∧ (bits w 127 106 ≠ 0 ∨ bits w 54 48 ≠ 0))) 0x02]

/-- The source of a loaded SOPEN (R468). -/
def loadCheck (y : Tiller) (a rows ld : Nat) : Check :=
  let h := hdrOf y a
  firstOf [hdrReason (hdrBytes y a), failIf (decide (h.fmt ≠ (if ld = 3 then 1 else 0))) 0x03,
           failIf (decide (h.layout ≠ 0 ∨ h.rows < rows)) 0x04,
           failIf (decide (ld = 1 ∧ (h.cols % 2 ≠ 0 ∨ 512 < h.cols))) 0x04,
           failIf (decide (ld ≠ 1 ∧ 256 < h.cols)) 0x04, regionCheck a h.size]

def execSopen (t : Thr) (w : Word128) (s : State) : Answer :=
  .next (issueTile s t w 0x04 [regField w 127 123] (sopenDecode w) (fun s =>
    let y := til s t.til
    let sh := bits w 47 45
    let mode := sopenMode (bits w 44 43)
    let ld := bits w 42 41
    let fresh : Sheaf := { mode := mode, owner := t.n.val, cells := [], closing := false }
    match sheafOf y sh with
    | some x => if x.closing then .hold else .refuse 0x06
    | none =>
      if ld = 0 then .go (acceptDone (modTil s t.til (fun y => setSheaf y sh fresh)) t)
      else
        let rows := bits w 54 48 + 1
        let a := addrOf (thread s t) (bits w 127 106)
        if modeRows mode < rows then .refuse 0x06
        else if !drainRoom y then .room false
        else match addrCheck a with
          | some r => .refuse r
          | none =>
            if hazard y t.n.val [(a, 64)] [] then .hold
            else match loadCheck y a rows ld with
              | some r => .refuse r
              | none => .go (accept (modTil s t.til (fun y => setSheaf y sh fresh)) t w (.sload a rows sh ld)
                  [tileRange y a] [] .queued)))

/-- The entries a load fills: pair form takes s and e from columns 2n and 2n + 1. -/
def loadRows (y : Tiller) (a rows ld : Nat) : List (List (Word32 × Word32)) :=
  let h := hdrOf y a
  (upto rows).map (fun r =>
    let v := (tileRow (hop y) a h r h.cols).map rn32
    if ld = 1 then (upto (h.cols / 2)).map (fun n => ((v[2 * n]?).getD 0, (v[2 * n + 1]?).getD 0))
    else v.map (fun x => (x, 0)))

/-! ## SDRAIN (Table 04-7, R97, R219) -/

def sdrainDecode (w : Word128) : Check :=
  let out := bits w 44 43
  firstOf [failIf (!onlyBits w.toNat [(127, 106), (105, 101), (100, 85), (84, 80), (62, 55), (54, 48), (47, 45),
                    (44, 43), (42, 39), (38, 35), (34, 33), (32, 32), (31, 22), (21, 14)]) 0x02,
           failIf (decide (out = 3 ∨ bits w 34 33 = 3)) 0x01,
           failIf (decide (out ≠ 1 ∧ (bits w 42 39 ≠ 0 ∨ bits w 38 35 ≠ 0 ∨ bits w 21 14 ≠ 0))) 0x02,
           if out = 1 then fmtCheck (bits w 42 39) (sext (bits w 21 14) 8) else none]

/-- The operands of an SDRAIN word: destination, rows, columns, Sheaf, output form, close, room in lines and the conversion. -/
structure DrainWord where
  dst : Nat
  ext : Check
  m : Nat
  n : Nat
  sh : Nat
  out : Nat
  close : Bool
  cv : Conv
  deriving DecidableEq, Repr

def drainWord (x : Thread) (w : Word128) : DrainWord :=
  let ext := extents x (regField w 105 101) [(bits w 54 48, 0, 7), (bits w 62 55, 7, 8)]
  let cv : Conv := { fmt := bits w 42 39, cls := bits w 38 35, rnd := bits w 34 33, t := sext (bits w 21 14) 8,
                     key := lo32 (reg x (regField w 84 80)), room := bits w 100 85 }
  { dst := addrOf x (bits w 127 106), ext := ext.1, m := natAt ext.2 0 + 1, n := natAt ext.2 1 + 1, sh := bits w 47 45,
    out := bits w 44 43, close := bits w 32 32 = 1, cv := cv }

/-- The bytes a drain's tile needs, and those it may use. -/
def DrainWord.size (d : DrainWord) : Nat :=
  outSize (if d.out = 1 then d.cv.fmt else 0) d.m (if d.out = 2 then 2 * d.n else d.n)

def DrainWord.room (d : DrainWord) : Nat := 64 * d.cv.room

def sdrainCheck (y : Tiller) (n : Nat) (d : DrainWord) : Check :=
  firstOf [d.ext, ownCheck y n d.sh, failIf (d.out == 2 && modeOf y d.sh != .ec) 0x06,
           failIf (decide (rowsOf y d.sh < d.m)) 0x06, addrCheck d.dst, regionCheck d.dst d.room,
           failIf (decide (d.room < d.size)) 0x04]

/-- The Sheaf closes: a closing drain or a discard of it has been accepted. -/
def closeSheaf (y : Tiller) (sh : Nat) : Tiller :=
  match sheafOf y sh with
  | some b => setSheaf y sh { b with closing := true }
  | none => y

def execSdrain (t : Thr) (w : Word128) (s : State) : Answer :=
  .next (issueTile s t w 0x05 [regField w 127 123, regField w 105 101, regField w 84 80] (sdrainDecode w) (fun s =>
    let y := til s t.til
    let d := drainWord (thread s t) w
    match sdrainCheck y t.n.val d with
    | some r => .refuse r
    | none =>
      if !drainRoom y then .room false
      else
        let s := if d.close then modTil s t.til (fun y => closeSheaf y d.sh) else s
        .go (accept s t w (.sdrain d.dst d.m d.n d.sh d.out d.close d.cv) [] [(d.dst, d.room)] .queued)))

/-! ## SPASS and SHEAF_DISCARD (Table 04-8) -/

def spassDecode (w : Word128) : Check :=
  firstOf [failIf (!onlyBits w.toNat [(47, 45), (44, 43), (42, 40), (31, 22)]) 0x02,
           failIf (decide (1 < bits w 44 43)) 0x01,
           failIf (decide (bits w 44 43 = 1 ∧ bits w 42 40 ≠ 0)) 0x02]

/-- SPASS with ACT 0: the Sheaf passes to thread THR at once, in issue order (R91). -/
def execSpass (t : Thr) (w : Word128) (s : State) : Answer :=
  if bits w 44 43 = 1 then .next s
  else .next (issueTile s t w 0x06 [] (spassDecode w) (fun s =>
    let y := til s t.til
    let sh := bits w 47 45
    match ownCheck y t.n.val sh with
    | some r => .refuse r
    | none =>
      .go (acceptDone (modTil s t.til (fun y => match sheafOf y sh with
        | some b => setSheaf y sh { b with owner := bits w 42 40 }
        | none => y)) t)))

/-- SPASS with ACT 1: the Sheaf is freed once every earlier addition into it has landed (R118). -/
def execSheafDiscard (t : Thr) (w : Word128) (s : State) : Answer :=
  if bits w 44 43 ≠ 1 then .next s
  else .next (issueTile s t w 0x06 [] (spassDecode w) (fun s =>
    let y := til s t.til
    let sh := bits w 47 45
    match ownCheck y t.n.val sh with
    | some r => .refuse r
    | none =>
      let s := modTil s t.til (fun y => closeSheaf y sh)
      .go (accept s t w (.discard sh) [] [] .queued)))

/-! ## Drains under way -/

/-- Whether instruction f is done with the Sheaf as far as a later reader waits for it (R98). -/
def landed (f : InFlight) : Bool := decide (f.stage = .finishing)

/-- Every earlier instruction on the Sheaf has landed or completed. -/
def earlierLanded (y : Tiller) (id sh : Nat) : Bool :=
  y.flights.all (fun f => decide (id ≤ f.id) || !(opSheaves f.op).elem sh || landed f)

/-- Every earlier addition into the Sheaf, and its load, has been made: a drain may read (R98). -/
def earlierAdded (y : Tiller) (id sh : Nat) : Bool :=
  y.flights.all (fun f => decide (id ≤ f.id) || !(opSheaves f.op).elem sh || landed f || match f.op with
    | .sdrain .. => true
    | _ => false)

/-- No earlier drain, load or discard of the Sheaf is incomplete: an addition may be made (R98). -/
def mayAdd (y : Tiller) (id sh : Nat) : Bool :=
  y.flights.all (fun f => decide (id ≤ f.id) || !(opSheaves f.op).elem sh || match f.op with
    | .sdrain .. => false
    | .sload .. => false
    | .discard _ => false
    | _ => true)

/-- DRAIN_READ_START: the drain begins reading once every earlier addition has landed and its thread's earlier instructions have
done with its lines (R98, R123); one converting drain at a time holds the staging buffer (R100). Its wait is counted. -/
def execDrainReadStart (t : Tid) (id : Nat) (s : State) : Answer :=
  let y := til s t
  match flight y id with
  | some f =>
    match f.op with
    | .sdrain _ _ _ sh out close _ =>
      let free := (if close then earlierLanded y id sh else earlierAdded y id sh) && lineClear y f
      if tcOn s = true ∧ f.stage = .queued ∧ free = true ∧ (out ≠ 1 ∨ y.staging = none) then
        let y := setStage y id .running
        let s := setTil s t { y with staging := if out = 1 then some id else y.staging }
        .next (bumpTil s (tilKey t) 0xA200 3 (tcNow s t.field.val - f.since))
      else .next s
    | _ => .next s
  | none => .next s

/-- The words a drain writes: its rows of FP32 values, or of s and e in pair form (R97). -/
def drainWords (x : Sheaf) (m n out : Nat) : List (List Word32) :=
  (upto m).map (fun i => ((upto n).map (fun j =>
    let c := cell x i j
    if out = 2 then [c.1, c.2] else [drainValue x.mode c])).flatten)

/-- Writes an unconverted FP32 tile. -/
def writeF32 (y : Tiller) (dst : Nat) (rows : List (List Word32)) (cols : Nat) : Tiller :=
  let h := newHdr (hdrBytes y dst) 0 0 0 rows.length cols 0 0
  { y with hopper := writeAll y.hopper (tileWrites dst h (f32Tile rows)) }

/-- Writes a converted tile with the header that records what was asked for and what was written (R67, R216). -/
def writeConverted (y : Tiller) (dst : Nat) (cv : Conv) (o : TileOut) (rows cols : Nat) (esc : Bool) : Tiller :=
  let h := newHdr (hdrBytes y dst) o.fmt cv.fmt cv.cls rows cols 0 (if esc then 0 else cv.t)
  { y with hopper := writeAll y.hopper (tileWrites dst h o) }

/-- DRAIN_COMPLETE: the drain's bytes are written, after conversion and any escalation; a closing drain
frees the Sheaf (R67, R99, R101). -/
def execDrainComplete (t : Tid) (id : Nat) (s : State) : Answer :=
  let y := til s t
  match flight y id with
  | some f =>
    match f.op with
    | .sdrain dst m n sh out close cv =>
      if f.stage ≠ .running ∨ tcOn s = false then .next s
      else match sheafOf y sh with
        | none => .next s
        | some x =>
          let words := drainWords x m n out
          let s := if out = 1 then
              let c := convertOp s (some (tilKey t)) y.job cv (words.map (fun r => r.map val32)) n (64 * cv.room) 0
              modTil c.state t (fun y => writeConverted y dst cv c.out m n c.esc)
            else modTil s t (fun y => writeF32 y dst words (if out = 2 then 2 * n else n))
          let s := modTil s t (fun y => { y with staging := if y.staging = some id then none else y.staging })
          let s := if close then modTil s t (fun y => freeSheaf y sh) else s
          .next (complete s t id)
    | _ => .next s
  | none => .next s

end Sys2Proof.Machine
end

