-- ==== Sys2Proof/Machine/Drill.lean ====
section
/-! DEFINITION. The Drill (R73 to R89, R96, R105, R396, R397): MMA, the Stash and its fill, the landing of
partials, and the Drill's clock gate. -/
namespace Sys2Proof.Machine

/-! ## Work reaches the Drill -/

/-- An instruction reaches the Drill: a gated one waits for a start grant, one that runs filler starts at
the next tc (R396, R397). Filler is counted in `OD 7060:07`. -/
def reachDrill (s : State) (t : Tid) (id : Nat) : State :=
  let y := til s t
  let now := tcNow s t.field.val
  let q := y.drillQueue ++ [id]
  match y.gate with
  | .gated => setTil s t { y with drillQueue := q, gate := .waitGrant now }
  | .asking since => bump (setTil s t { y with drillQueue := q, gate := .running }) 0x7060 7 (now - since)
  | .rampDown since => bump (setTil s t { y with drillQueue := q, gate := .running }) 0x7060 7 (now - since)
  | _ => setTil s t { y with drillQueue := q }

/-! ## MMA (Table 04-4) -/

def mmaDecode (w : Word128) : Check :=
  failIf (!onlyBits w.toNat [(127, 106), (105, 84), (83, 79), (78, 63), (62, 55), (54, 48), (47, 45), (44, 44),
    (43, 39), (31, 22)]) 0x02

/-- The operands of an MMA word: weight and activation tiles, extents, Sheaf, hold and SR key. -/
structure MmaWord where
  wt : Nat
  act : Nat
  ext : Check
  m : Nat
  n : Nat
  k : Nat
  sh : Nat
  hold : Bool
  key : Word32
  deriving DecidableEq, Repr

def mmaWord (x : Thread) (w : Word128) : MmaWord :=
  let ext := extents x (regField w 83 79) [(bits w 54 48, 0, 7), (bits w 62 55, 7, 8), (bits w 78 63, 15, 16)]
  { wt := addrOf x (bits w 127 106), act := addrOf x (bits w 105 84), ext := ext.1, m := natAt ext.2 0 + 1,
    n := natAt ext.2 1 + 1, k := natAt ext.2 2 + 1, sh := bits w 47 45, hold := bits w 44 44 = 1,
    key := lo32 (reg x (regField w 43 39)) }

def MmaWord.op (a : MmaWord) : TileOp := .mma a.wt a.act a.m a.n a.k a.sh a.hold a.key

/-- Checks of an MMA that need no header. -/
def mmaEarly (y : Tiller) (n : Nat) (a : MmaWord) : Check :=
  firstOf [a.ext, ownCheck y n a.sh, failIf (decide (rowsOf y a.sh < a.m)) 0x06, addrCheck a.wt, addrCheck a.act]

/-- The two operands of an MMA (R45). -/
def mmaOperands (y : Tiller) (a : MmaWord) : Check :=
  firstOf [tileCheck y a.wt 1 a.n a.k drillWeight, tileCheck y a.act 0 a.m a.k drillAct]

def execMma (t : Thr) (w : Word128) (s : State) : Answer :=
  .next (issueTile s t w 0x00 [regField w 127 123, regField w 105 101, regField w 83 79, regField w 43 39]
    (mmaDecode w) (fun s =>
    let y := til s t.til
    let a := mmaWord (thread s t) w
    match mmaEarly y t.n.val a with
    | some r => .refuse r
    | none =>
      if !drillRoom s t then .room true
      else if hazard y t.n.val [(a.wt, 64), (a.act, 64)] [] then .hold
      else match mmaOperands y a with
        | some r => .refuse r
        | none =>
          let reads := [tileRange y a.wt, tileRange y a.act]
          .go (reachDrill (accept s t w a.op reads [] .queued) t.til y.nextId)))

/-! ## The Stash (R78 to R85) -/

/-- Groups that one Stash buffer holds (Table 03-3). -/
def groupsPerBuf (fmt : Nat) : Nat := 512 / sliceOf fmt

def spansPerPass (fmt k : Nat) : Nat := ceilDiv (ceilDiv k 32) (groupsPerBuf fmt)

def passes (n w : Nat) : Nat := ceilDiv n w

def spanAt (fmt k n w i : Nat) : Span :=
  let p := i / spansPerPass fmt k
  let g0 := (i % spansPerPass fmt k) * groupsPerBuf fmt
  { g0 := g0, ng := min (groupsPerBuf fmt) (ceilDiv k 32 - g0), col0 := p * w, ncols := min w (n - p * w) }

/-- The Hopper lines, by line number, that hold a span: its slices by ascending group, then its scales and
side bytes. -/
def spanLines (wt : Nat) (h : Hdr) (sp : Span) : List Nat :=
  dedup ((upto sp.ng).flatMap (fun g =>
    (upto sp.ncols).flatMap (fun c =>
      let a := wt + sliceOff h (sp.col0 + c) (sp.g0 + g)
      [a / 64, (a + sliceOf h.fmt - 1) / 64]
        ++ (if blockScaled h.fmt then [(wt + scaleOff h (sp.col0 + c) (sp.g0 + g)) / 64] else [])
        ++ (if h.fmt = 0xD then [(wt + sideOff h (sp.col0 + c) (sp.g0 + g)) / 64] else []))))

/-- A buffer that is to be filled with a span of the weight tile whose header is given. -/
def armBuf (wt : Nat) (head : List Byte) (sp : Span) : StashBuf :=
  let h := Hdr.parse head
  { st := .empty, wt := wt, head := head, fmt := h.fmt, g0 := sp.g0, ng := sp.ng, col0 := sp.col0, ncols := sp.ncols,
    cells := [], want := spanLines wt h sp, waits := [], ahead := none, codesTo := 0 }

/-- Whether a buffer holds, complete and for the present instruction, group g of a pass's columns. -/
def bufHas (b : StashBuf) (wt fmt g col0 ncols : Nat) : Bool :=
  (b.st == .ready || b.st == .active) && b.ahead.isNone && decide (b.wt = wt ∧ b.fmt = fmt ∧ b.g0 ≤ g ∧ g < b.g0 + b.ng
    ∧ b.col0 = col0 ∧ ncols ≤ b.ncols)

/-- Whether a buffer is assigned all of a span, complete or not. -/
def bufSpan (b : StashBuf) (wt fmt : Nat) (sp : Span) : Bool :=
  b.ahead.isNone && decide (b.wt = wt ∧ b.fmt = fmt ∧ b.g0 ≤ sp.g0 ∧ sp.g0 + sp.ng ≤ b.g0 + b.ng ∧ b.col0 = sp.col0 ∧ sp.ncols ≤ b.ncols)
    && (b.st != .empty || !b.want.isEmpty)

/-- The hold condition of R81: the same weight and format, one pass, and every group in the two buffers. -/
def holdHits (y : Tiller) (wt fmt n k w : Nat) : Bool :=
  decide (n ≤ w) && (upto (ceilDiv k 32)).all (fun g =>
    bufHas y.bufA wt fmt g 0 n || bufHas y.bufB wt fmt g 0 n)

/-- A weight that the next instruction may hold: one pass, and no more than the two buffers' spans (R81). -/
def holdable (fmt n k w : Nat) : Bool := decide (passes n w = 1 ∧ spansPerPass fmt k ≤ 2)

/-- An ACTIVE buffer that the Drill leaves, for it needs group g, which lies outside its span, is EMPTY again (R79). A weight
that R81 may hold keeps both its spans (DESIGN CHOICE, log entry 69). -/
def leaveBuf (keep : Bool) (b : StashBuf) (wt fmt g col0 ncols : Nat) : StashBuf :=
  if b.st = .active ∧ keep = false ∧ bufHas b wt fmt g col0 ncols = false then StashBuf.reset else b

/-- The Drill needs group g of a pass: a buffer it leaves becomes EMPTY, the group's own becomes ACTIVE, and the other is
armed with the next span that neither holds (R79, R85). -/
def needGroup (y : Tiller) (wt : Nat) (head : List Byte) (n k w p g : Nat) : Tiller :=
  let fmt := (Hdr.parse head).fmt
  let i := p * spansPerPass fmt k + g / groupsPerBuf fmt
  let total := passes n w * spansPerPass fmt k
  let sp := spanAt fmt k n w i
  let keep := holdable fmt n k w
  let y := { y with bufA := leaveBuf keep y.bufA wt fmt g sp.col0 sp.ncols,
                    bufB := leaveBuf keep y.bufB wt fmt g sp.col0 sp.ncols }
  let inA := bufHas y.bufA wt fmt g sp.col0 sp.ncols
  let inB := !inA && bufHas y.bufB wt fmt g sp.col0 sp.ncols
  let y := if inA then { y with bufA := { y.bufA with st := .active } }
    else if inB then { y with bufB := { y.bufB with st := .active } } else y
  if i + 1 < total then
    let nx := spanAt fmt k n w (i + 1)
    if bufSpan y.bufA wt fmt nx || bufSpan y.bufB wt fmt nx then y
    else if inA then { y with bufB := armBuf wt head nx }
    else if inB then { y with bufA := armBuf wt head nx }
    else y
  else y

def readyFor (y : Tiller) (wt fmt n k w p g : Nat) : Bool :=
  let sp := spanAt fmt k n w (p * spansPerPass fmt k + g / groupsPerBuf fmt)
  bufHas y.bufA wt fmt g sp.col0 sp.ncols || bufHas y.bufB wt fmt g sp.col0 sp.ncols

/-- The bytes of a weight as 16-byte entries hold them. -/
def cellRd (m : KV (List Byte)) (a n : Nat) : List Byte :=
  (upto n).map (fun i => ((kvGet [] m ((a + i) / 16))[(a + i) % 16]?).getD 0)

/-- The bytes of a weight as the Stash holds them. -/
def stashRd (b : StashBuf) (a n : Nat) : List Byte := cellRd b.cells a n

/-- A Drill that has taken instruction id off its queue, with the weight spans that it takes through the Stash. -/
def takeDrill (y : Tiller) (id now : Nat) (wh ah : List Byte) (stall : Bool) (spans : List (Nat × Span))
    (works : List Nat) : Tiller :=
  { setStage y id .running with
    drillQueue := y.drillQueue.drop 1,
    drill := some { id := id, pass := 0, group := 0, row := 0, stallSince := if stall then some now else none,
                    since := now, wh := wh, ah := ah, spans := spans, taken := [], works := works, due := now, stalls := 0 } }

/-- tc for which the Drill holds back the first group of an MMA of m2 rows, n2 columns and c2 tc a row behind the last group of
instruction a, so that no entry takes two partials less than 4 tc apart (R76). Row i of a fold lies in row i mod foldRows of the
Sheaf, from column (i / foldRows) × foldCols on. -/
def heldBack (a : LastAdd) (m2 n2 c2 : Nat) : Nat :=
  ((upto a.rows).filter (fun i => decide (i % a.foldRows < m2 ∧ i / a.foldRows * a.foldCols < n2))).foldl (fun h i =>
    max h (4 + (i + 1) * a.perRow - (max (a.rows * a.perRow) 4 + (i % a.foldRows + 1) * c2))) 0

/-- Counts the tc of that spacing that have not passed already. -/
def countSpacing (s : State) (t : Tid) (sh m n c : Nat) : State :=
  match (til s t).lastMma with
  | some a =>
    let k := heldBack a m n c - (tcNow s t.field.val - a.ended)
    if a.sheaf = sh ∧ k ≠ 0 then bumpTil s (tilKey t) 0xA200 2 k else s
  | none => s

/-- The buffers of an instruction that starts: one that was filled ahead for it stays, and the other, or both, are armed with
its first spans (R85). -/
def startBufs (y : Tiller) (id : Nat) (first second : StashBuf) : Tiller :=
  let mine := fun (b : StashBuf) => decide (b.ahead = some id ∧ b.head = first.head)
  if mine y.bufA then { y with bufA := { y.bufA with ahead := none }, bufB := second }
  else if mine y.bufB then { y with bufB := { y.bufB with ahead := none }, bufA := second }
  else { y with feeders := [], bufA := first, bufB := second }

/-- A matrix instruction starts: held weights are reused where R81 allows, and a hold miss is counted; otherwise its first
two spans are filled. -/
def startMma (s : State) (t : Tid) (id wt act m n k sh : Nat) (hold : Bool) : State :=
  let y := til s t
  let wh := hdrBytes y wt
  let ah := hdrBytes y act
  let fmt := (Hdr.parse wh).fmt
  let w := drillWidth y
  let hit := hold && holdHits y wt fmt n k w
  let s := if hold && !hit then bumpTil s (tilKey t) 0xA200 6 1 else s
  let s := countSpacing s t sh m n (classC (pairClass fmt (Hdr.parse ah).fmt))
  let y := til s t
  let z := if hit then y
    else startBufs y id (armBuf wt wh (spanAt fmt k n w 0))
      (if 1 < passes n w * spansPerPass fmt k then armBuf wt wh (spanAt fmt k n w 1) else StashBuf.reset)
  let z := takeDrill z id (tcNow s t.field.val) wh ah (!readyFor z wt fmt n k w 0 0) [] []
  setTil s t (needGroup z wt wh n k w 0 0)

/-! ## The feeder queues and the fill engine (R82 to R84, R202 to R204) -/

/-- The bank of the line at a Hopper address (R202). -/
def hopBank (a : Nat) : Nat := a / 64 % 64

/-- Which requests of a bank go before the fill engine's: the broadcast, and one that has waited 64 tc. -/
def beatsFill (fillWaited : Nat) (r : BankReq) : Bool :=
  r.port == 0 || (decide (64 ≤ r.waited) && (decide (fillWaited < r.waited) ||
    (decide (fillWaited = r.waited) && r.port == 0) || decide (fillWaited < 64)))

/-- The buffer the fill engine fills: the one whose span the Drill needs first. -/
def fillsA (y : Tiller) : Bool :=
  !y.bufA.want.isEmpty && (y.bufB.want.isEmpty ||
    decide (y.bufA.col0 < y.bufB.col0 ∨ (y.bufA.col0 = y.bufB.col0 ∧ y.bufA.g0 < y.bufB.g0)))

/-- The working lane whose feeder queue takes a 16-byte entry: the first lane whose slice, scale or side byte it holds
(log entry 69). -/
def blockLane (b : StashBuf) (blk : Nat) : Nat :=
  let h := Hdr.parse b.head
  let o := 16 * blk - (b.wt + 64)
  let lane := if o < elemArray h then o % groupBytes h / sliceOf h.fmt else (o - elemArray h) % scaleArray h % h.rows
  min (lane - b.col0) (b.ncols - 1)

/-- The head entry of every feeder queue moves into its Stash buffer, which is FILLING from its first entry on (R79, R84). -/
def moveHeads (y : Tiller) : Tiller :=
  y.feeders.foldl (fun y q => match q.2 with
    | [] => y
    | e :: rest =>
      let put := fun (b : StashBuf) => { b with st := .filling, cells := kvPut b.cells e.blk e.bytes }
      { y with bufA := if e.toA then put y.bufA else y.bufA, bufB := if e.toA then y.bufB else put y.bufB,
               feeders := kvSet [] y.feeders q.1 rest }) y

/-- The four entries of a line. -/
def lineBlocks (l : Nat) : List Nat := (upto 4).map (fun i => 4 * l + i)

/-- No lane's queue would hold more than 16 entries with these of a line (R84, R105). -/
def feedRoom (y : Tiller) (b : StashBuf) (l : Nat) : Bool :=
  let lanes := (lineBlocks l).map (blockLane b)
  lanes.all (fun n => decide ((kvGet [] y.feeders n).length + (lanes.filter (fun k => decide (k = n))).length ≤ 16))

/-- A granted line enters the feeder queues of its lanes. -/
def feedLine (y : Tiller) (a : Bool) (b : StashBuf) (l : Nat) : Tiller :=
  { y with feeders := (lineBlocks l).foldl (fun f k => kvMod [] f (blockLane b k)
      (· ++ [{ toA := a, blk := k, bytes := hop y (16 * k) 16 }])) y.feeders }

/-- What one tc of the fill has done: the Tiller, the banks the engine has asked for, the lanes that take no later line in this
tc, and its refused requests. -/
structure FillTc where
  til : Tiller
  banks : List Nat
  lanes : List Nat
  refused : Nat

def putBuf (y : Tiller) (a : Bool) (b : StashBuf) : Tiller := if a then { y with bufA := b } else { y with bufB := b }

/-- The engine's request of one line: refused where another request takes the bank, not made where the bank has been asked for,
a queue has no room, or an earlier line of one of its lanes still waits, and granted otherwise (R83, R84). -/
def requestLine (a : Bool) (rivals : List BankReq) (f : FillTc) (l : Nat) : FillTc :=
  let b := if a then f.til.bufA else f.til.bufB
  let k := hopBank (64 * l)
  let lanes := (lineBlocks l).map (blockLane b)
  let held := f.lanes ++ lanes
  if f.banks.elem k || lanes.any f.lanes.elem || !feedRoom f.til b l then { f with lanes := held }
  else if rivals.any (fun r => decide (hopBank r.addr = k) && beatsFill (kvGet 0 b.waits l) r) then
    { til := putBuf f.til a { b with waits := kvMod 0 b.waits l (· + 1) }, banks := k :: f.banks, lanes := held,
      refused := f.refused + 1 }
  else
    { f with til := feedLine (putBuf f.til a { b with want := b.want.filter (fun x => decide (x ≠ l)), waits := kvDrop b.waits l }) a b l,
             banks := k :: f.banks }

/-- One tc of the fill: each queue's head moves into the Stash, and the engine asks for the lines of the filling span in order
against the other requests of that tc; each line refused its bank is counted (R84, R204). -/
def fillTc (t : Tid) (rivals : List BankReq) (y : Tiller) (s : State) : State :=
  let y := moveHeads y
  let a := fillsA y
  let f := (if a then y.bufA else y.bufB).want.foldl (requestLine a rivals) { til := y, banks := [], lanes := [], refused := 0 }
  let s := setTil s t f.til
  if f.refused = 0 then s else bumpTil s (tilKey t) 0xA200 7 f.refused

/-! ## A buffer becomes READY (R79, R80) -/

/-- The next weight span of an attention instruction is in a READY buffer: the Drill takes it, leaves the other, and that one
is armed with the next span (R19, R79). A span that comes after the tc at which the Drill needs it has stalled it
(R80). -/
def takeSpan (now : Nat) (y : Tiller) : Tiller :=
  match y.drill with
  | none => y
  | some d =>
    match d.spans with
    | [] => y
    | (wt, sp) :: rest =>
      let fmt := (hdrOf y wt).fmt
      let has := fun (b : StashBuf) => b.st == .ready && bufHas b wt fmt sp.g0 sp.col0 sp.ncols
      let take := fun (b : StashBuf) (m : KV (List Byte)) => b.cells.foldl (fun m c => kvPut m c.1 c.2) m
      let next := { d with works := d.works.drop 1, due := max now d.due + natAt d.works 0, stalls := d.stalls + (now - d.due) }
      let leave := fun (b : StashBuf) => if b.st = .active then
          (match rest[0]? with
           | some p => armBuf p.1 (hdrBytes y p.1) p.2
           | none => StashBuf.reset)
        else b
      if has y.bufA then
        { y with bufA := { y.bufA with st := .active }, bufB := leave y.bufB,
                 drill := some { next with spans := rest, taken := take y.bufA d.taken } }
      else if has y.bufB then
        { y with bufB := { y.bufB with st := .active }, bufA := leave y.bufA,
                 drill := some { next with spans := rest, taken := take y.bufB d.taken } }
      else y

/-- A stall that ends: its length is counted (R80). -/
def countStall (s : State) (t : Tid) (d : DrillExec) (since : Nat) : State :=
  bumpTil (modTil s t (fun y => { y with drill := some { d with stallSince := none } })) (tilKey t) 0xA200 1
    (tcNow s t.field.val - since)

/-- The Drill goes on where the buffer it waits for is READY. -/
def endStall (s : State) (t : Tid) : State :=
  let y := til s t
  match y.drill with
  | none => s
  | some d =>
    match flightOp y d.id with
    | some (.mma wt _ _ n k _ _ _) =>
      match d.stallSince with
      | none => s
      | some since =>
        if readyFor y wt (Hdr.parse d.wh).fmt n k (drillWidth y) d.pass d.group then
          countStall (setTil s t (needGroup y wt d.wh n k (drillWidth y) d.pass d.group)) t d since
        else s
    | _ =>
      let z := iter (takeSpan (tcNow s t.field.val)) 2 y
      let n := ((z.drill.map (·.stalls)).getD 0) - d.stalls
      let s := setTil s t z
      if n = 0 then s else bumpTil s (tilKey t) 0xA200 1 n

/-- STASH_BUFFER_READY: the entries still in the feeder queues have reached the Stash, and a filling buffer whose every lane
has its last entry becomes READY (R79; log entry 69). -/
def execStashBufferReady (t : Tid) (s : State) : Answer :=
  let y := iter moveHeads 16 (til s t)
  let flip := fun (b : StashBuf) => if b.st = .filling ∧ b.want = [] then { b with st := .ready } else b
  .next (if !tcOn s then s else endStall (setTil s t { y with bufA := flip y.bufA, bufB := flip y.bufB }) t)

/-! ## What the tree computes (R86 to R89) -/

/-- The exponent of the leading bit of the largest product, for a group of finite products. -/
def topExp (ps : List FV) : Int :=
  let a := amaxOf ps
  if a.1 = 0 then 0 else expOf a.1 a.2

/-- A product truncated toward zero at bit weight 2^c. -/
def truncAt (c : Int) (v : FV) : FV :=
  match v with
  | .fin n m e => if c ≤ e then v else .fin n (m >>> (c - e).toNat) c
  | _ => v

/-- A group's partial: an exact sum of products, those of the sixteen-bit class truncated 95 bits below the
leading bit of the largest (R86, R87); NaN and infinities as R89 gives. -/
def groupSum (k : Nat) (ps : List FV) : FV :=
  if anyNonfin ps then ps.foldl FV.add (.fin false 0 0)
  else
    let ps := if k = 3 then ps.map (truncAt (topExp ps - 95)) else ps
    ps.foldl FV.add (.fin false 0 0)

/-- The partial of one group of two operand rows, over its first cnt elements (R73, R126). -/
def groupPartial (wh ah : Hdr) (wd ad : GroupData) (cnt : Nat) : FV :=
  groupSum (pairClass wh.fmt ah.fmt)
    ((upto cnt).map (fun i => (groupElem wh wd i).mul (groupElem ah ad i)))

/-- An addition into a Sheaf entry, with its counts (R92 to R95). draw is used in SR mode. -/
def addCell (s : State) (t : Tid) (sh row col : Nat) (p : FV) (draw : Nat) : State :=
  let y := til s t
  match sheafOf y sh with
  | none => s
  | some x =>
    let c := cell x row col
    let r := match x.mode with
      | .ec => addEc c.1 c.2 p
      | .plain => addPlain c.1 p
      | .sr => addSr c.1 p draw
    let s := setTil s t (setSheaf y sh (setCell x row col (r.s, r.e)))
    let s := if r.sat then bumpTil s (tilKey t) 0xA200 4 1 else s
    if r.becameNan then bumpTil s (tilKey t) 0xA200 5 1 else s

/-! ## PARTIAL_LANDS (R75 to R77, R96) -/

/-- The first use of a group by the Drill: the invalid Tern2 codes of its columns, as the Stash holds them, are counted under the
class of the weight's header; a code is counted once for each fill (R44; log entry 69). -/
def senseCodes (s : State) (t : Tid) (wt : Nat) (wh : Hdr) (g ncols col0 cnt : Nat) (inA : Bool) : State :=
  let y := til s t
  let b := if inA then y.bufA else y.bufB
  let upTo := max b.codesTo (32 * g + cnt)
  let bad := fun (c : Nat) => (upto cnt).foldl (fun n j =>
    if b.codesTo ≤ 32 * g + j ∧ codeIn 0xE (readGroup (stashRd b) wt wh (col0 + c) g).slice j = 2 then n + 1 else n) 0
  if wh.fmt ≠ 0xE ∨ upTo = b.codesTo then s
  else
    let n := (upto ncols).foldl (fun n c => n + bad c) 0
    let s := setTil s t (putBuf y inA { b with codesTo := upTo })
    if n = 0 then s else bump s 0xA313 (wh.cls + 1) n

/-- Lands group g of a row in every column of the pass. -/
def landGroup (s : State) (t : Tid) (wt act m n k sh : Nat) (key : Word32) (wh ah : Hdr) (w p g row : Nat) : State :=
  let y := til s t
  let sp := spanAt wh.fmt k n w (p * spansPerPass wh.fmt k + g / groupsPerBuf wh.fmt)
  let inA := bufHas y.bufA wt wh.fmt g sp.col0 sp.ncols
  let b := if inA then y.bufA else y.bufB
  let cnt := min 32 (k - 32 * g)
  let s := if row = 0 then senseCodes s t wt wh g sp.ncols sp.col0 cnt inA else s
  let ad := readGroup (hop y) act ah row g
  let q := (g * m + row) * n + sp.col0
  let draws := if modeOf y sh = .sr then srDraws (jobOf s y.job).seed.toNat key.toNat q sp.ncols else []
  foldUpto sp.ncols s (fun s c =>
    let wd := readGroup (stashRd b) wt wh (sp.col0 + c) g
    addCell s t sh row (sp.col0 + c) (groupPartial wh ah wd ad cnt) (natAt draws c))

/-- The next row's partials of the group that the Drill is at, or of the group pair in the ternary class, are added to their
entries; after the last row it goes on to the next group, and after the last group it is idle. -/
def landRow (s : State) (t : Tid) (d : DrillExec) (wt act m n k sh : Nat) (key : Word32) : State :=
  let wh := Hdr.parse d.wh
  let ah := Hdr.parse d.ah
  let w := drillWidth (til s t)
  let gs := ceilDiv k 32
  let kc := pairClass wh.fmt ah.fmt
  let step := if kc = 0 then 2 else 1
  let s := landGroup s t wt act m n k sh key wh ah w d.pass d.group d.row
  let s := if step = 2 ∧ d.group + 1 < gs then
      landGroup s t wt act m n k sh key wh ah w d.pass (d.group + 1) d.row else s
  let y := til s t
  if d.row + 1 < m then setTil s t { y with drill := some { d with row := d.row + 1 } }
  else
    let s := if m * classC kc < 4 then bumpTil s (tilKey t) 0xA200 2 (4 - m * classC kc) else s
    let y := til s t
    let now := tcNow s t.field.val
    let nextPG := if d.group + step < gs then (d.pass, d.group + step) else (d.pass + 1, 0)
    if nextPG.1 < passes n w then
      let y := needGroup y wt d.wh n k w nextPG.1 nextPG.2
      let stall := if readyFor y wt wh.fmt n k w nextPG.1 nextPG.2 then none else some now
      setTil s t { y with drill := some { d with pass := nextPG.1, group := nextPG.2, row := 0, stallSince := stall } }
    else
      let aft := match flight y d.id with
        | some f => isAftermath s (tilKey t) f.thread
        | none => false
      let last : LastAdd := { sheaf := sh, rows := m, perRow := classC kc, ended := now, foldRows := 128, foldCols := 0 }
      let s := setTil s t { setStage y d.id .finishing with drill := none, drillIdle := now,
                                                            lastMma := if passes n w = 1 then some last else none }
      if aft then bumpTil s (tilKey t) 0xA230 1 (now - d.since) else s

/-- PARTIAL_LANDS: a row of partials lands. Nothing lands while the group's buffer is not READY, a drain still reads the Sheaf,
or the clock is stopped. -/
def execPartialLands (t : Tid) (s : State) : Answer :=
  let y := til s t
  match (if tcOn s then y.drill else none) with
  | none => .next s
  | some d =>
    match flightOp y d.id with
    | some (.mma wt act m n k sh _ key) =>
      if !readyFor y wt (Hdr.parse d.wh).fmt n k (drillWidth y) d.pass d.group || !mayAdd y d.id sh then .next s
      else .next (landRow s t d wt act m n k sh key)
    | _ => .next s

/-! ## The clock gate of a Drill (R396, R397) -/

def drillEmpty (y : Tiller) : Bool := y.drill.isNone && y.drillQueue.isEmpty

/-- DRILL_GATE_REQUEST: a Drill idle for 256 tc asks to gate; under PWRALERT_N its ramp begins at once. -/
def execDrillGateRequest (t : Tid) (s : State) : Answer :=
  let y := til s t
  let now := tcNow s t.field.val
  if tcOn s = true ∧ y.gate = .running ∧ drillEmpty y = true ∧ 256 ≤ now - y.drillIdle then
    .next (setTil s t { y with gate := if alerted s then .rampDown now else .asking now })
  else .next s

/-- A Field grants at most one start, and one gating, in any 128 tc (R397). -/
def grantSpacing : Nat := 128

/-- DRILL_GATING_GRANT: the ramp down begins; what filler has run is counted. -/
def execDrillGatingGrant (t : Tid) (s : State) : Answer :=
  let y := til s t
  let now := tcNow s t.field.val
  match y.gate with
  | .asking since =>
    if now < kvGet 0 s.power.gateFrom t.field.val ∨ tcOn s = false then .next s
    else
      let s := { s with power := { s.power with gateFrom := kvSet 0 s.power.gateFrom t.field.val (now + grantSpacing) } }
      .next (bump (setTil s t { y with gate := .rampDown now }) 0x7060 7 (now - since))
  | _ => .next s

/-- DRILL_START_GRANT: the ramp up begins; the wait is counted in `OD 7060:06`. -/
def execDrillStartGrant (t : Tid) (s : State) : Answer :=
  let y := til s t
  let now := tcNow s t.field.val
  match y.gate with
  | .waitGrant since =>
    if now < kvGet 0 s.power.startFrom t.field.val ∨ tcOn s = false then .next s
    else
      let s := { s with power := { s.power with startFrom := kvSet 0 s.power.startFrom t.field.val (now + grantSpacing) } }
      .next (bump (setTil s t { y with gate := .rampUp now }) 0x7060 6 (now - since))
  | _ => .next s

/-- DRILL_RAMP_END: once its ramp has run 192 tc a Drill runs, or gates (R396, R397). -/
def execDrillRampEnd (t : Tid) (s : State) : Answer :=
  let y := til s t
  let now := tcNow s t.field.val
  match y.gate with
  | .rampUp since =>
    if now < since + 192 ∨ tcOn s = false then .next s else .next (bump (setTil s t { y with gate := .running, drillIdle := now }) 0x7060 6 192)
  | .rampDown since =>
    if now < since + 192 ∨ tcOn s = false then .next s else .next (bump (setTil s t { y with gate := .gated }) 0x7060 7 192)
  | _ => .next s

end Sys2Proof.Machine
end

