-- ==== Sys2Proof/Machine/Blade.lean ====
section
/-! DEFINITION. The Blade (R50, R121, R122, R469, Tables 04-9, 04-10 and 04-12): BELT, BROW and BCVT. A
Blade instruction waits for the Blade in issue order and takes effect when it completes. -/
namespace Sys2Proof.Machine

/-! ## The functions -/

/-- BELT: the result for one element (R121, R469). -/
def beltValue (fn : BeltFn) (a b s : Word32) : Word32 :=
  match fn with
  | .copy => a
  | .add => fadd a b
  | .sub => fsub a b
  | .mul => fmul a b
  | .max => fmax a b
  | .min => fmin a b
  | .axpy => faxpy s a b
  | .scale => fmul s a
  | .exp => fexp a
  | .log => flog a
  | .recip => frecip a
  | .rsqrt => frsqrt a
  | .tanh => ftanh a
  | .sigmoid => fsigmoid a
  | .silu => fsilu a
  | .gelu => fgelu a
  | .relu => fmax a 0
  | .swiglu => fswiglu a b
  | .select => if (val32 b).isZero then rn32 (val32 s) else a

/-- Functions that take b (Table 04-12). -/
def beltHasB (fn : BeltFn) : Bool :=
  match fn with
  | .add | .sub | .mul | .max | .min | .axpy | .swiglu | .select => true
  | _ => false

def laneStep (f : Word32 → Word32 → Word32) (acc : Option Word32) (v : Word32) : Option Word32 :=
  match acc with
  | none => some v
  | some a => some (f a v)

/-- One pairing of the tree: an absent input passes the other up. -/
def pairUp (f : Word32 → Word32 → Word32) (a b : Option Word32) : Option Word32 :=
  match a, b with
  | some x, some y => some (f x y)
  | some x, none => some x
  | none, y => y

/-- One level of the tree: lanes 2i and 2i + 1. -/
def treeLevel (f : Word32 → Word32 → Word32) : List (Option Word32) → List (Option Word32)
  | a :: b :: l => pairUp f a b :: treeLevel f l
  | l => l

/-- The row tree of R122: 128 lanes, then seven levels. -/
def rowTree (f : Word32 → Word32 → Word32) (l : List Word32) : Word32 :=
  let lanes := (upto 128).map (fun i => (chunksOf 128 l.length l).foldl (fun acc part =>
    match part[i]? with
    | some v => laneStep f acc v
    | none => acc) none)
  match iter (treeLevel f) 7 lanes with
  | some v :: _ => v
  | _ => 0

def rowSum (l : List Word32) : Word32 := rowTree fadd l
def rowMax (l : List Word32) : Word32 := rowTree fmax l

/-- A result in column 0 and +0 in the others. -/
def inColumn0 (v : Word32) (n : Nat) : List Word32 := v :: List.replicate (n - 1) 0

/-- Whether a ranks above b for TOPK: NaN below every number. -/
def topkAbove (a b : Word32) : Bool :=
  if isNan32 a then false else if isNan32 b then true else (val32 b).lt (val32 a)

/-- Inserts an index behind those that rank at or above it: ties go to the lower index. -/
def topkInsert (l : List (Nat × Word32)) (x : Nat × Word32) : List (Nat × Word32) :=
  match l with
  | [] => [x]
  | y :: m => if topkAbove x.2 y.2 then x :: y :: m else y :: topkInsert m x

def topkOrder (l : List Word32) : List (Nat × Word32) :=
  ((upto l.length).zip l).foldl topkInsert []

def isNegInf (w : Word32) : Bool := decide (w = 0xFF800000)

/-- BROW: the result for one row a, with b the row of gains (R122, R469). -/
def browRow (fn : BrowFn) (a b : List Word32) (s : Word32) (k : Nat) : List Word32 :=
  let n := a.length
  let c := fofNat n
  match fn with
  | .sum => inColumn0 (rowSum a) n
  | .max => inColumn0 (rowMax a) n
  | .softmax =>
    let m := rowMax a
    if isNegInf m || isNan32 m then List.replicate n nan32
    else
      let e := a.map (fun x => fexp (fsub x m))
      let t := rowSum e
      e.map (fun x => fdiv x t)
  | .lse =>
    let m := rowMax a
    if isInf32 m then inColumn0 m n
    else inColumn0 (fadd m (flog (rowSum (a.map (fun x => fexp (fsub x m)))))) n
  | .rmsnorm =>
    let q := rowSum (a.map (fun x => fmul x x))
    let r := frsqrt (fadd (fdiv q c) s)
    (a.zip b).map (fun p => fmul (fmul p.1 r) p.2)
  | .layernorm =>
    let mu := fdiv (rowSum a) c
    let d := a.map (fun x => fsub x mu)
    let v := fdiv (rowSum (d.map (fun x => fmul x x))) c
    let r := frsqrt (fadd v s)
    (d.zip b).map (fun p => fmul (fmul p.1 r) p.2)
  | .topk =>
    let o := (topkOrder a).take k
    o.map (fun p => BitVec.ofNat 32 p.1) ++ o.map (·.2) ++ List.replicate (n - 2 * k) 0

/-! ## Issue -/

/-- Issues a Blade instruction with its operands: sources a and, where given, b with its rows; size bytes
of destination. -/
def bladeIssue (s : State) (t : Thr) (w : Word128) (early : Check) (sa : Nat) (sb : Option (Nat × Nat))
    (rows cols dst dstLen : Nat) (op : TileOp) : Plan :=
  let y := til s t.til
  let n := t.n.val
  let heads := [(sa, 64)] ++ (match sb with | some b => [(b.1, 64)] | none => [])
  match firstOf [early, addrCheck sa, match sb with | some b => addrCheck b.1 | none => none] with
  | some r => .refuse r
  | none =>
    if hazard y n heads [] then .hold
    else match firstOf [tileCheck y sa 0 rows cols anyFmt,
                        match sb with | some b => tileCheck y b.1 0 b.2 cols anyFmt | none => none] with
      | some r => .refuse r
      | none =>
        let reads := [tileRange y sa] ++ (match sb with | some b => [tileRange y b.1] | none => [])
        .go (accept s t w op reads [(dst, dstLen)] .queued)

/-- The bits that Table 04-9 assigns. -/
def bladeBits : List (Nat × Nat) :=
  [(127, 106), (105, 84), (83, 62), (61, 56), (55, 49), (48, 39), (38, 34), (31, 22), (21, 17), (16, 12)]

def bladeRegs (w : Word128) : List Reg :=
  [regField w 127 123, regField w 105 101, regField w 83 79, regField w 38 34, regField w 21 17]

def bladeDecode (w : Word128) (listed hasB topk : Bool) : Check :=
  firstOf [failIf (!onlyBits w.toNat bladeBits) 0x02, failIf (!listed) 0x01,
           failIf (!hasB && decide (bits w 105 84 ≠ 0)) 0x02, failIf (!topk && decide (bits w 16 12 ≠ 0)) 0x02]

def bladeExtents (x : Thread) (w : Word128) : Check × List Nat :=
  extents x (regField w 21 17) [(bits w 55 49, 0, 7), (bits w 48 39, 7, 10)]

/-- Issue of BELT function fn, whose code is given: a word of another listed function is not this command. -/
def beltIssue (fn : BeltFn) (code : Nat) (t : Thr) (w : Word128) (s : State) : Answer :=
  let f := bits w 61 56
  if f ≠ code ∧ f ≤ 0x12 then .next s
  else .next (issueTile s t w 0x08 (bladeRegs w) (bladeDecode w (decide (f ≤ 0x12)) (beltHasB fn) false) (fun s =>
    let x := thread s t
    let ext := bladeExtents x w
    let rows := natAt ext.2 0 + 1
    let cols := natAt ext.2 1 + 1
    let sa := addrOf x (bits w 127 106)
    let sb := addrOf x (bits w 105 84)
    let dst := addrOf x (bits w 83 62)
    let len := outSize 0 rows cols
    bladeIssue s t w (firstOf [ext.1, addrCheck dst, regionCheck dst len]) sa
      (if beltHasB fn then some (sb, rows) else none) rows cols dst len
      (.belt fn sa sb dst rows cols (lo32 (reg x (regField w 38 34))))))

def browHasB (fn : BrowFn) : Bool :=
  match fn with
  | .rmsnorm | .layernorm => true
  | _ => false

/-- Issue of BROW function fn. -/
def browIssue (fn : BrowFn) (code : Nat) (t : Thr) (w : Word128) (s : State) : Answer :=
  let f := bits w 61 56
  if f ≠ code ∧ f ≤ 0x06 then .next s
  else .next (issueTile s t w 0x09 (bladeRegs w)
      (bladeDecode w (decide (f ≤ 0x06)) (browHasB fn) (fn == .topk)) (fun s =>
    let x := thread s t
    let ext := bladeExtents x w
    let rows := natAt ext.2 0 + 1
    let cols := natAt ext.2 1 + 1
    let k := bits w 16 12 + 1
    let sa := addrOf x (bits w 127 106)
    let sb := addrOf x (bits w 105 84)
    let dst := addrOf x (bits w 83 62)
    let len := outSize 0 rows cols
    bladeIssue s t w (firstOf [ext.1, failIf (fn == .topk && decide (cols < 2 * k)) 0x04, addrCheck dst,
        regionCheck dst len]) sa (if browHasB fn then some (sb, 1) else none) rows cols dst len
      (.brow fn sa sb dst rows cols k (lo32 (reg x (regField w 38 34))))))

def execBeltCopy (t : Thr) (w : Word128) (s : State) : Answer := beltIssue .copy 0x00 t w s
def execBeltAdd (t : Thr) (w : Word128) (s : State) : Answer := beltIssue .add 0x01 t w s
def execBeltSub (t : Thr) (w : Word128) (s : State) : Answer := beltIssue .sub 0x02 t w s
def execBeltMul (t : Thr) (w : Word128) (s : State) : Answer := beltIssue .mul 0x03 t w s
def execBeltMax (t : Thr) (w : Word128) (s : State) : Answer := beltIssue .max 0x04 t w s
def execBeltMin (t : Thr) (w : Word128) (s : State) : Answer := beltIssue .min 0x05 t w s
def execAxpy (t : Thr) (w : Word128) (s : State) : Answer := beltIssue .axpy 0x06 t w s
def execScale (t : Thr) (w : Word128) (s : State) : Answer := beltIssue .scale 0x07 t w s
def execExp (t : Thr) (w : Word128) (s : State) : Answer := beltIssue .exp 0x08 t w s
def execLog (t : Thr) (w : Word128) (s : State) : Answer := beltIssue .log 0x09 t w s
def execRecip (t : Thr) (w : Word128) (s : State) : Answer := beltIssue .recip 0x0A t w s
def execRsqrt (t : Thr) (w : Word128) (s : State) : Answer := beltIssue .rsqrt 0x0B t w s
def execTanh (t : Thr) (w : Word128) (s : State) : Answer := beltIssue .tanh 0x0C t w s
def execSigmoid (t : Thr) (w : Word128) (s : State) : Answer := beltIssue .sigmoid 0x0D t w s
def execSilu (t : Thr) (w : Word128) (s : State) : Answer := beltIssue .silu 0x0E t w s
def execGelu (t : Thr) (w : Word128) (s : State) : Answer := beltIssue .gelu 0x0F t w s
def execRelu (t : Thr) (w : Word128) (s : State) : Answer := beltIssue .relu 0x10 t w s
def execSwiglu (t : Thr) (w : Word128) (s : State) : Answer := beltIssue .swiglu 0x11 t w s
def execSelect (t : Thr) (w : Word128) (s : State) : Answer := beltIssue .select 0x12 t w s

def execBrowSum (t : Thr) (w : Word128) (s : State) : Answer := browIssue .sum 0x00 t w s
def execBrowMax (t : Thr) (w : Word128) (s : State) : Answer := browIssue .max 0x01 t w s
def execSoftmax (t : Thr) (w : Word128) (s : State) : Answer := browIssue .softmax 0x02 t w s
def execLse (t : Thr) (w : Word128) (s : State) : Answer := browIssue .lse 0x03 t w s
def execRmsnorm (t : Thr) (w : Word128) (s : State) : Answer := browIssue .rmsnorm 0x04 t w s
def execLayernorm (t : Thr) (w : Word128) (s : State) : Answer := browIssue .layernorm 0x05 t w s
def execTopk (t : Thr) (w : Word128) (s : State) : Answer := browIssue .topk 0x06 t w s

/-! ## BCVT (Table 04-10) -/

def bcvtDecode (w : Word128) : Check :=
  firstOf [failIf (!onlyBits w.toNat [(127, 106), (105, 84), (83, 79), (78, 63), (62, 56), (55, 46), (45, 42),
             (41, 38), (37, 36), (31, 22), (21, 14), (13, 9), (8, 4)]) 0x02,
           failIf (decide (bits w 37 36 = 3)) 0x01, fmtCheck (bits w 45 42) (sext (bits w 21 14) 8)]

def execBcvt (t : Thr) (w : Word128) (s : State) : Answer :=
  .next (issueTile s t w 0x0A [regField w 127 123, regField w 105 101, regField w 83 79, regField w 13 9,
      regField w 8 4] (bcvtDecode w) (fun s =>
    let x := thread s t
    let ext := extents x (regField w 83 79) [(bits w 62 56, 0, 7), (bits w 55 46, 7, 10)]
    let rows := natAt ext.2 0 + 1
    let cols := natAt ext.2 1 + 1
    let src := addrOf x (bits w 127 106)
    let dst := addrOf x (bits w 105 84)
    let room := bits w 78 63
    let fmt := bits w 45 42
    let cv : Conv := { fmt := fmt, cls := bits w 41 38, rnd := bits w 37 36, t := sext (bits w 21 14) 8,
                       key := lo32 (reg x (regField w 13 9)), room := room }
    bladeIssue s t w (firstOf [ext.1, addrCheck dst, regionCheck dst (64 * room),
        failIf (decide (64 * room < outSize fmt rows cols)) 0x04]) src none rows cols dst (64 * room)
      (.bcvt src dst rows cols cv (regField w 8 4))))

/-! ## Start and completion -/

def bladeFlight (f : InFlight) : Bool :=
  match f.op with
  | .belt .. => true
  | .brow .. => true
  | .bcvt .. => true
  | .bconv .. => true
  | _ => false

def bladeWaits (f : InFlight) : Bool := bladeFlight f && decide (f.stage = .queued)

/-- The Blade instruction that is to start next: the oldest whose lines are free, its thread's in program order (R123). -/
def nextBlade (y : Tiller) : Option InFlight :=
  y.flights.find? (fun f => bladeWaits f && lineClear y f &&
    y.flights.all (fun g => !(bladeWaits g && decide (g.thread = f.thread ∧ g.id < f.id))))

/-- BLADE_INSTRUCTION_START: a Blade that nothing occupies takes its oldest waiting instruction that may start (R161). -/
def execBladeInstructionStart (t : Tid) (s : State) : Answer :=
  let y := til s t
  match y.blade, (if tcOn s then nextBlade y else none) with
  | none, some f => .next (setTil s t { setStage y f.id .running with blade := some f.id })
  | _, _ => .next s

/-- Rows of a source widened to FP32; what saturates is counted in `OD A200:04`, and invalid Tern2 codes in
`OD A313` (R44, R121). -/
def widenSource (s : State) (t : Tid) (a rows cols : Nat) : State × List (List Word32) :=
  let y := til s t
  let h := hdrOf y a
  let v := (upto rows).map (fun r => (tileRow (hop y) a h r cols).map widen32)
  let sat := (v.flatten.filter (·.2)).length
  let s := countTern s y a rows cols
  (if sat = 0 then s else bumpTil s (tilKey t) 0xA200 4 sat, v.map (fun r => r.map (·.1)))

def rowAt (l : List (List Word32)) (i : Nat) : List Word32 := (l[i]?).getD []

/-- The element function of BELT over whole rows. -/
def beltRows (fn : BeltFn) (a b : List (List Word32)) (sc : Word32) : List (List Word32) :=
  (upto a.length).map (fun i =>
    let ra := rowAt a i
    let rb := rowAt b i
    (upto ra.length).map (fun j => beltValue fn ((ra[j]?).getD 0) ((rb[j]?).getD 0) sc))

/-- What a Blade instruction does when it completes: its output is written (R124). -/
def bladeEffect (s : State) (t : Tid) (f : InFlight) : State :=
  match f.op with
  | .belt fn sa sb dst rows cols sc =>
    let (s, a) := widenSource s t sa rows cols
    let (s, b) := if beltHasB fn then widenSource s t sb rows cols else (s, [])
    modTil s t (fun y => writeF32 y dst (beltRows fn a b sc) cols)
  | .brow fn sa sb dst rows cols k sc =>
    let (s, a) := widenSource s t sa rows cols
    let (s, b) := if browHasB fn then widenSource s t sb 1 cols else (s, [])
    modTil s t (fun y => writeF32 y dst (a.map (fun r => browRow fn r (rowAt b 0) sc k)) cols)
  | .bcvt src dst rows cols cv ar =>
    let job := (til s t).job
    let (s, a) := widenSource s t src rows cols
    let v := a.map (fun r => r.map val32)
    let c := convertOp s (some (tilKey t)) job cv v cols (64 * cv.room) 0
    modTil c.state t (fun y =>
      let y := writeConverted y dst cv c.out rows cols c.esc
      setThr y f.thread (setReg (thr y f.thread) ar (amaxReg v)))
  | _ => s

end Sys2Proof.Machine
end

