-- ==== Sys2Proof/Machine/Attention.lean ====
section
/-! DEFINITION. ATTF and ATTB (R148 to R161): the descriptor and its checks, masks, the forward and the
backward block, and the start of an instruction at the Drill. -/
namespace Sys2Proof.Machine

/-! ## The descriptor (Table 05-1) -/

structure AttDesc where
  mkv : Bool
  fin : Bool
  gfmt : Nat
  pfmt : Nat
  ma : Nat
  klim : Nat
  qlim : Nat
  sc : Word32
  scr : Nat
  da : Nat
  la : Nat
  gsa : Nat
  ksa : Nat
  qsa : Nat
  ga : Nat
  va : Nat
  ka : Nat
  qa : Nat
  deriving DecidableEq, Repr

def attDesc (y : Tiller) (ds : Nat) : AttDesc :=
  let w := readLe y.hopper ds 64
  { mkv := bitAt w 457, fin := bitAt w 456, gfmt := field w 452 4, pfmt := field w 448 4, ma := field w 416 32,
    klim := field w 384 32, qlim := field w 352 32, sc := BitVec.ofNat 32 (field w 320 32),
    scr := field w 288 32, da := field w 256 32, la := field w 224 32, gsa := field w 192 32,
    ksa := field w 160 32, qsa := field w 128 32, ga := field w 96 32, va := field w 64 32,
    ka := field w 32 32, qa := field w 0 32 }

/-- Bytes of the scratch region (Table 05-1). -/
def scratchBytes : Nat := 262144

/-- Formats of the probabilities and of the score gradient (R150). -/
def attFmt (f : Nat) : Bool := [0x1, 0x2, 0x6, 0x7, 0x8, 0x9, 0xA, 0xB, 0xD].elem f

/-- Formats of an attention operand (R150). -/
def attOperand (f : Nat) : Bool := decide (f ≠ 0 ∧ f ≠ 0xE)

/-- Regions the descriptor names beside its tiles: (address, length). -/
def attSpans (d : AttDesc) (q : Nat) (back : Bool) : List (Nat × Nat) :=
  [(d.scr, scratchBytes)] ++ (if d.mkv then [(d.ma, 32)] else [])
    ++ (if back then [(d.la, 4 * q), (d.da, 4 * q)] else [])

/-- An operand's role (Table 05-2): its address, its layout, whether it is blocked along d, and the extent
it needs along the sequence. -/
structure Role where
  addr : Nat
  layout : Nat
  alongD : Bool
  seq : Nat
  deriving DecidableEq, Repr

def attRoles (d : AttDesc) (q v : Nat) (back : Bool) : List Role :=
  let r := fun (a l : Nat) (al : Bool) (n : Nat) => ({ addr := a, layout := l, alongD := al, seq := n } : Role)
  if back then
    [r d.qa 0 true q, r d.ka 1 true v, r d.ga 0 true q, r d.va 1 true v, r d.gsa 1 false q, r d.ksa 1 false v,
     r d.qsa 1 false q]
  else [r d.qa 0 true q, r d.ka 1 true v, r d.va 1 false v]

/-- Reserved bits and fields of the other instruction (R148, R150). -/
def attReserved (y : Tiller) (ds : Nat) (back : Bool) : Bool :=
  let d := attDesc y ds
  decide (field (readLe y.hopper ds 64) 458 54 ≠ 0) || (!d.mkv && decide (d.ma ≠ 0)) ||
    (if back then d.fin
     else decide (d.gfmt ≠ 0 ∨ d.da ≠ 0 ∨ d.la ≠ 0 ∨ d.gsa ≠ 0 ∨ d.ksa ≠ 0 ∨ d.qsa ≠ 0 ∨ d.ga ≠ 0))

def rangeCheck (r : Nat × Nat) : Check := firstOf [addrCheck r.1, regionCheck r.1 r.2]

def attDescCheck (y : Tiller) (ds q v : Nat) (back : Bool) : Check :=
  let d := attDesc y ds
  firstOf [failIf (attReserved y ds back) 0x02,
           failIf (!attFmt d.pfmt || (back && !attFmt d.gfmt)) 0x01,
           firstOf ((attSpans d q back).map rangeCheck),
           firstOf ((attRoles d q v back).map (fun r => addrCheck r.addr))]

/-- An operand tile: its header passes, its format is accepted, its extent along d is d and along the
sequence at least what its role needs (R150). -/
def roleCheck (y : Tiller) (dim : Nat) (r : Role) : Check :=
  let h := hdrOf y r.addr
  let along := if r.alongD then h.cols else h.rows
  let seq := if r.alongD then h.rows else h.cols
  firstOf [hdrReason (hdrBytes y r.addr), failIf (!attOperand h.fmt) 0x03,
           failIf (decide (h.layout ≠ r.layout ∨ along ≠ dim ∨ seq < r.seq)) 0x04, regionCheck r.addr h.size]

/-! ## Positions and masks (R149, R152) -/

def maskedPair (d : AttDesc) (bitmap : List Byte) (pr : Word64) (mask i j : Nat) : Bool :=
  let qp : Int := (field pr.toNat 0 20 + i : Nat)
  let kp : Int := (field pr.toNat 20 20 + j : Nat)
  let w : Int := (field pr.toNat 40 20 : Nat)
  decide ((d.qlim : Int) ≤ qp) || decide ((d.klim : Int) ≤ kp) ||
    (d.mkv && !bitAt (((bitmap[j / 8]?).getD 0).toNat) (j % 8)) ||
    (decide (mask = 1 ∨ mask = 3) && decide (qp < kp)) ||
    (decide (mask = 2) && decide (w ≤ (qp - kp).natAbs)) ||
    (decide (mask = 3) && decide (w ≤ qp - kp))

def attBitmap (y : Tiller) (d : AttDesc) : List Byte := if d.mkv then hop y d.ma 32 else []

/-- Whether every pair of the extent is masked (R158). -/
def whollyMasked (y : Tiller) (ds : Nat) (pr : Word64) (q v mask : Nat) : Bool :=
  let d := attDesc y ds
  let b := attBitmap y d
  (upto q).all (fun i => (upto v).all (fun j => maskedPair d b pr mask i j))

/-! ## Issue (R150, R151, R156) -/

/-- A fold of n rows of d values into the Sheaf: it fits, and the Sheaf is not in SR mode (R151). -/
def foldCheck (y : Tiller) (sh n d : Nat) : Check :=
  failIf (modeOf y sh == .sr || decide (256 < ceilDiv n (rowsOf y sh) * d)) 0x04

/-- The softmax state of row i: m and l (R154). -/
def rowState (x : Sheaf) (i : Nat) : Word32 × Word32 :=
  ((cell x (i % 64) (2 * (i / 64))).1, (cell x (i % 64) (2 * (i / 64) + 1)).1)

def minusOne : Word32 := 0xBF800000

def finalizedRow (y : Tiller) (sh q : Nat) : Bool :=
  match sheafOf y sh with
  | none => false
  | some x => (upto q).any (fun i => decide ((rowState x i).2 = minusOne))

/-- An earlier instruction may still finalize a row of the state Sheaf (R156). -/
def mayFinalize (y : Tiller) (sh : Nat) : Bool :=
  y.flights.any (fun f => (opSheaves f.op).elem sh && match f.op with
    | .attf ds _ _ _ _ _ _ _ _ => (attDesc y ds).fin
    | .sdrain .. => false
    | .discard _ => false
    | _ => true)

def attBits (back : Bool) : List (Nat × Nat) :=
  [(127, 106), (105, 101), (100, 96), (95, 89), (88, 81), (80, 79), (78, 78), (77, 75), (74, 72), (31, 22)]
    ++ (if back then [(71, 69)] else [])

/-- The operands of an attention word (Table 04-5): descriptor, PR, SR key, Q, V, MASK, D and the Sheaves. -/
structure AttWord where
  ds : Nat
  pr : Word64
  key : Word32
  q : Nat
  v : Nat
  mask : Nat
  dim : Nat
  s1 : Nat
  s2 : Nat
  s3 : Nat
  deriving DecidableEq, Repr

def attWord (x : Thread) (w : Word128) : AttWord :=
  { ds := addrOf x (bits w 127 106), pr := reg x (regField w 105 101), key := lo32 (reg x (regField w 100 96)),
    q := bits w 95 89 + 1, v := bits w 88 81 + 1, mask := bits w 80 79, dim := if bits w 78 78 = 1 then 128 else 64,
    s1 := bits w 77 75, s2 := bits w 74 72, s3 := bits w 71 69 }

/-- Checks of an attention instruction that need no descriptor (R148 to R151). -/
def attEarly (back : Bool) (y : Tiller) (n : Nat) (a : AttWord) : Check :=
  let win := field a.pr.toNat 40 20
  firstOf [addrCheck a.ds,
    failIf (decide (field a.pr.toNat 60 4 ≠ 0 ∨ (win ≠ 0 ∧ a.mask < 2))) 0x08,
    failIf (decide (win = 0 ∧ 2 ≤ a.mask)) 0x04,
    failIf (decide (a.s1 = a.s2) || (back && decide (a.s1 = a.s3 ∨ a.s2 = a.s3))) 0x06,
    ownCheck y n a.s1, ownCheck y n a.s2, if back then ownCheck y n a.s3 else none,
    failIf (!back && modeOf y a.s2 != .plain) 0x06,
    foldCheck y a.s1 a.q a.dim,
    if back then firstOf [foldCheck y a.s2 a.v a.dim, foldCheck y a.s3 a.v a.dim] else none]

/-- The Hopper ranges an attention instruction reads: its descriptor, its rows of values and its operands. -/
def attReads (back : Bool) (y : Tiller) (a : AttWord) : List (Nat × Nat) :=
  let d := attDesc y a.ds
  (a.ds, 64) :: (attSpans d a.q back).drop 1 ++ (attRoles d a.q a.v back).map (fun r => tileRange y r.addr)

/-- The accepted operation. -/
def attOp (back : Bool) (a : AttWord) : TileOp :=
  if back then .attb a.ds a.pr a.key a.q a.v a.mask a.dim a.s1 a.s2 a.s3
  else .attf a.ds a.pr a.key a.q a.v a.mask a.dim a.s1 a.s2

def attIssue (back : Bool) (t : Thr) (w : Word128) (s : State) : Answer :=
  .next (issueTile s t w (if back then 0x02 else 0x01) [regField w 127 123, regField w 105 101, regField w 100 96]
    (failIf (!onlyBits w.toNat (attBits back)) 0x02) (fun s =>
    let y := til s t.til
    let n := t.n.val
    let a := attWord (thread s t) w
    match attEarly back y n a with
    | some r => .refuse r
    | none =>
      if !drillRoom s t then .room true
      else if hazard y n [(a.ds, 64)] [] then .hold
      else match attDescCheck y a.ds a.q a.v back with
        | some r => .refuse r
        | none =>
          let d := attDesc y a.ds
          let roles := attRoles d a.q a.v back
          if hazard y n (roles.map (fun r => (r.addr, 64))) [] then .hold
          else match firstOf (roles.map (roleCheck y a.dim)) with
            | some r => .refuse r
            | none =>
              let reads := attReads back y a
              let writes := [(d.scr, scratchBytes)]
              if !back && mayFinalize y a.s2 then .hold
              else if !back && finalizedRow y a.s2 a.q then .refuse 0x06
              else .go (reachDrill (accept s t w (attOp back a) reads writes .queued) t.til y.nextId)))

def execAttf (t : Thr) (w : Word128) (s : State) : Answer := attIssue false t w s
def execAttb (t : Thr) (w : Word128) (s : State) : Answer := attIssue true t w s

/-! ## DRILL_INSTRUCTION_START -/

def fmtAt (y : Tiller) (a : Nat) : Nat := (hdrOf y a).fmt

/-- The weight tiles of an attention instruction in the order of its phases, each with its lanes and groups (Table 05-2). -/
def attWeights (d : AttDesc) (q v dim : Nat) (back : Bool) : List (Nat × Nat × Nat) :=
  if back then [(d.ka, v, dim / 32), (d.va, v, dim / 32), (d.gsa, dim, ceilDiv q 32), (d.qsa, dim, ceilDiv q 32),
    (d.ksa, dim, ceilDiv v 32)]
  else [(d.ka, v, dim / 32), (d.va, dim, ceilDiv v 32)]

/-- The spans that bring them through the Stash: all groups of W lanes at a time. -/
def attFills (d : AttDesc) (q v dim w : Nat) (back : Bool) : List (Nat × Span) :=
  (attWeights d q v dim back).flatMap (fun x => (upto (passes x.2.1 w)).map (fun p =>
    (x.1, { g0 := 0, ng := x.2.2, col0 := p * w, ncols := min w (x.2.1 - p * w) })))

/-- A phase's tc over the spans of its weight: split evenly where it has one pass after another, else with the first; what
follows it before the next weight is needed comes with the last (Table 05-3). -/
def phaseWorks (passesOf : Nat) (perPass total after : Nat) : List Nat :=
  (upto passesOf).map (fun p => perPass + (if p = 0 then total else 0) + (if p + 1 = passesOf then after else 0))

/-- The tc of work that each span of attFills brings (Table 05-3), before any escalation. -/
def attWorks (y : Tiller) (d : AttDesc) (q v dim w r1 : Nat) (back : Bool) : List Nat :=
  let u := ceilDiv (q * v) 128
  let c := fun (a f : Nat) => classC (pairClass (fmtAt y a) f)
  let score := fun (a b : Nat) => dim / 32 * max (q * c a (fmtAt y b)) 4
  let sums := fun (groups m a f : Nat) => ceilDiv groups 32 * max (m * c a f) 4
  if back then
    phaseWorks (passes v w) (score d.ka d.qa) 0 0 ++ phaseWorks (passes v w) (score d.va d.ga) 0 (6 * u + 20)
      ++ phaseWorks (passes dim w) 0 (sums q v d.gsa d.pfmt) 0 ++ phaseWorks (passes dim w) 0 (sums q v d.qsa d.gfmt) 0
      ++ phaseWorks (passes dim w) 0 (sums v q d.ksa d.gfmt) 0
  else phaseWorks (passes v w) (score d.ka d.qa) 0 (3 * u + 12 + min q r1)
    ++ phaseWorks (passes dim w) 0 (sums v q d.va d.pfmt) 0

/-- An attention instruction takes the Drill and the Blade; the Stash no longer holds a weight, and is filled with its first
two spans (R19, R161). A block that only finalizes reads no weight. -/
def startAttention (s : State) (t : Tid) (id : Nat) (spans : List (Nat × Span)) (works : List Nat) : State :=
  let y := til s t
  let arm := fun (i : Nat) => match spans[i]? with
    | some p => armBuf p.1 (hdrBytes y p.1) p.2
    | none => StashBuf.reset
  let now := tcNow s t.field.val
  if y.blade.isSome then s
  else
    let z := { takeDrill (startBufs y id (arm 0) (arm 1)) id now [] [] false spans works with blade := some id, lastMma := none }
    setTil s t (takeSpan now z)

/-- The first span of a queued instruction that may be filled ahead: of an attention instruction, or of an MMA that holds no
weight; its lines are free of its thread's earlier instructions (R85, R123). -/
def firstFill (y : Tiller) (id : Nat) : Option (Nat × Span) :=
  match flight y id with
  | none => none
  | some f =>
    if !lineClear y f then none
    else match f.op with
      | .mma wt _ _ n k _ false _ => some (wt, spanAt (fmtAt y wt) k n (drillWidth y) 0)
      | .attf ds pr _ q v mask dim _ _ =>
        if whollyMasked y ds pr q v mask then none else (attFills (attDesc y ds) q v dim (drillWidth y) false)[0]?
      | .attb ds _ _ q v _ dim _ _ _ => (attFills (attDesc y ds) q v dim (drillWidth y) true)[0]?
      | _ => none

/-- The Drill works on the last weight span that its instruction needs, in buffer A, or in buffer B. -/
def lastSpanIn (y : Tiller) (d : DrillExec) : Option Bool :=
  match flightOp y d.id with
  | some (.mma wt _ _ n k _ _ _) =>
    let fmt := (Hdr.parse d.wh).fmt
    let w := drillWidth y
    let i := d.pass * spansPerPass fmt k + d.group / groupsPerBuf fmt
    let sp := spanAt fmt k n w i
    if i + 1 < passes n w * spansPerPass fmt k then none
    else if bufHas y.bufA wt fmt d.group sp.col0 sp.ncols then some true
    else if bufHas y.bufB wt fmt d.group sp.col0 sp.ncols then some false else none
  | _ => if !d.spans.isEmpty then none else if y.bufA.st = .active then some true else some false

/-- While the Drill works on its last span, the other buffer is armed with the first span of the instruction that is next at the
Drill (R85). -/
def armAhead (y : Tiller) : Tiller :=
  match y.drill, y.drillQueue with
  | some d, id :: _ =>
    match lastSpanIn y d, firstFill y id with
    | some inA, some (wt, sp) =>
      if y.bufA.ahead.isSome || y.bufB.ahead.isSome then y
      else putBuf y (!inA) { armBuf wt (hdrBytes y wt) sp with ahead := some id }
    | _, _ => y
  | _, _ => y

/-- FILL_LINE_REQUEST: one tc of the fill; the units that the codes of the Tiller's SRAM correct in it are counted (R408). -/
def execFillLineRequest (t : Tid) (x : FillTcIn) (s : State) : Answer :=
  .next (if tcOn s then bump (fillTc t x.rivals (armAhead (til s t)) s) 0x7880 5 x.corrected else s)

/-- DRILL_INSTRUCTION_START: an idle Drill whose clock runs takes its next instruction, once its thread's earlier instructions
have done with its lines (R123). A wholly masked ATTF
without FIN passes without occupying it (R158). -/
def execDrillInstructionStart (t : Tid) (s : State) : Answer :=
  let y := til s t
  match y.drill, y.drillQueue with
  | none, id :: rest =>
    if tcOn s = true ∧ y.gate = .running ∧ (flight y id).any (lineClear y) = true then
      match flightOp y id with
      | some (.mma wt act m n k sh hold _) => .next (startMma s t id wt act m n k sh hold)
      | some (.attf ds pr _ q v mask dim s1 _) =>
        let a := attDesc y ds
        let w := drillWidth y
        if whollyMasked y ds pr q v mask then
          if a.fin then .next (startAttention s t id [] [])
          else .next (setTil s t { setStage y id .running with drillQueue := rest })
        else .next (startAttention s t id (attFills a q v dim w false) (attWorks y a q v dim w (modeRows (modeOf y s1)) false))
      | some (.attb ds _ _ q v _ dim _ _ _) =>
        let a := attDesc y ds
        let w := drillWidth y
        .next (startAttention s t id (attFills a q v dim w true) (attWorks y a q v dim w 0 true))
      | _ => .next s
    else .next s
  | _, _ => .next s

/-! ## Shared arithmetic -/

/-- The product partials of two rows in groups of 32; pairs that keep says no to contribute nothing. -/
def dotGroups (k : Nat) (a b : List FV) (keep : Nat → Bool) : List FV :=
  let n := min a.length b.length
  let ps := (a.zip b).map (fun p => p.1.mul p.2)
  (upto (ceilDiv n 32)).map (fun g =>
    groupSum k (((upto (min 32 (n - 32 * g))).filter (fun i => keep (32 * g + i))).map
      (fun i => (ps[32 * g + i]?).getD (.fin false 0 0))))

/-- A value rounded to FP32, saturated and counted where it exceeds the range (R157). -/
def roundScore (v : FV) : Word32 × Nat := if over32 v then (rnSat32 v, 1) else (rn32 v, 0)

/-- Group partials added in ascending order from +0 (R155 step 1, R159 step 3). -/
def sumGroups (l : List FV) : Word32 × Nat :=
  l.foldl (fun a p =>
    let r := roundScore ((val32 a.1).add p)
    (r.1, a.2 + r.2)) (0, 0)

/-- A row of scores: none where masked or -Inf, and the saturations counted. -/
def scoreRow (k : Nat) (sc : Word32) (q : List FV) (ks : List (List FV)) (masked : Nat → Bool) :
    List (Option Word32) × Nat :=
  let one := fun (j : Nat) =>
    if masked j then (none, 0)
    else
      let a := sumGroups (dotGroups k q ((ks[j]?).getD []) (fun _ => true))
      let r := roundScore ((val32 sc).mul (val32 a.1))
      ((if isNegInf r.1 then none else some r.1), a.2 + r.2)
  let l := (upto ks.length).map one
  (l.map (·.1), l.foldl (fun n p => n + p.2) 0)

/-- Rows 0 to n - 1 of an operand read by rd, over its first len elements. -/
def rowsBy (rd : Nat → Nat → List Byte) (y : Tiller) (a n len : Nat) : List (List FV) :=
  let h := hdrOf y a
  (upto n).map (fun r => tileRow rd a h r len)

/-- An operand in the broadcast role is read from Hopper, one in the weight role as the Stash has brought it (R19). -/
def opRows (y : Tiller) (a n len : Nat) : List (List FV) := rowsBy (hop y) y a n len

def laneRows (y : Tiller) (a n len : Nat) : List (List FV) :=
  rowsBy (cellRd ((y.drill.map (·.taken)).getD [])) y a n len

def optAt (l : List (List (Option Word32))) (i j : Nat) : Option Word32 := (((l[i]?).getD [])[j]?).getD none

def transpose (l : List (List (Option Word32))) (cols : Nat) : List (List (Option Word32)) :=
  (upto cols).map (fun j => (upto l.length).map (fun i => optAt l i j))

/-- Element values of a converted tile in the format it was written in. -/
def outRows (o : TileOut) : List (List FV) :=
  let h : Hdr := { user := 0, size := 0, rm1 := 0, km1 := 0, t := 0, cls := 0, pfmt := o.fmt, esc := false,
                   layout := 0, fmt := o.fmt }
  o.rows.map (fun r => (r.map (fun b =>
    let d : GroupData := { slice := packCodes o.fmt b.codes, scale := b.scale, side := b.side }
    (upto b.codes.length).map (groupElem h d))).flatten)

/-- One converting operation of an attention instruction (R155, R159, R160): masked pairs are no part of it. -/
def attConvert (s : State) (t : Tid) (fmt cls : Nat) (key : Word32) (src : List (List (Option Word32)))
    (cols : Nat) : Converted :=
  let cv : Conv := { fmt := fmt, cls := cls, rnd := 0, t := 0, key := key, room := 4096 }
  let pads := (src.flatten.filter (·.isNone)).length
  convertOp s (some (tilKey t)) (til s t).job cv
    (src.map (fun r => r.map (fun o => match o with | some v => val32 v | none => .fin false 0 0)))
    cols scratchBytes pads

/-- The Sheaf entries of row i of a fold of d values (R151). -/
def foldCells (rows i d : Nat) : List (Nat × Nat) := (upto d).map (fun c => (i % rows, (i / rows) * d + c))

/-- Adds the partials of row values (keep says which count) against the lanes into row i of a Sheaf. -/
def addFolded (s : State) (t : Tid) (sh rows i d k : Nat) (row : List FV) (lanes : List (List FV))
    (keep : Nat → Bool) : State :=
  let parts := (upto d).map (fun c => dotGroups k row ((lanes[c]?).getD []) keep)
  foldUpto (ceilDiv row.length 32) s (fun s g =>
    foldUpto d s (fun s c =>
      addCell s t sh (i % rows) ((i / rows) * d + c) ((((parts[c]?).getD [])[g]?).getD (.fin false 0 0)) 0))

/-! ## ATTF (R155 to R158) -/

/-- Changes the entries of row i of a fold. -/
def modFold (x : Sheaf) (i d : Nat) (f : Word32 × Word32 → Word32 × Word32) : Sheaf :=
  (foldCells (modeRows x.mode) i d).foldl (fun x c => setCell x c.1 c.2 (f (cell x c.1 c.2))) x

def setState (x : Sheaf) (i : Nat) (m l : Word32) : Sheaf :=
  setCell (setCell x (i % 64) (2 * (i / 64)) (m, 0)) (i % 64) (2 * (i / 64) + 1) (l, 0)

/-- A row's p: exp(s − m′) of every unmasked pair, whatever its scores and state are (R155 step 3). -/
def rowProbs (st : Word32 × Word32) (sc : List (Option Word32)) : List (Option Word32) :=
  match sc.filterMap id with
  | [] => sc.map (fun _ => none)
  | a :: rest =>
    let mb := rest.foldl fmax a
    let m := if st.2 = 0 then mb else fmax st.1 mb
    sc.map (fun o => o.map (fun x => fexp (fsub x m)))

/-- What a row's scores and state ask for: nothing, a NaN row, or steps 2 to 7 with m′, α and its p. -/
inductive RowPlan where
  | skip
  | nan
  | live (m alpha l : Word32) (p : List (Option Word32))
  deriving DecidableEq, Repr

def rowPlan (st : Word32 × Word32) (sc : List (Option Word32)) : RowPlan :=
  let js := sc.filterMap id
  match js with
  | [] => .skip
  | a :: rest =>
    if js.any (fun x => isNan32 x || isInf32 x) then .nan
    else if isNan32 st.2 then .skip
    else
      let mb := rest.foldl fmax a
      let m := if st.2 = 0 then mb else fmax st.1 mb
      let alpha := if st.2 = 0 then 0 else if m = st.1 then fone else fexp (fsub st.1 m)
      .live m alpha st.2 (rowProbs st sc)

/-- Step 5: the row's O entries rescaled by α. -/
def rescale (mode : SheafMode) (alpha : Word32) (c : Word32 × Word32) : Word32 × Word32 :=
  if alpha = fone then c
  else if alpha = 0 then (0, 0)
  else (fmul alpha c.1, if mode == .ec then fmul alpha c.2 else c.2)

def modSheaf (s : State) (t : Tid) (sh : Nat) (f : Sheaf → Sheaf) : State :=
  modTil s t (fun y => match sheafOf y sh with
    | some x => setSheaf y sh (f x)
    | none => y)

def sheafAt (s : State) (t : Tid) (sh : Nat) : Sheaf :=
  (sheafOf (til s t) sh).getD { mode := .plain, owner := 0, cells := [], closing := false }

/-- A NaN row: m, l and every O entry become NaN; those that were not are counted (R157). -/
def nanRow (s : State) (t : Tid) (s1 s2 i d : Nat) : State :=
  let x1 := sheafAt s t s1
  let x2 := sheafAt s t s2
  let fresh := ((foldCells (modeRows x1.mode) i d).filter (fun c => !isNan32 (cell x1 c.1 c.2).1)).length
    + (if isNan32 (rowState x2 i).1 then 0 else 1) + (if isNan32 (rowState x2 i).2 then 0 else 1)
  let s := modSheaf s t s1 (fun x => modFold x i d (fun _ => (nan32, 0)))
  let s := modSheaf s t s2 (fun x => setState x i nan32 nan32)
  if fresh = 0 then s else bumpTil s (tilKey t) 0xA200 5 fresh

/-- Finalization of row i (R156). -/
def finalizeRow (s : State) (t : Tid) (s1 s2 d i : Nat) : State :=
  let st := rowState (sheafAt s t s2) i
  if isNan32 st.2 then s
  else if st.2 = 0 then
    let s := modSheaf s t s1 (fun x => modFold x i d (fun _ => (0, 0)))
    bumpTil (modSheaf s t s2 (fun x => setState x i (inf32 true) minusOne)) (tilKey t) 0xA220 4 1
  else
    let s := modSheaf s t s1 (fun x => modFold x i d (fun c => (fdiv (drainValue x.mode c) st.2, 0)))
    modSheaf s t s2 (fun x => setState x i (fadd st.1 (flog st.2)) minusOne)

/-- Steps 4 to 7 of one live row, and what a NaN row becomes. -/
def attfRow (s : State) (t : Tid) (s1 s2 d k : Nat) (i : Nat) (pl : RowPlan) (ph : List FV)
    (lanes : List (List FV)) : State :=
  match pl with
  | .skip => s
  | .nan => nanRow s t s1 s2 i d
  | .live m alpha l p =>
    let keep := fun (j : Nat) => ((p[j]?).getD none).isSome
    let hat := (upto ph.length).map (fun j => if keep j then rn32 ((ph[j]?).getD .nan) else 0)
    let mode := (sheafAt s t s1).mode
    let s := modSheaf s t s1 (fun x => modFold x i d (rescale x.mode alpha))
    let s := addFolded s t s1 (modeRows mode) i d k ph lanes keep
    modSheaf s t s2 (fun x => setState x i m (faxpy alpha l (rowSum hat)))

/-- Scores of every row of the block, and the saturations among them. -/
def attScores (y : Tiller) (a : AttDesc) (pr : Word64) (q v mask d : Nat) : List (List (Option Word32) × Nat) :=
  let b := attBitmap y a
  let k := pairClass (fmtAt y a.ka) (fmtAt y a.qa)
  let ks := laneRows y a.ka v d
  let qs := opRows y a.qa q d
  (upto q).map (fun i => scoreRow k a.sc ((qs[i]?).getD []) ks (fun j => maskedPair a b pr mask i j))

def addSat (s : State) (t : Tid) (n : Nat) : State := if n = 0 then s else bumpTil s (tilKey t) 0xA200 4 n

def totalOf (l : List Nat) : Nat := l.foldl (· + ·) 0

/-- Phase time of one pass over d (Table 05-3). -/
def scoreTime (v w d q c : Nat) : Nat := ceilDiv v w * (d / 32) * max (q * c) 4

/-- Invalid Tern2 codes of an attention instruction's weights, as the Stash brought them, each weight's rows and columns given
(R44). -/
def senseWeights (s : State) (t : Tid) (ws : List (Nat × Nat × Nat)) : State :=
  let y := til s t
  ws.foldl (fun s x =>
    let h := hdrOf y x.1
    let n := ternInvalid (cellRd ((y.drill.map (·.taken)).getD [])) x.1 h x.2.1 x.2.2
    if n = 0 then s else bump s 0xA313 (h.cls + 1) n) s

/-- Charges an attention instruction's occupancy, its phases with the stalls under R80 (R161, R322). -/
def chargeAttention (s : State) (t : Tid) (f : InFlight) (phases : Nat) : State :=
  let tcs := phases + ((til s t).drill.map (·.stalls)).getD 0
  let s := bumpTil s (tilKey t) 0xA220 5 tcs
  if isAftermath s (tilKey t) f.thread then bumpTil s (tilKey t) 0xA230 1 tcs else s

/-- The scratch region after an attention instruction: free bytes from its start on, as many as it wrote
(R150, log entry 2). -/
def scratch (s : State) (t : Tid) (scr : Nat) : State :=
  let (b, s) := drawBytes s
  modTil s t (fun y => { y with hopper := writeBytes y.hopper scr (b.take scratchBytes) })

def finalizeAll (s : State) (t : Tid) (s1 s2 d q : Nat) : State :=
  foldUpto q s (fun s i => finalizeRow s t s1 s2 d i)

/-- The effect of an ATTF (R155 to R158). -/
def attfEffect (s : State) (t : Tid) (f : InFlight) (ds : Nat) (pr : Word64) (key : Word32)
    (q v mask d s1 s2 : Nat) : State :=
  let y := til s t
  let a := attDesc y ds
  let r1 := modeRows (sheafAt s t s1).mode
  let s := bumpTil s (tilKey t) 0xA220 1 1
  if whollyMasked y ds pr q v mask then
    let s := bumpTil s (tilKey t) 0xA220 3 1
    if a.fin then chargeAttention (finalizeAll s t s1 s2 d q) t f (min q r1 + 16) else s
  else
    let sc := attScores y a pr q v mask d
    let s := senseWeights (addSat s t (totalOf (sc.map (·.2)))) t [(a.ka, v, d), (a.va, d, v)]
    let x2 := sheafAt s t s2
    let plans := (upto q).map (fun i => rowPlan (rowState x2 i) ((sc[i]?).getD ([], 0)).1)
    let src := (upto q).map (fun i => rowProbs (rowState x2 i) ((sc[i]?).getD ([], 0)).1)
    let c := attConvert s t a.pfmt 8 key src v
    let hats := outRows c.out
    let lanes := laneRows y a.va d v
    let ko := pairClass (fmtAt y a.va) c.out.fmt
    let s := foldUpto q c.state (fun s i =>
      attfRow s t s1 s2 d ko i ((plans[i]?).getD .skip) ((hats[i]?).getD []) lanes)
    let s := if a.fin then finalizeAll s t s1 s2 d q else s
    let u := ceilDiv (q * v) 128
    let tcs := scoreTime v (drillWidth y) d q (classC (pairClass (fmtAt y a.ka) (fmtAt y a.qa)))
      + (3 * u + 12) + (if c.esc then u + 4 else 0) + min q r1 + ceilDiv v 32 * max (q * classC ko) 4
      + (if a.fin then min q r1 + 16 else 0)
    scratch (chargeAttention s t f tcs) t a.scr

/-! ## ATTB (R159, R160) -/

/-- p of a row: padding where masked or where LSE is -Inf; NaN where LSE or D is NaN (step 2). -/
def attbP (sc : List (Option Word32)) (lse d : Word32) : List (Option Word32) :=
  if isNegInf lse then sc.map (fun _ => none)
  else sc.map (fun o => o.map (fun x => if isNan32 lse || isNan32 d then nan32 else fexp (fsub x lse)))

/-- g of a row (steps 3 and 4) by its unmasked scores, and the saturations of dP. Where LSE is -Inf the row's p are 0, and its
g are zero and never NaN (log entry 24). -/
def attbG (k : Nat) (scores : List (Option Word32)) (hat : Nat → FV) (gi : List FV) (vs : List (List FV))
    (lse d sc : Word32) : List (Option Word32) × Nat :=
  let l := (upto scores.length).map (fun j =>
    match (scores[j]?).getD none with
    | none => (none, 0)
    | some _ =>
      let dp := sumGroups (dotGroups k gi ((vs[j]?).getD []) (fun _ => true))
      let ph : FV := if isNegInf lse then .fin false 0 0 else hat j
      let g := fmul (rn32 (ph.mul (val32 (fsub dp.1 d)))) sc
      let g := if isNegInf lse then (if isNan32 g then 0 else g) else if isNan32 lse || isNan32 d then nan32 else g
      (some g, dp.2))
  (l.map (·.1), totalOf (l.map (·.2)))

/-- Accumulates converted rows against lanes into a folded Sheaf, groups ascending (step 5). -/
def attbAdd (s : State) (t : Tid) (sh d k : Nat) (rows : List (List FV)) (src : List (List (Option Word32)))
    (lanes : List (List FV)) : State :=
  let r := modeRows (sheafAt s t sh).mode
  foldUpto rows.length s (fun s i =>
    addFolded s t sh r i d k ((rows[i]?).getD []) lanes (fun j => (optAt src i j).isSome))

def word32At (y : Tiller) (a : Nat) : Word32 := BitVec.ofNat 32 (readLe y.hopper a 4)

/-- The effect of an ATTB. -/
def attbEffect (s : State) (t : Tid) (f : InFlight) (ds : Nat) (pr : Word64) (key : Word32)
    (q v mask d s1 s2 s3 : Nat) : State :=
  let y := til s t
  let a := attDesc y ds
  let lse := fun (i : Nat) => word32At y (a.la + 4 * i)
  let dd := fun (i : Nat) => word32At y (a.da + 4 * i)
  let s := bumpTil s (tilKey t) 0xA220 2 1
  let sc := attScores y a pr q v mask d
  let s := senseWeights (addSat s t (totalOf (sc.map (·.2)))) t [(a.ka, v, d), (a.va, v, d), (a.gsa, d, q), (a.qsa, d, q), (a.ksa, d, v)]
  let p := (upto q).map (fun i => attbP ((sc[i]?).getD ([], 0)).1 (lse i) (dd i))
  let pT := transpose p v
  let cp := attConvert s t a.pfmt 8 key pT q
  let hatT := outRows cp.out
  let kd := pairClass (fmtAt y a.va) (fmtAt y a.ga)
  let gs := opRows y a.ga q d
  let vs := laneRows y a.va v d
  let gr := (upto q).map (fun i => attbG kd ((sc[i]?).getD ([], 0)).1
    (fun j => ((((hatT[j]?).getD [])[i]?).getD .nan)) ((gs[i]?).getD []) vs (lse i) (dd i) a.sc)
  let s := addSat cp.state t (totalOf (gr.map (·.2)))
  let g := gr.map (·.1)
  let gT := transpose g v
  let c1 := attConvert s t a.gfmt 2 (key + 1) g v
  let c2 := attConvert c1.state t a.gfmt 2 (key + 2) gT q
  let k3 := pairClass (fmtAt y a.gsa) cp.out.fmt
  let k2 := pairClass (fmtAt y a.qsa) c2.out.fmt
  let k1 := pairClass (fmtAt y a.ksa) c1.out.fmt
  let s := attbAdd c2.state t s3 d k3 hatT pT (laneRows y a.gsa d q)
  let s := attbAdd s t s2 d k2 (outRows c2.out) gT (laneRows y a.qsa d q)
  let s := attbAdd s t s1 d k1 (outRows c1.out) g (laneRows y a.ksa d v)
  let u := ceilDiv (q * v) 128
  let esc := boolNat cp.esc + boolNat c1.esc + boolNat c2.esc
  let w := drillWidth y
  let tcs := scoreTime v w d q (classC (pairClass (fmtAt y a.ka) (fmtAt y a.qa))) + scoreTime v w d q (classC kd)
    + (6 * u + 20) + esc * (u + 4)
    + ceilDiv q 32 * max (v * classC k3) 4 + ceilDiv q 32 * max (v * classC k2) 4
    + ceilDiv v 32 * max (q * classC k1) 4
  scratch (chargeAttention s t f tcs) t a.scr

end Sys2Proof.Machine
end

