-- ==== Sys2Proof/Machine/Conv.lean ====
section
/-! DEFINITION. Convolution and pooling on the Blades (R189, R196 to R198, Tables 06-2 to 06-4): BCONV. -/
namespace Sys2Proof.Machine

/-! ## Padding modes (Table 06-2), shared with the Awn engine -/

/-- Where a coordinate reads along an axis of n: a place inside, or none where the mode gives a pad value. -/
def padCoord (mode n : Nat) (x : Int) : Option Nat :=
  if 0 ≤ x ∧ x < n then some x.toNat
  else match mode with
    | 2 => some (if x < 0 then (-x).toNat else (2 * ((n : Int) - 1) - x).toNat)
    | 3 => some (if x < 0 then 0 else n - 1)
    | _ => none

/-- A coordinate that mirror padding does not allow (R189). -/
def mirrorBad (mode n : Nat) (x : Int) : Bool :=
  decide (mode = 2) && decide (x < -((n : Int) - 1) ∨ 2 * ((n : Int) - 1) < x)

/-! ## The descriptor (Table 06-3) -/

structure ConvDesc where
  op : Nat
  pad : Nat
  cip : Bool
  bias : Bool
  kh : Nat
  kw : Nat
  sh : Nat
  sw : Nat
  padt : Nat
  padl : Nat
  c : Nat
  groups : Nat
  co : Nat
  iw : Nat
  ow : Nat
  ih : Nat
  oy0 : Nat
  sy0 : Nat
  pv : Word32
  wa : Nat
  ba : Nat
  deriving DecidableEq, Repr

def convDesc (y : Tiller) (ds : Nat) : ConvDesc :=
  let w := readLe y.hopper ds 64
  { op := field w 0 3, pad := field w 3 2, cip := bitAt w 5, bias := bitAt w 6, kh := field w 8 4 + 1,
    kw := field w 12 4 + 1, sh := field w 16 4 + 1, sw := field w 20 4 + 1, padt := field w 24 4,
    padl := field w 28 4, c := field w 42 10 + 1, groups := field w 52 10 + 1, co := field w 62 10 + 1,
    iw := field w 80 13 + 1, ow := field w 96 13 + 1, ih := field w 112 13 + 1, oy0 := field w 128 16,
    sy0 := field w 144 16, pv := BitVec.ofNat 32 (field w 160 32), wa := field w 192 32, ba := field w 224 32 }

def convReserved (y : Tiller) (ds : Nat) : Bool :=
  let w := readLe y.hopper ds 64
  decide (field w 256 256 ≠ 0 ∨ field w 125 3 ≠ 0 ∨ field w 109 3 ≠ 0 ∨ field w 93 3 ≠ 0 ∨ field w 72 8 ≠ 0
    ∨ field w 32 10 ≠ 0 ∨ field w 7 1 ≠ 0)

/-- Inputs per group, and columns of the weight tile. -/
def ConvDesc.cg (d : ConvDesc) : Nat := d.c / d.groups
def ConvDesc.kcols (d : ConvDesc) : Nat := d.kh * d.kw * d.cg

def ConvDesc.outCols (d : ConvDesc) : Nat := d.ow * d.co

/-- Whether the operation uses the padding mode (R198), and kernel positions along an axis. -/
def ConvDesc.pads (d : ConvDesc) : Bool := decide (d.op ≠ 2 ∧ d.op ≠ 3)
def ConvDesc.rowsOf (d : ConvDesc) : Nat := if d.op = 4 then 1 else d.kh
def ConvDesc.colsOf (d : ConvDesc) : Nat := if d.op = 4 then 1 else d.kw

/-- Input row and column of an output row or column and a kernel position (R186, R196). -/
def ConvDesc.inY (d : ConvDesc) (r dy : Nat) : Int := ((d.oy0 + r) * d.sh + dy : Nat) - (d.padt : Int)
def ConvDesc.inX (d : ConvDesc) (x dx : Nat) : Int := (x * d.sw + dx : Nat) - (d.padl : Int)

/-- Image row that output row r reads at dy. -/
def ConvDesc.readY (d : ConvDesc) (r dy : Nat) : Option Nat :=
  padCoord (if d.pads then d.pad else 0) d.ih (d.inY r dy)
def ConvDesc.readX (d : ConvDesc) (x dx : Nat) : Option Nat :=
  padCoord (if d.pads then d.pad else 0) d.iw (d.inX x dx)

/-- Image rows that rows output rows read. -/
def convRows (d : ConvDesc) (rows : Nat) : List Nat :=
  dedup ((upto rows).flatMap (fun r => (upto d.rowsOf).filterMap (fun dy => d.readY r dy)))

/-- The descriptor's own checks, in the order of its fields (R189, R196). -/
def convDescCheck (d : ConvDesc) (rows : Nat) : Check :=
  firstOf [
    failIf (decide (4 < d.op)) 0x01,
    failIf (decide (d.op = 4 ∧ d.co ≠ 1)) 0x02,
    failIf (decide ((d.op = 0 ∨ d.op = 2 ∨ d.op = 3) ∧ d.co ≠ d.c)) 0x04,
    failIf (decide (d.op = 0 ∧ d.groups ≠ d.c)) 0x04,
    failIf (decide (d.c % d.groups ≠ 0 ∨ d.co % d.groups ≠ 0)) 0x04,
    failIf (decide (d.kh ≤ d.padt ∨ d.kw ≤ d.padl)) 0x04,
    failIf (d.pads && (upto rows).any (fun r => (upto d.rowsOf).any (fun dy => mirrorBad d.pad d.ih (d.inY r dy)))) 0x04,
    failIf (d.pads && (upto d.ow).any (fun x => (upto d.colsOf).any (fun dx => mirrorBad d.pad d.iw (d.inX x dx)))) 0x04,
    failIf (decide (65536 < d.outCols)) 0x04]

/-- Operands: the stripe holds every image row read; the weight tile, CO rows of (dy, dx, cg) columns, and
the bias lie where the descriptor says (log entry 11). -/
def convOperands (y : Tiller) (d : ConvDesc) (src rows : Nat) : Check :=
  let h := hdrOf y src
  firstOf [tileCheck y src 0 1 (d.iw * d.c) anyFmt,
           failIf ((convRows d rows).any (fun r => decide (r < d.sy0 ∨ d.sy0 + h.rows ≤ r))) 0x04,
           if d.op < 2 then tileCheck y d.wa 0 d.co d.kcols anyFmt else none]

/-- Checks of a BCONV's descriptor, its destination and its bias (Table 06-4). DESIGN CHOICE (log entry 81): BIAS is ignored with
OP 2 to 4, and a BA that is no multiple of 4 is refused with 0x05. -/
def convEarly (y : Tiller) (ds dst rows : Nat) : Check :=
  let d := convDesc y ds
  firstOf [failIf (convReserved y ds) 0x02, convDescCheck d rows,
    regionCheck dst (outSize 0 rows d.outCols),
    if d.op < 2 then addrCheck d.wa else none,
    failIf (d.bias && decide (d.op < 2 ∧ d.ba % 4 ≠ 0)) 0x05,
    if d.bias && decide (d.op < 2) then regionCheck d.ba (4 * d.co) else none]

/-- The Hopper ranges a BCONV reads. -/
def convReads (y : Tiller) (ds src : Nat) : List (Nat × Nat) :=
  let d := convDesc y ds
  [(ds, 64), tileRange y src] ++ (if d.op < 2 then [tileRange y d.wa] else [])
    ++ (if d.bias && decide (d.op < 2) then [(d.ba, 4 * d.co)] else [])

def convPlan (s : State) (t : Thr) (w : Word128) (op : Nat) : Plan :=
  let y := til s t.til
  let x := thread s t
  let n := t.n.val
  let ds := addrOf x (bits w 127 106)
  let src := addrOf x (bits w 105 84)
  let dst := addrOf x (bits w 83 62)
  let rows := bits w 55 49 + 1
  match firstOf [addrCheck ds, addrCheck src, addrCheck dst] with
  | some r => .refuse r
  | none =>
    if hazard y n [(ds, 64)] [] then .hold
    else
      let d := convDesc y ds
      if d.op ≠ op ∧ d.op ≤ 4 then .go s
      else match convEarly y ds dst rows with
        | some r => .refuse r
        | none =>
          let heads := (src, 64) :: (if d.op < 2 then [(d.wa, 64)] else [])
          if hazard y n heads [] then .hold
          else match convOperands y d src rows with
            | some r => .refuse r
            | none =>
              .go (accept s t w (.bconv ds src dst rows) (convReads y ds src) [(dst, outSize 0 rows d.outCols)] .queued)

/-- Issue of BCONV whose descriptor holds OP op; a descriptor with another listed OP is another command. -/
def convIssue (op : Nat) (t : Thr) (w : Word128) (s : State) : Answer :=
  .next (issueTile s t w 0x0B [regField w 127 123, regField w 105 101, regField w 83 79]
    (failIf (!onlyBits w.toNat [(127, 106), (105, 84), (83, 62), (55, 49), (31, 22)]) 0x02)
    (fun s => convPlan s t w op))

def execDepthwiseConvolution (t : Thr) (w : Word128) (s : State) : Answer := convIssue 0 t w s
def execGroupedConvolution (t : Thr) (w : Word128) (s : State) : Answer := convIssue 1 t w s
def execMaxPooling (t : Thr) (w : Word128) (s : State) : Answer := convIssue 2 t w s
def execAveragePooling (t : Thr) (w : Word128) (s : State) : Answer := convIssue 3 t w s
def execArgmaxOverChannels (t : Thr) (w : Word128) (s : State) : Answer := convIssue 4 t w s

/-! ## What it computes (Table 06-4) -/

/-- The value of pixel (y, x, c) as a kernel position reads it; none where a pooling position lies outside. -/
def convPixel (d : ConvDesc) (img : KV (List Word32)) (r dy x dx c : Nat) : Option Word32 :=
  match d.readY r dy, d.readX x dx with
  | some iy, some ix => some (((kvGet [] img iy)[ix * d.c + c]?).getD 0)
  | _, _ => if d.pads then some (if d.pad = 1 then d.pv else 0) else none

/-- The kernel positions (dy, dx) in ascending order. -/
def kernel (d : ConvDesc) : List (Nat × Nat) :=
  (upto d.kh).flatMap (fun dy => (upto d.kw).map (fun dx => (dy, dx)))

/-- OP 0 and 1: fused multiply-adds over (dy, dx, cg) from +0, then the bias. -/
def convSum (d : ConvDesc) (img : KV (List Word32)) (wrow : List Word32) (bias : Option Word32)
    (r x co : Nat) : Word32 :=
  let cg := d.cg
  let base := co / (d.co / d.groups) * cg
  let acc := (kernel d).foldl (fun acc k => foldUpto cg acc (fun acc g =>
    faxpy ((wrow[(k.1 * d.kw + k.2) * cg + g]?).getD 0)
      ((convPixel d img r k.1 x k.2 (base + g)).getD 0) acc)) 0
  match bias with
  | some b => fadd acc b
  | none => acc

/-- The values of a pooling window that lie inside the image. -/
def windowOf (d : ConvDesc) (img : KV (List Word32)) (r x c : Nat) : List Word32 :=
  (kernel d).filterMap (fun k => convPixel d img r k.1 x k.2 c)

/-- OP 2: the first of the largest; a NaN gives NaN. none where the window lies wholly outside. -/
def maxPool (l : List Word32) : Option Word32 :=
  match l with
  | [] => none
  | a :: m =>
    if l.any isNan32 then some nan32
    else some (m.foldl (fun b v => if (val32 b).lt (val32 v) then v else b) a)

/-- OP 3. -/
def avgPool (d : ConvDesc) (l : List Word32) : Word32 :=
  fdiv (l.foldl fadd 0) (fofNat (if d.cip then d.kh * d.kw else l.length))

/-- OP 4: the index of the largest; NaN below every number, ties to the lower index. -/
def argmax (l : List Word32) : Nat :=
  match topkOrder l with
  | p :: _ => p.1
  | [] => 0

/-- The output value (r, x, co). empty is the free value of a maximum over no position. DESIGN CHOICE (log entry 81): OP 4 reads
kernel position (0, 0) with stride, padding and PAD applied, and ignores KH and KW. -/
def convValue (d : ConvDesc) (img : KV (List Word32)) (wt : List (List Word32)) (bias : List Word32)
    (empty : Word32) (r x co : Nat) : Word32 :=
  match d.op with
  | 2 => (maxPool (windowOf d img r x co)).getD empty
  | 3 => avgPool d (windowOf d img r x co)
  | 4 => BitVec.ofNat 32 (argmax ((upto d.c).map (fun c => (convPixel d img r 0 x 0 c).getD 0)))
  | _ => convSum d img (rowAt wt co) (if d.bias then some ((bias[co]?).getD 0) else none) r x co

/-- The effect of a BCONV when it completes. -/
def convEffect (s : State) (t : Tid) (ds src dst rows : Nat) : State :=
  let y := til s t
  let d := convDesc y ds
  let h := hdrOf y src
  let used := convRows d rows
  let img := used.map (fun iy => (iy, (tileRow (hop y) src h (iy - d.sy0) (d.iw * d.c)).map widen32))
  let wt := if d.op < 2 then (upto d.co).map (fun r => (tileRow (hop y) d.wa (hdrOf y d.wa) r d.kcols).map widen32)
    else []
  let sat := ((img.map (·.2)).flatten.filter (·.2)).length + (wt.flatten.filter (·.2)).length
  let s := addSat s t sat
  let tern := used.foldl (fun n iy => n + (ternInvalid (hop y) src h (iy - d.sy0 + 1) (d.iw * d.c)
    - ternInvalid (hop y) src h (iy - d.sy0) (d.iw * d.c))) 0
  let s := if tern = 0 then s else bump s 0xA313 (h.cls + 1) tern
  let s := if d.op < 2 then countTern s y d.wa d.co d.kcols else s
  let im : KV (List Word32) := img.foldl (fun m p => kvPut m p.1 (p.2.map (·.1))) []
  let ws := wt.map (fun r => r.map (·.1))
  let bias := if d.bias then (upto d.co).map (fun i => word32At y (d.ba + 4 * i)) else []
  let out := (upto rows).map (fun r => (upto d.ow).flatMap (fun x => (upto d.co).map (fun co =>
    convValue d im ws bias (BitVec.ofNat 32 (Config.free (s.free + (r * d.ow + x) * d.co + co))) r x co)))
  let s := if d.op = 2 then { s with free := s.free + rows * d.outCols } else s
  modTil s t (fun y => writeF32 y dst out d.outCols)

end Sys2Proof.Machine
end

