-- ==== Sys2Proof/Machine/Complete.lean ====
section
/-! DEFINITION. The completion of tile instructions (R124): TILE_INSTRUCTION_COMPLETE. -/
namespace Sys2Proof.Machine

/-- The additions into S1 that end an attention instruction: q rows of the product class that the weight at wa and a converted
format make (R76, R151). -/
def attLast (wa fmt q dim s1 now : Nat) (y : Tiller) : Option LastAdd :=
  some { sheaf := s1, rows := q, perRow := classC (pairClass (fmtAt y wa) fmt), ended := now,
         foldRows := modeRows (modeOf y s1), foldCols := dim }

/-- An attention instruction completes once the Stash has brought its weights: it has held the Drill and the Blade, and frees
both (R19, R161). -/
def completeAttention (s : State) (t : Tid) (f : InFlight) (last : Tiller → Option LastAdd)
    (effect : State → State) : State :=
  let y := til s t
  let filling := match y.drill with
    | some d => decide (d.id = f.id) && !d.spans.isEmpty
    | none => false
  if f.stage ≠ .running ∨ !(opSheaves f.op).all (mayAdd y f.id) ∨ filling = true then s
  else
    let s := effect s
    let s := modTil s t (fun y =>
      if (y.drill.map (·.id)) = some f.id then
        { y with drill := none, drillIdle := tcNow s t.field.val, lastMma := last y,
                 blade := if y.blade = some f.id then none else y.blade }
      else y)
    complete s t f.id

/-- A Blade instruction completes: its output is written and the Blade is free. -/
def completeBlade (s : State) (t : Tid) (f : InFlight) (effect : State → State) : State :=
  if f.stage ≠ .running then s
  else
    let s := effect s
    let s := modTil s t (fun y => { y with blade := if y.blade = some f.id then none else y.blade })
    complete s t f.id

/-- TILE_INSTRUCTION_COMPLETE: every effect of instruction id is done. A drain completes by DRAIN_COMPLETE. -/
def execTileInstructionComplete (t : Tid) (id : Nat) (s : State) : Answer :=
  let y := til s t
  let now := tcNow s t.field.val
  match (if tcOn s then flight y id else none) with
  | none => .next s
  | some f =>
    match f.op with
    | .mma .. => if f.stage = .finishing then .next (complete s t id) else .next s
    | .attf ds pr key q v mask d s1 s2 =>
      let a := attDesc y ds
      .next (completeAttention s t f (fun y => if a.fin then none else attLast a.va a.pfmt q d s1 now y)
        (fun s => attfEffect s t f ds pr key q v mask d s1 s2))
    | .attb ds pr key q v mask d s1 s2 s3 =>
      let a := attDesc y ds
      .next (completeAttention s t f (attLast a.ksa a.gfmt q d s1 now) (fun s => attbEffect s t f ds pr key q v mask d s1 s2 s3))
    | .sload src rows sh ld =>
      if lineClear y f then .next (complete (modSheaf s t sh (fun x => fillCells x (loadRows y src rows ld))) t id) else .next s
    | .sdrain .. => .next s
    | .discard sh =>
      if earlierLanded y id sh then .next (complete (modTil s t (fun y => freeSheaf y sh)) t id) else .next s
    | .bconv ds src dst rows => .next (completeBlade s t f (fun s => convEffect s t ds src dst rows))
    | .belt .. => .next (completeBlade s t f (fun s => bladeEffect s t f))
    | .brow .. => .next (completeBlade s t f (fun s => bladeEffect s t f))
    | .bcvt .. => .next (completeBlade s t f (fun s => bladeEffect s t f))

end Sys2Proof.Machine
end

