-- ==== Sys2Proof/Machine/Sems.lean ====
section
/-! DEFINITION. Semaphore instructions (R137 to R145, Table 04-18): SIG, WAIT and TRYWAIT. -/
namespace Sys2Proof.Machine

/-- A semaphore name that has no bit outside its fields (R137). -/
def semOk (v : Nat) : Bool := decide (field v 6 2 = 0 ∧ v < 2 ^ 20)

def headName (unit idx : Nat) : Nat := 0x80000 + 256 * unit + idx

/-- The job that holds a Headland semaphore's unit, where the unit and index exist (Table 04-18); 0 none. -/
def unitHolder (s : State) (unit idx : Nat) : Nat :=
  if unit = 0x30 ∧ idx < 2 then s.awn.holder
  else if unit = 0x40 ∧ idx < 2 then s.rot.holder
  else if 0x50 ≤ unit ∧ unit ≤ 0x5C then
    match s.stook.groups.find? (fun g => decide (g.cfg.gid = unit - 0x50)) with
    | some g => g.job
    | none => 0
  else if unit = 0x5F ∧ idx < 2 then s.stook.job
  else if unit = 0x60 then s.sowing.holder
  else 0

/-- Whether a semaphore may be a target of SIG for a job (R138): a semaphore of a Tiller the job holds, or
of a Headland unit it holds. -/
def sigAllowed (s : State) (job name : Nat) : Bool :=
  decide (job ≠ 0) && match semTil name with
    | some id => enabled s id && decide ((tilAt s id).job = job)
    | none => decide (name / 65536 = 8) && decide (unitHolder s (field name 8 8) (field name 0 6) = job)

def semWord (fn : Nat) (rd ra rb : Reg) (cnt : BitVec 10) : Nat := wordA 0x11 rd ra rb (1024 * fn + cnt.toNat)

/-- SIG: refused unless the job holds the target; waits at issue at 3 urgent messages (R142); sent once the
thread's earlier tile instructions are complete (R139). -/
def execSig (t : Thr) (rd ra rb : Reg) (cnt : BitVec 10) (s : State) : Answer :=
  let w := semWord 0 rd ra rb cnt
  .next (issueRoom s t w [rd, ra, rb] (reservedRegs [rd, rb]) (fun s =>
    let name := regN (thread s t) ra
    let y := til s t.til
    if !semOk name then refuseScalar s t w 0x08
    else if !sigAllowed s y.job name then refuseScalar s t w 0x07
    else if 3 ≤ urgentCount s t.til then waitIssue s t false
    else
      let s := settle s (tilKey t.til) t.n.val
      let pc := (thread s t).pc.setWidth 32
      let s := sendSignal s (.thread t pc (BitVec.ofNat 32 w)) name (cnt.toNat + 1) y.nextId y.job
      advance s t 4))

/-- Whether a name is one of the thread's own Tiller. -/
def ownSem (t : Thr) (name : Nat) : Bool := decide (semTil name = some (tilKey t.til))

/-- WAIT: takes the count at once, or waits behind those that began before (R140). -/
def execWait (t : Thr) (rd ra rb : Reg) (cnt : BitVec 10) (s : State) : Answer :=
  let w := semWord 1 rd ra rb cnt
  .next (issueScalar s t w [rd, ra, rb] (reservedRegs [rd, rb]) (fun s =>
    let name := regN (thread s t) ra
    let n := cnt.toNat + 1
    if !semOk name then refuseScalar s t w 0x08
    else if !ownSem t name then refuseScalar s t w 0x07
    else
      let x := sem s name
      let s := advance s t 4
      if x.waiters.isEmpty && decide (n ≤ x.count) then setSem s name { x with count := x.count - n }
      else
        let s := setSem s name { x with waiters := x.waiters ++ [.thread t n] }
        setThread s t { thread s t with st := .waitSem name n (tcNow s t.til.field.val) }))

/-- TRYWAIT: never waits; rd tells whether it took the count (R140). -/
def execTrywait (t : Thr) (rd ra rb : Reg) (cnt : BitVec 10) (s : State) : Answer :=
  let w := semWord 2 rd ra rb cnt
  .next (issueScalar s t w [rd, ra, rb] (reservedRegs [rb]) (fun s =>
    let name := regN (thread s t) ra
    let n := cnt.toNat + 1
    if !semOk name then refuseScalar s t w 0x08
    else if !ownSem t name then refuseScalar s t w 0x07
    else
      let x := sem s name
      if x.waiters.isEmpty && decide (n ≤ x.count) then
        result (setSem s name { x with count := x.count - n }) t rd 1
      else result s t rd 0))

end Sys2Proof.Machine
end

