-- ==== Sys2Proof/Machine/Awn.lean ====
section
/-! DEFINITION. The Awn engine (R183 to R195, R199, R200): clip descriptors and their checks, stem and head
tokens, output tiles and frames, and slot credit. -/
namespace Sys2Proof.Machine

/-! ## The clip descriptor (Table 06-1) -/

structure ClipDesc where
  fsem : Nat
  tslot : Nat
  nt : Nat
  room : Nat
  keyb : Nat
  cls : Nat
  rnd : Nat
  ofmt : Nat
  wfmt : Nat
  n : Nat
  pvc : Nat
  c : Nat
  head : Bool
  pad : Nat
  padl : Nat
  padt : Nat
  sw : Nat
  sh : Nat
  kw : Nat
  kh : Nat
  oh : Nat
  ow : Nat
  ih : Nat
  iw : Nat
  nf : Nat
  fstride : Nat
  pitch : Nat
  obase : Nat
  bbase : Nat
  wbase : Nat
  fbase : Nat
  deriving DecidableEq, Repr

def ClipDesc.parse (b : List Byte) : ClipDesc :=
  let w := leNat b
  let f := fun hi lo => field w lo (hi + 1 - lo)
  { fsem := f 627 608, tslot := f 607 576, nt := f 575 560, room := f 559 544, keyb := f 543 512, cls := f 507 504,
    rnd := f 503 502, ofmt := f 501 498, wfmt := f 497 494, n := f 493 481 + 1, pvc := f 480 449, c := f 447 444 + 1,
    head := decide (f 443 442 = 1), pad := f 441 440, padl := f 439 436, padt := f 435 432, sw := f 431 428 + 1,
    sh := f 427 424 + 1, kw := f 423 420 + 1, kh := f 419 416 + 1, oh := f 409 397 + 1, ow := f 396 384 + 1,
    ih := f 377 365 + 1, iw := f 364 352 + 1, nf := f 351 320, fstride := f 319 288, pitch := f 287 256,
    obase := f 255 192, bbase := f 191 128, wbase := f 127 64, fbase := f 63 0 }

def clipReserved (b : List Byte) : Bool :=
  let w := leNat b
  decide (field w 628 396 ≠ 0 ∨ field w 508 4 ≠ 0 ∨ bitAt w 448 = true ∨ field w 410 6 ≠ 0 ∨ field w 378 6 ≠ 0)

/-- Contraction length of the weight tile in stem mode. -/
def ClipDesc.k (d : ClipDesc) : Nat := d.kh * d.kw * d.c

/-- Tokens of one frame. -/
def ClipDesc.grid (d : ClipDesc) : Nat := d.ow * d.oh

/-- Bytes of one value of a frame. -/
def ClipDesc.valueBytes (d : ClipDesc) : Nat := if d.head then (if d.ofmt = 0 then 4 else 2) else 1

/-- Output tiles of a stem clip, or input tiles of a head. -/
def ClipDesc.tiles (d : ClipDesc) : Nat := if d.head then d.nf else ceilDiv (d.nf * d.grid) 64

def ClipDesc.yOf (d : ClipDesc) (oy dy : Nat) : Int := ((oy * d.sh + dy : Nat) : Int) - (d.padt : Int)
def ClipDesc.xOf (d : ClipDesc) (ox dx : Nat) : Int := ((ox * d.sw + dx : Nat) : Int) - (d.padl : Int)

/-- Lines of one full output tile in OFMT, header included. -/
def ClipDesc.lines (d : ClipDesc) : Nat := outSize d.ofmt 64 d.n / 64

/-- A Granary address the descriptor may name. -/
def clipAddr (a : Nat) : Bool := decide (a % 64 = 0 ∧ a < granaryBytes)

/-- The checks of R185, R189, R218 and R219: the reason code that refuses a descriptor. DESIGN CHOICE (log entry 80): the order of
the checks, the code of each for which the spec names none, 0x05 for a head's TSLOT that is no multiple of 64, and no check of
what the strides carry beyond the Granary. -/
def clipCheck (s : State) (b : List Byte) (d : ClipDesc) : Check :=
  let mode := field (leNat b) 442 2
  let wb := gran s d.wbase 64
  let h := Hdr.parse wb
  firstOf [
    failIf (clipReserved b) 0x02,
    failIf (decide (1 < mode ∨ d.rnd = 3)) 0x01,
    failIf (decide (d.wfmt ≠ 0x6 ∧ d.wfmt ≠ 0x1)) 0x03,
    failIf (if d.head then decide (1 < d.ofmt) else decide (d.ofmt ≠ 0x1 ∧ d.ofmt ≠ 0x6 ∧ d.ofmt ≠ 0xB ∧ d.ofmt ≠ 0xD)) 0x03,
    failIf (d.head && decide (d.nt ≠ 0 ∨ d.room ≠ 0)) 0x02,
    failIf (decide (8192 < d.n ∨ 8192 < d.ih ∨ 8192 < d.iw) || (!d.head && decide (4 < d.c ∨ d.nt = 0))) 0x04,
    failIf (!(clipAddr d.fbase && clipAddr d.wbase && clipAddr d.bbase && clipAddr d.obase)
      || decide (d.fstride % 64 ≠ 0 ∨ d.pitch % 64 ≠ 0 ∨ d.tslot % 64 ≠ 0)) 0x05,
    failIf (!semOk d.fsem) 0x08,
    failIf (!sigAllowed s s.awn.holder d.fsem) 0x07,
    failIf (decide (d.pitch < d.iw * d.c * d.valueBytes)) 0x04,
    failIf (!d.head && decide (32768 < d.iw * d.c ∨ 32 < d.kh + d.sh)) 0x04,
    failIf (!d.head && (mirrorBad d.pad d.ih (d.yOf 0 0) || mirrorBad d.pad d.ih (d.yOf (d.oh - 1) (d.kh - 1))
      || mirrorBad d.pad d.iw (d.xOf 0 0) || mirrorBad d.pad d.iw (d.xOf (d.ow - 1) (d.kw - 1)))) 0x04,
    failIf (d.head && decide (d.kh ≠ d.sh ∨ d.kw ≠ d.sw ∨ d.n ≠ d.kh * d.kw * d.c)) 0x04,
    failIf (!d.head && decide (d.room < d.lines ∨ d.tslot < d.room * 64)) 0x04,
    hdrReason wb,
    failIf (decide (h.fmt ≠ d.wfmt)) 0x03,
    failIf (decide (h.layout ≠ 1 ∨ h.rows < d.n ∨ h.size ≠ tileSize h) || (!d.head && decide (h.cols < d.k))) 0x04,
    failIf (decide (16777216 < elemArray h + scaleArray h)) 0x04,
    failIf (decide (granaryBytes < d.wbase + h.size ∨ granaryBytes < d.bbase + 4 * d.n)) 0x05]

/-! ## The ring -/

def setAwn (s : State) (a : Awn) : State := { s with awn := a }

/-- The engine can work: its function is RUNNING and its job runs. -/
def awnOn (s : State) : Bool := running s 0x30 && decide (s.awn.holder ≠ 0 ∧ (jobOf s s.awn.holder).st = 2)

/-- The engine waits from now on: status 3 for credit, 2 for frame lines. A wait of the other kind ends. -/
def awnWaits (s : State) (status : Nat) : State :=
  if s.awn.waitSince.isSome ∧ s.awn.status = status then s
  else
    let s := awnWaited s
    setAwn s { s.awn with waitSince := some s.clocks.hedgerow, status := status }

/-- Asks for what the engine reads: none where it waits, false where an uncorrectable sector is met. -/
def awnReads (s : State) (l : List (Nat × Nat)) : State × Option Bool :=
  l.foldl (fun (q : State × Option Bool) p => match q.2 with
    | some true => match localRead q.1 srcAwn p.1 p.2 with
      | .wait s => (s, none)
      | .bad s => (s, some false)
      | _ => q
    | _ => q) (s, some true)

/-- What the engine asked for has been read. -/
def awnRead (s : State) (l : List (Nat × Nat)) : State := l.foldl (fun s p => entered s srcAwn p.1 p.2) s

/-- Sends the FSEM signals whose stores are performed (R177, R191); with them ends a descriptor that has been abandoned while its
tile was being written (R200). -/
def awnFlush (s : State) : State :=
  match s.awn.run with
  | none => s
  | some r =>
    if r.due = 0 ∨ s.held.any (fun h => decide (h.source = srcAwn)) = true then s
    else
      let s := setAwn s { s.awn with run := if r.left then none else some { r with due := 0 } }
      iter (fun s => sendSignal s .engine (ClipDesc.parse r.desc).fsem 1 0 s.awn.holder) r.due s

/-- The engine loads the weight tile and the bias of the descriptor it has started, and runs it (R184; `OD 1300:02`). -/
def awnLoad (s : State) : State :=
  match s.awn.run with
  | none => s
  | some r =>
    if s.awn.status ≠ 1 ∨ awnOn s = false then s
    else
      let d := ClipDesc.parse r.desc
      let n := (Hdr.parse (gran s d.wbase 64)).size
      match localRead s srcAwn d.wbase n, localRead s srcAwn d.bbase (4 * d.n) with
      | .ok w, .ok bias =>
        setAwn (awnRead s [(d.wbase, n), (d.bbase, 4 * d.n)])
          { s.awn with run := some { r with weights := w, bias := bias }, status := 2 }
      | .wait s, _ => s
      | _, .wait s => s
      | .bad s, _ => unitError s s.awn.holder
      | _, .bad s => unitError s s.awn.holder
      | _, _ => s

/-- AWN_DESCRIPTOR_START: takes one posted descriptor and checks it; its weights and bias are then loaded. A refused one is a
program fault (R183 to R185). -/
def execAwnDescriptorStart (s : State) : Answer :=
  let a := s.awn
  let at_ := a.base + 128 * a.next
  if !awnOn s || a.run.isSome || decide (a.status = 4 ∨ a.posts = 0 ∨ a.entries = 0) then .next s
  else match localRead s srcAwn at_ 128 with
    | .wait s => .next s
    | .bad s => .next (unitError s a.holder)
    | .ok b =>
      let d := ClipDesc.parse b
      let taken := setAwn (awnRead s [(at_, 128), (d.wbase, 64)]) { a with posts := a.posts - 1, next := (a.next + 1) % a.entries }
      match clipCheck s b d with
      | some reason =>
        let s := bump (setAwn taken { taken.awn with status := 4, reason := reason }) 0xA600 5 1
        .next (programFault s a.holder)
      | none =>
        let run : AwnRun :=
          { desc := b, weights := [], bias := [], tile := 0, taken := 0, index := a.next, due := 0, lines := [], width := none,
            left := false }
        let s := setAwn taken { taken.awn with run := some run, status := 1, frame := 0, written := 0 }
        .next (claimSem s d.fsem (4, 0, 0))
    | _ => .next s

/-! ## Tokens (R186, R187, R195) -/

/-- The address of a row of a frame. -/
def ClipDesc.rowAddr (d : ClipDesc) (f y : Nat) : Nat := d.fbase + f * d.fstride + y * d.pitch

/-- The value of pixel coordinates of a frame, from the line buffer: a byte, or the padding mode's value (Table 06-2). -/
def pixel (lines : KV (List Byte)) (d : ClipDesc) (f : Nat) (y x : Int) (c : Nat) : Nat :=
  match padCoord d.pad d.ih y, padCoord d.pad d.iw x with
  | some py, some px => (((kvGet [] lines (d.rowAddr f py))[px * d.c + c]?).getD 0).toNat
  | _, _ => if d.pad = 1 then field d.pvc (8 * c) 8 else 0

/-- The K inputs of token t in stem mode (R186, R188). -/
def stemInput (lines : KV (List Byte)) (d : ClipDesc) (t : Nat) : List FV :=
  let f := t / d.grid
  let oy := t % d.grid / d.ow
  let ox := t % d.ow
  (upto d.k).map (fun k =>
    .fin false (pixel lines d f (d.yOf oy (k / d.c / d.kw)) (d.xOf ox (k / d.c % d.kw)) (k % d.c)) 0)

/-- The bytes of the weights as loaded. -/
def weightRd (w : List Byte) (a n : Nat) : List Byte := (w.drop a).take n

/-- One output of a token: partials of groups of 32 in ascending order into an FP32 sum from +0, then the bias
(R187). -/
def tokenOut (h : Hdr) (w bias : List Byte) (cls : Nat) (input : List FV) (n : Nat) : Word32 :=
  let gs := ceilDiv input.length 32
  let sum := (upto gs).foldl (fun (acc : Word32) g =>
    let wd := readGroup (weightRd w) 0 h n g
    let ps := ((input.drop (32 * g)).take 32)
    let prods := (ps.zip (upto ps.length)).map (fun p => (groupElem h wd p.2).mul p.1)
    (addPlain acc (groupSum cls prods)).s) 0
  fadd sum (BitVec.ofNat 32 (leNat ((bias.drop (4 * n)).take 4)))

/-- Every output of a token. -/
def tokenOuts (r : AwnRun) (d : ClipDesc) (cls : Nat) (input : List FV) : List Word32 :=
  let h := Hdr.parse r.weights
  (upto d.n).map (tokenOut h r.weights r.bias cls input)

def clipConv (d : ClipDesc) (key : Nat) : Conv :=
  { fmt := d.ofmt, cls := d.cls, rnd := d.rnd, t := 0, key := BitVec.ofNat 32 key, room := d.room }

/-! ## Stem tiles (R188, R191) -/

/-- The frame rows that token rows read, as (address, bytes); token row q is row q mod OH of frame q div OH. -/
def rowsFor (d : ClipDesc) (qs : List Nat) : List (Nat × Nat) :=
  qs.flatMap (fun q => (upto d.kh).filterMap (fun dy =>
    (padCoord d.pad d.ih (d.yOf (q % d.oh) dy)).map (fun y => (d.rowAddr (q / d.oh) y, d.iw * d.c))))

/-- The frame lines a tile reads: the rows of the frames of its tokens, each once. -/
def tileRows (d : ClipDesc) (t0 n : Nat) : List (Nat × Nat) :=
  (dedup ((rowsFor d (dedup ((upto n).map (fun i => (t0 + i) / d.ow)))).map (·.1))).map (fun a => (a, d.iw * d.c))

/-- The rows among them that the line buffer does not hold: no frame row is read twice (R190). -/
def freshRows (r : AwnRun) (d : ClipDesc) (t0 n : Nat) : List (Nat × Nat) :=
  (tileRows d t0 n).filter (fun p => (kvFind r.lines p.1).isNone)

/-- The line buffer with a tile's rows in it. -/
def tileLines (s : State) (r : AwnRun) (d : ClipDesc) (t0 n : Nat) : KV (List Byte) :=
  (freshRows r d t0 n).foldl (fun m p => kvPut m p.1 (gran s p.1 p.2)) r.lines

/-- The rows that the tokens from t on still need in their frame: the halo of the stripes to come (R190). -/
def keepRows (d : ClipDesc) (t : Nat) (lines : KV (List Byte)) : KV (List Byte) :=
  if t % d.grid = 0 then []
  else
    let q := t / d.ow
    let need := (rowsFor d ((upto (d.oh - q % d.oh)).map (q + ·))).map (·.1)
    lines.filter (fun p => need.elem p.1)

/-- Performs the engine's stores; the signals they announce come due. -/
def awnStore (s : State) (ws : List (Nat × List Byte)) (signals : Nat) : State :=
  let r := ws.foldl (fun (q : State × Bool) p =>
    let z := store q.1 srcAwn none p.1 p.2
    (z.1, q.2 || z.2)) (s, false)
  let s := r.1
  let s := match s.awn.run with
    | some run => setAwn s { s.awn with run := some { run with due := run.due + signals } }
    | none => s
  let s := awnFlush s
  if r.2 then unitError s s.awn.holder else s

/-- Frames whose last token is token t or one before it. -/
def framesDone (d : ClipDesc) (t : Nat) : Nat := t / d.grid

/-- Writes output tile j into its slot. -/
def stemTile (s : State) (r : AwnRun) (d : ClipDesc) : State :=
  let j := r.tile
  let t0 := 64 * j
  let n := min 64 (d.nf * d.grid - t0)
  let q := awnReads s (freshRows r d t0 n)
  match q.2 with
  | none => awnWaits q.1 2
  | some false => unitError q.1 s.awn.holder
  | some true =>
    let dst := d.obase + j % d.nt * d.tslot
    let cls := if d.wfmt = 1 then 3 else 2
    let lines := tileLines q.1 r d t0 n
    let src := (upto n).map (fun i => (tokenOuts r d cls (stemInput lines d (t0 + i))).map val32)
    let conv := fun (s : State) => convertOp s none s.awn.holder (clipConv d ((d.keyb + j) % 2 ^ 32)) src d.n (64 * d.room) 0
    let out := (conv q.1).out
    let h := newHdr (gran q.1 dst 64) out.fmt d.ofmt d.cls n d.n 0 0
    let ws := tileWrites dst h out
    let m := storeGate q.1 srcAwn ws
    if !m.2 then awnWaited m.1
    else
      let s := awnWaited (awnRead (conv m.1).state (freshRows r d t0 n))
      let fr := framesDone d (t0 + n)
      let s := bump (bump s 0xA600 3 1) 0xA600 2 (fr - framesDone d t0)
      let s := setAwn s { s.awn with
        run := some { r with tile := j + 1, taken := if d.nt ≤ j then r.taken + 1 else r.taken,
                             lines := keepRows d (t0 + n) lines },
        credits := if d.nt ≤ j then s.awn.credits - 1 else s.awn.credits, frame := fr, written := j + 1, status := 2 }
      progress (awnStore s ws 1) s.awn.holder

/-! ## Head frames (R195) -/

/-- Output columns of a token at their pixels: (address, bytes) of those inside the frame. -/
def headPixels (d : ClipDesc) (t : Nat) (vals : List Nat) : List (Nat × List Byte) :=
  let f := t / d.grid
  let oy := t % d.grid / d.ow
  let ox := t % d.ow
  (vals.zip (upto vals.length)).filterMap (fun p =>
    let y := oy * d.kh + p.2 / d.c / d.kw
    let x := ox * d.kw + p.2 / d.c % d.kw
    if y < d.ih ∧ x < d.iw then
      some (d.obase + f * d.fstride + y * d.pitch + (x * d.c + p.2 % d.c) * d.valueBytes, toLe d.valueBytes p.1)
    else none)

/-- Computes the next input tile and writes its pixels; FSEM is signalled as each frame completes. The token output is a
converting operation whatever OFMT is, FP32 included (R46, R187; log entry 71). DESIGN CHOICE (log entries 71, 80): a
tile whose header, format, layout, rows or width do not fit is taken as a refused descriptor. -/
def headTile (s : State) (r : AwnRun) (d : ClipDesc) : State :=
  let i := r.tile
  let src := d.fbase + i * d.tslot
  let hb := gran s src 64
  let h := Hdr.parse hb
  let wh := Hdr.parse r.weights
  let bad := firstOf [hdrReason hb, failIf (decide (h.fmt ≠ 0x1 ∧ h.fmt ≠ 0x6 ∧ h.fmt ≠ 0xB ∧ h.fmt ≠ 0xD)) 0x03,
    failIf (decide (h.layout ≠ 0 ∨ h.size ≠ tileSize h ∨ 64 < h.rows ∨ 8192 < h.cols ∨ wh.cols < h.cols ∨
      r.width.getD h.cols ≠ h.cols)) 0x04,
    failIf (decide (granaryBytes < src + h.size)) 0x05]
  let rd := [(src, if bad.isSome then 64 else h.size)]
  let q := awnReads s rd
  match q.2, bad with
  | none, _ => awnWaits q.1 2
  | some false, _ => unitError q.1 s.awn.holder
  | some true, some reason =>
    let s := awnWaited (awnRead q.1 rd)
    let s := bump (setAwn s { s.awn with status := 4, reason := reason, run := none }) 0xA600 5 1
    programFault (dropClaims s (4, 0, 0)) s.awn.holder
  | some true, none =>
    let cls := pairClass d.wfmt h.fmt
    let rows := (upto h.rows).map (fun row => tokenOuts r d cls (tileRow (gran q.1) src h row h.cols))
    let conv := fun (s : State) =>
      convertOp s none s.awn.holder (clipConv d ((d.keyb + i) % 2 ^ 32)) (rows.map (·.map val32)) d.n 0 0
    let codes := (conv q.1).out.rows.map (fun l => (l.map (·.codes)).flatten.take d.n)
    let ws := (codes.zip (upto codes.length)).flatMap (fun p => headPixels d (64 * i + p.2) p.1)
    let m := storeGate q.1 srcAwn ws
    if !m.2 then awnWaited m.1
    else
      let s := awnWaited (awnRead (conv m.1).state rd)
      let t1 := 64 * i + h.rows
      let fr := framesDone d t1 - framesDone d (64 * i)
      let s := bump s 0xA600 2 fr
      let s := setAwn s { s.awn with
        run := some { r with tile := i + 1, width := some h.cols }, frame := framesDone d t1, written := s.awn.written + fr, status := 2 }
      progress (awnStore s ws fr) s.awn.holder

/-- AWN_OUTPUT_WRITE: the next output tile, which needs a free slot, or the next input tile's pixels; the weights are loaded
first. -/
def execAwnOutputWrite (s : State) : Answer :=
  let s := awnLoad s
  match s.awn.run with
  | none => .next s
  | some r =>
    let d := ClipDesc.parse r.desc
    if !awnOn s || decide (s.awn.status = 1 ∨ d.tiles ≤ r.tile) then .next s
    else if d.head then .next (headTile s r d)
    else if d.nt ≤ r.tile ∧ s.awn.credits = 0 then .next (awnWaits s 3)
    else .next (stemTile s r d)

/-- AWN_DESCRIPTOR_COMPLETE: the closing slot credits are taken, as far as they have come; with all of them the
descriptor is complete (R191). DESIGN CHOICE (log entry 80): completion is signalled by the status and the counts alone. -/
def execAwnDescriptorComplete (s : State) : Answer :=
  match s.awn.run with
  | none => .next s
  | some r =>
    let d := ClipDesc.parse r.desc
    let s := awnFlush s
    if !awnOn s || decide (r.tile < d.tiles) || (match s.awn.run with | some q => decide (q.due ≠ 0) | none => true) then .next s
    else
      let need := if d.head then 0 else d.tiles - r.taken
      let n := min need s.awn.credits
      let s := setAwn s { s.awn with credits := s.awn.credits - n, run := some { r with taken := r.taken + n, due := 0 } }
      if n < need then .next (awnWaits s 3)
      else
        let s := dropClaims (awnWaited s) (4, 0, 0)
        .next (bump (setAwn s { s.awn with run := none, status := 0, completed := s.awn.completed + 1 }) 0xA600 1 1)

/-! ## Signals to unit 0x30 (R183, R191) -/

/-- Counts that the engine waits for: one before a tile, all the remaining ones after the last (R191). -/
def creditNeed (s : State) : Nat :=
  match s.awn.run with
  | some r =>
    let d := ClipDesc.parse r.desc
    if r.tile < d.tiles then 1 else d.tiles - r.taken
  | none => 0

/-- A count reaches semaphore index 0 or 1 of unit 0x30; past 65 535 it saturates, and the job faults (R139). The counts that the
engine waits for end its wait (R191). -/
def awnSignal (s : State) (idx : Nat) (g : Signal) : State :=
  let old := if idx = 0 then s.awn.posts else s.awn.credits
  let new := min (old + g.count) 65535
  let s := setAwn s (if idx = 0 then { s.awn with posts := new } else { s.awn with credits := new })
  let s := if s.awn.status = 3 ∧ creditNeed s ≤ s.awn.credits then awnWaited s else s
  if old + g.count ≤ 65535 then s else semOverflow s g

/-- A SIG that a command of the table stands for, from a sender it does not name. -/
def namedSig (s : State) (unit idx count : Nat) : Signal :=
  { id := s.nextSignal, src := .host, sem := 0x80000 + 256 * unit + idx, count := count, before := 0, job := s.awn.holder }

/-- CLIP_DESCRIPTOR_POSTED: a SIG to 0x8_3000. -/
def execClipDescriptorPosted (count : BitVec 16) (s : State) : Answer :=
  if s.awn.holder = 0 then .next s else .next (awnSignal s 0 (namedSig s 0x30 0 count.toNat))

/-- OUTPUT_SLOT_RELEASED: a SIG to 0x8_3001. -/
def execOutputSlotReleased (count : BitVec 16) (s : State) : Answer :=
  if s.awn.holder = 0 then .next s else .next (awnSignal s 1 (namedSig s 0x30 1 count.toNat))

end Sys2Proof.Machine
end

