-- ==== Sys2Proof/Machine/Fec.lean ====
section
/-! DEFINITION. The forward error correction of a port (R266): a Reed-Solomon code over GF(2^10), 160 symbols to a codeword of
which 150 carry data. -/
namespace Sys2Proof.Machine

/-- Multiplication by α, the root of x^10 + x^3 + 1. -/
def gfAlpha (c : Nat) : Nat := if 512 ≤ c then Nat.xor (2 * c % 1024) 0b1001 else 2 * c

def gfPow (i : Nat) : Nat := iter gfAlpha i 1

def gfMul (a b : Nat) : Nat :=
  foldUpto 10 0 (fun acc i => Nat.xor (gfAlpha acc) (if bitAt b (9 - i) then a else 0))

/-- A polynomial, its highest coefficient first, times (x − r). -/
def gfTimes (g : List Nat) (r : Nat) : List Nat :=
  ((g ++ [0]).zip (0 :: g)).map (fun (p : Nat × Nat) => Nat.xor p.1 (gfMul p.2 r))

/-- The generator polynomial (x − α^0)(x − α^1) … (x − α^9). -/
def fecGenerator : List Nat := foldUpto 10 [1] (fun g i => gfTimes g (gfPow i))

/-- The ten parity symbols of 150 data symbols: the remainder of data × x^10 by the generator. -/
def fecParity (data : List Nat) : List Nat :=
  data.foldl (fun reg d =>
    let k := Nat.xor d (reg.headD 0)
    ((reg.drop 1 ++ [0]).zip (fecGenerator.drop 1)).map (fun (p : Nat × Nat) => Nat.xor p.1 (gfMul k p.2))) (List.replicate 10 0)

/-- A codeword as it is sent. -/
def fecCodeword (data : List Nat) : List Nat := data ++ fecParity data

/-- The value of a received word at α^i: zero for i = 0 to 9 in a codeword. -/
def fecSyndrome (word : List Nat) (i : Nat) : Nat := word.foldl (fun acc c => Nat.xor (gfMul acc (gfPow i)) c) 0

/-- The wavelength that symbol i of a codeword travels on. -/
def fecWavelength (i : Nat) : Nat := i % 8

/-- Symbols in error of a codeword. -/
def fecErrors (l : List (Fin 160)) : Nat := (dedup (l.map (·.val))).length

/-- The code corrects any 5 symbols in error; a codeword with more is found uncorrectable. -/
def fecCorrects (l : List (Fin 160)) : Bool := decide (fecErrors l ≤ 5)

end Sys2Proof.Machine
end

