-- ==== Sys2Proof/Machine/Ports.lean ====
section
/-! DEFINITION. Riljo ports (R269 to R275, R281, R286, R291 to R293): link-level retry, the states of a port, the
map a module sends and hears, training and identity, retirement and the spare. -/
namespace Sys2Proof.Machine

/-! ## A port changes state -/

/-- The port serves the spare of no port, and has no flit under way. -/
def quietPort (x : Port) : Port :=
  { x with sub := 0xFF, txSeq := 0, rxSeq := 0, acked := 0, nakSent := false, replay := [], noProgress := 0,
           credits := [], returns := [], ackDue := false, egress := [], turn := (0, 0), parts := [], coming := [], leaving := [] }

/-- This module's MAP: every port with its state and peer (R275). -/
def ownMap (s : State) (withdraw : Bool) (ports : List Nat) : MapMsg :=
  { module := BitVec.ofNat 15 (myId s), acres := BitVec.ofNat 16 (acreCount s), gz932 := decide (s.variant = .gz932),
    withdraw := withdraw,
    ports := ports.map (fun p =>
      (p, (portAt s p).st, (portAt s p).peer.toNat, (portAt s p).peerPort.toNat)) }

/-- The other members of this module's Acre. -/
def acreMembers (s : State) : List Nat :=
  ((upto (memberCount s)).map (fun m => myId s / 32 * 32 + m)).filter (fun m => decide (m ≠ myId s))

/-- Sends a MAP, or its withdrawal, on VC 15 to every member of the Acre that a route reaches. -/
def sendMap (s : State) (withdraw : Bool) (ports : List Nat) : State :=
  if myId s = 0x7FFF then s
  else
    (acreMembers s).foldl (fun s d => sendNote s 7 15 d (.map (ownMap s withdraw ports))) s

/-- The retired port that the spare claims: one at a time (R292, R293). -/
def claimed (s : State) : Option Nat :=
  if portSetting s 31 0x5010 1 = 0 then none
  else (upto 64).find? (fun k => decide (k ≠ 31 ∧ (portAt s k).st = 5 ∧ (portAt s k).peer ≠ 0x7FFF))

/-- The identity that this module gives on a port (Table 09-6, step 4); its spare's claims the link that a retired port of it
served. -/
def ownTrain (s : State) (p : Nat) : TrainMsg :=
  let k := if p = 31 then claimed s else none
  { peer := BitVec.ofNat 15 (myId s), port := BitVec.ofNat 8 p, variant := s.variant,
    acres := BitVec.ofNat 16 (acreCount s), members := BitVec.ofNat 8 (memberCount s), version := Config.riljoVersion,
    claim := k.map (fun k => (myId s, k)), peerRetired := k.isSome, roundTrip := (portAt s p).rtt }

/-- Sends a TRAINING flit. -/
def sendTrain (s : State) (p : Nat) : State :=
  let m := ownTrain s p
  let s := { s with free := s.free + 1 }
  putOut s p { linkFlit with typ := 6, bytes := (Config.freeBytes (s.free - 1)).take 320, note := .train m } false

/-- A SPARE port keeps training while `OD 5010:01` is 1: it says what it claims (R292). -/
def trainSpare (s : State) : State :=
  if (portAt s 31).st = 6 ∧ portSetting s 31 0x5010 1 ≠ 0 then sendTrain s 31 else s

/-- A port of this module has changed state: routes are computed again, and the MAP is sent again; the spare's claim may have
changed. -/
def portChanged (s : State) : State := trainSpare (sendMap (reroute s) false (upto 64))

/-- Gives a port a new state. -/
def changePort (s : State) (p : Nat) (x : Port) : State :=
  let old := (portAt s p).st
  let s := setPort s p x
  if old = x.st then s else portChanged s

/-! ## The map heard (R275) -/

/-- Members of this module's Acre that it has heard from. -/
def membersHeard (s : State) : List MapMsg :=
  s.links.map.filter (fun m => (acreMembers s).elem m.module.toNat)

/-- The Acre is formed: every member has been heard, with the same A and variant class. -/
def acreFormed (s : State) : Bool :=
  decide (myId s ≠ 0x7FFF) && (acreMembers s).all (fun d => s.links.map.any (fun m =>
    decide (m.module.toNat = d ∧ m.acres.toNat = acreCount s ∧ m.gz932 = decide (s.variant = .gz932))))

def refreshFormed (s : State) : State := { s with links := { s.links with formed := acreFormed s } }

/-- What a withdrawal does to an entry of the map: its ports are DOWN. -/
def withdrawPorts (e m : MapMsg) : MapMsg :=
  { e with ports := e.ports.map (fun q => if (m.ports.map (·.1)).elem q.1 then (q.1, 1, q.2.2) else q) }

/-- A MAP arrives. -/
def hearMap (s : State) (m : MapMsg) : State :=
  let others := s.links.map.filter (fun e => decide (e.module ≠ m.module))
  let mine := s.links.map.filter (fun e => decide (e.module = m.module))
  let now := if m.withdraw then mine.map (fun e => withdrawPorts e m) else [m]
  reroute (refreshFormed { s with links := { s.links with map := others ++ now } })

/-! ## Retirement (R271, R292) -/

/-- Spare ports left: 1 while port 31 can take a link. -/
def sparePortLeft (s : State) : Nat :=
  let st := (portAt s 31).st
  if st = 5 ∨ st = 7 then 0 else 1

/-- Trains that came by a port which carries no more have no flit to come: those that had begun to leave elsewhere are over
where none of their flits waits. -/
def endTrains (s : State) (p : Nat) : State :=
  let lost := (portAt s p).coming
  foldUpto 64 s (fun s q =>
    let x := portAt s q
    let ended := fun (e : Nat × (Nat × Nat × Nat × Nat)) =>
      lost.any (fun c => decide (c.1 = e.2.1 ∧ c.2.1 = e.2.2.1 ∧ c.2.2.1 = e.1))
        && !x.egress.any (fun f => decide (f.vc = e.1 ∧ trainKey f = e.2))
    if x.leaving.any ended then setPort s q { x with leaving := x.leaving.filter (fun e => !ended e) } else s)

/-- Flits that a port which carries no more still holds: this module's own requests go with their flows (R286); the
others take another port, or wait for the spare. -/
def handOver (s : State) (p : Nat) : State :=
  let x := portAt s p
  let keep := (x.replay ++ x.egress).filter (fun f => !(decide (f.typ = 1) && decide (f.src = myId s)))
  let s := setPort (endTrains s p) p { quietPort x with egress := [] }
  keep.foldl (fun s f =>
    match egressOf s (routeOf s (myId s) f.dst f.vc) with
    | some q => placeFlit s q f
    | none => setPort s p { portAt s p with egress := (portAt s p).egress ++ [f] }) s

/-- Retires a port with a reason of Table 09-7; its peer and role stay those of the link it served. -/
def retire (s : State) (p reason : Nat) : State :=
  let x := portAt s p
  if x.st = 0 then s
  else
    let s := changePort s p { x with st := 5, reason := reason, step := 0, sub := 0xFF, replaysInWindow := 0 }
    boxAdd (handOver s p) (some (portFn p)) 0x0020 [5, p, sparePortLeft s]

/-! ## Link-level retry (R266 to R269) -/

/-- Whether a port in a state takes a flit of a type (Table 09-5). -/
def takes (st typ : Nat) : Bool :=
  decide (st = 4 ∨ st = 7) || (decide (st = 3) && decide (typ = 5 ∨ typ = 6))
    || (decide (st = 2 ∨ st = 6) && decide (typ = 6))

/-- What an ACK covers leaves the replay buffer. -/
def ackPort (s : State) (p : Nat) (x : Port) (ack : Nat) : Port :=
  if x.replay.any (fun f => decide (f.seq = ack)) then
    { x with replay := (x.replay.dropWhile (fun f => decide (f.seq ≠ ack))).drop 1, acked := ack, noProgress := 0,
             lastAck := portClock s p }
  else x

/-- Credits that a flit returns: of the slots taken under its key, the oldest. -/
def creditPort (x : Port) (f : Flit) : Port :=
  let k := 2 * f.crvc.toNat + boolNat f.crmc
  { x with credits := kvSet [] x.credits k ((slotsTaken x k).drop f.crn.toNat) }

/-- Sends every unacknowledged flit of a port again, in order. -/
def replayPort (s : State) (p : Nat) : State :=
  let x := portAt s p
  if x.replay.isEmpty then s
  else
    let s := setPort s p { x with
      replaysInWindow := x.replaysInWindow + x.replay.length, noProgress := x.noProgress + 1, lastAck := portClock s p }
    let s := bump s (0xA500 + p) 7 1
    let s := x.replay.foldl (fun s f => putOut s p f false) s
    if 16 ≤ x.noProgress + 1 then retire s p 0x13 else s

/-- The receiver discards a flit, and for the first one it sends NAK. -/
def discardFlit (s : State) (p : Nat) : State :=
  let x := portAt s p
  if x.nakSent || !carries x then s else sendLink (setPort s p { x with nakSent := true }) p true

/-- TYPE as it came. -/
def wireType (f : Flit) (typ : Nat) : Nat := match f.reserved with | some n => 8 + n.val | none => typ

/-- A flit overlaps a codeword found uncorrectable. -/
def fecFailed (f : Flit) : Bool := f.fecBad || f.codewords.any (fun w => !fecCorrects w)

def crcFailed (f : Flit) (typ : Nat) : Bool := decide (f.crc.toNat ≠ crc32 (flitBytes f (wireType f typ)))

/-- A reserved TYPE, reserved bits or a reserved value of a field (R267). -/
def flitReserved (f : Flit) : Bool :=
  f.reserved.isSome || decide (f.rsv62 = true ∨ f.rsv ≠ 0 ∨ 5 < f.nsec.toNat ∨ 4 < f.stage.toNat)

/-- Whether a flit is received in error. -/
def flitBad (f : Flit) (typ : Nat) : Bool := fecFailed f || crcFailed f typ || flitReserved f

/-- Counts the codewords corrected, the symbols corrected in them, and the codewords that are uncorrectable (R266). -/
def countCodewords (s : State) (p : Nat) (f : Flit) : State :=
  f.codewords.foldl (fun s w =>
    let n := fecErrors w
    if n = 0 then s
    else if fecCorrects w then bump (bump s (0xA500 + p) 3 1) (0xA500 + p) 4 n
    else bump s (0xA500 + p) 5 1) s

/-- Counts a flit received, and what is wrong with it. -/
def countFlit (s : State) (p : Nat) (f : Flit) (typ : Nat) : State :=
  let s := countCodewords (bump s (0xA500 + p) 2 1) p f
  if fecFailed f then s
  else if crcFailed f typ then bump s (0xA500 + p) 6 1
  else if flitReserved f then bump s (0xA500 + p) 8 1
  else s

/-- Credits, ACK and NAK of a flit received without error. -/
def linkPart (s : State) (p : Nat) (f : Flit) : State :=
  let s := setPort s p (creditPort (ackPort s p (portAt s p) f.ack.toNat) f)
  let s := if f.nak then replayPort s p else s
  pump s p

/-- The link's part of receiving a flit; true where the flit is delivered. -/
def receive (s : State) (p : Nat) (f : Flit) (typ : Nat) : State × Bool :=
  if !takes (portAt s p).st typ then (s, false)
  else
    let s := countFlit s p f typ
    if flitBad f typ then (discardFlit s p, false)
    else
      let s := if typ = 6 then s else linkPart s p f
      let x := portAt s p
      if !sequenced typ then (s, true)
      else if f.seq.toNat = (x.rxSeq + 1) % 4096 then
        (setPort s p { x with rxSeq := f.seq.toNat, nakSent := false, ackDue := true }, true)
      else (discardFlit s p, false)

/-- The key of the receive buffer slot that a flit takes. -/
def flitKey (f : Flit) (typ : Nat) : Nat := 2 * f.vc.toNat + boolNat (decide (typ = 2))

/-- A flit has left the receive buffer; a LINK flit took no slot. -/
def freeFlit (s : State) (p : Nat) (f : Flit) (typ : Nat) : State :=
  if sequenced typ then freeSlots s p (flitKey f typ) 1 else s

/-- The port by which a transit flit goes on: that of its flow's route where the route passes here, else of the way from here. -/
def nextHop (s : State) (f : Flit) : Option Nat :=
  let own := myId s
  let here := (routeOf s f.src.toNat f.dst.toNat f.vc.toNat).bind (fun r => r.find? (fun h => decide (h.1 = own)))
  match here with
  | some h => carrier s h.2
  | none =>
    match serviceRoute own (linkTable s) own f.dst.toNat with
    | some r => egressOf s (some r)
    | none => egressOf s (spreadRoute own (acreCount s) (memberCount s) (linkTable s) own f.dst.toNat)

/-- A transaction of another module passes: its request begins it here, and its response ends it (R291). -/
def noteTransit (s : State) (p q : Nat) (f : Flit) (typ : Nat) : State :=
  let l := s.links
  let e := (f.src.toNat, f.dst.toNat, f.vc.toNat, f.tag.toNat, p, q)
  if typ = 1 then (if l.transit.elem e then s else { s with links := { l with transit := l.transit ++ [e] } })
  else if typ = 2 then
    { s with links := { l with transit := l.transit.filter (fun x =>
        !(decide (x.1 = f.dst.toNat ∧ x.2.1 = f.src.toNat ∧ x.2.2.1 = f.vc.toNat ∧ x.2.2.2.1 = f.tag.toNat))) } }
  else s

/-- Flits of a train after its first: a descriptor and its sectors, five to a flit; a STOOK message and a block of Rotation
say their length. A response of one sector carries no data. -/
def trainAfter (f : Flit) (typ : Nat) (n : Note) : Nat :=
  let d := leNat ((padTo 320 f.payload).take 64)
  let flits := fun (sectors : Nat) => ceilDiv sectors 5 - 1
  match typ, n with
  | 1, _ => if field d 60 4 = 1 then flits (field d 52 8 + 2) else 0
  | 2, _ => if f.nsec.toNat = 1 then 0 else flits (field d 52 8 + 2)
  | 3, .stook m => flits (ceilDiv m.bytes.length 64)
  | _, _ => 0

/-- Counts a transit flit in the train that it is of: the flits of the train that come after it. -/
def trainLeft (s : State) (p : Nat) (f : Flit) (typ : Nat) (n : Note) : State × Nat :=
  let x := portAt s p
  let mine := fun (q : Nat × Nat × Nat × Nat) => decide (q.1 = typ ∧ q.2.1 = f.src.toNat ∧ q.2.2.1 = f.vc.toNat)
  let left := match x.coming.find? mine with | some q => q.2.2.2 - 1 | none => trainAfter f typ n
  let rest := x.coming.filter (fun q => !mine q)
  (setPort s p { x with
    coming := if left = 0 then rest else rest ++ [(typ, f.src.toNat, f.vc.toNat, left)] }, left)

/-- A flit for another module goes on, one STAGE higher, and keeps its slot until it leaves (R278, R284, R287). -/
def forward (s : State) (p : Nat) (f : Flit) (typ : Nat) (n : Note) : State :=
  match nextHop s f with
  | some q =>
    if 4 ≤ f.stage.toNat ∨ (fnGet s (portFn q)).st = FnSt.stopped then freeFlit s p f typ
    else
      let t := trainLeft s p f typ n
      placeFlit (bump (noteTransit t.1 p q f typ) 0xA540 8 1) q
      { seq := 0, typ := typ, vc := f.vc.toNat, src := f.src.toNat, dst := f.dst.toNat, stage := f.stage.toNat + 1,
        tag := f.tag.toNat, bytes := (padTo 320 f.payload).take (64 * f.nsec.toNat), note := n,
        came := if sequenced typ then some (p, flitKey f typ) else none, more := t.2 }
  | none => freeFlit s p f typ

/-- Receives a flit and, where it is delivered, gives one for this module to act and forwards another. -/
def arrive (s : State) (p : Nat) (f : Flit) (typ : Nat) (n : Note) (act : State → State) : State :=
  let q := receive s p f typ
  if !q.2 then q.1
  else if f.dst.toNat = myId q.1 then act q.1
  else forward q.1 p f typ n

/-- IDLE: credits and ACK only. -/
def execIdle (port : Fin 64) (f : Flit) (s : State) : Answer := .next (receive s port.val f 0).1

/-- LINK: credits, ACK and NAK only; a NAK makes the port replay (R269). -/
def execLink (port : Fin 64) (f : Flit) (s : State) : Answer := .next (receive s port.val f 5).1

/-- MAP (R275): for this module, it changes the map; for another member, it goes on. -/
def execMap (port : Fin 64) (f : Flit) (m : MapMsg) (s : State) : Answer :=
  .next (arrive s port.val f 7 (.map m) (fun s => freeFlit (hearMap s m) port.val f 7))

/-! ## Training and identity (R272 to R274) -/

/-- A port whose peer would be beyond the declared Acre stays DOWN (R281). -/
def beyondAcre (s : State) (p : Nat) : Bool :=
  decide (p < 31) && decide (myId s ≠ 0x7FFF ∧ memberCount s ≤ (myId s % 32 + p + 1) % 32)

/-- Whether the wiring matches the port's role. -/
def wiringOk (s : State) (p : Nat) (m : TrainMsg) : Bool :=
  let own := myId s
  let peer := m.peer.toNat
  if p < 31 then
    decide (peer / 32 = own / 32 ∧ peer % 32 = (own % 32 + p + 1) % 32 ∧ m.port.toNat = 30 - p)
  else if p = 31 then decide (m.port.toNat = 31)
  else decide (peer / 32 ≠ own / 32 ∧ 32 ≤ m.port.toNat ∧ m.port.toNat < 64)

/-- The reason that holds a port; 0 where its identity is accepted (Table 09-7, in the order of the codes). -/
def heldReason (s : State) (p : Nat) (m : TrainMsg) : Nat :=
  if myId s = 0x7FFF ∨ m.peer.toNat = 0x7FFF then 0x01
  else if !wiringOk s p m then 0x02
  else if p < 32 ∧ decide (m.variant = .gz932) ≠ decide (s.variant = .gz932) then 0x03
  else if 1550 < m.roundTrip then 0x04
  else if m.acres.toNat ≠ acreCount s ∨ m.members.toNat ≠ memberCount s then 0x05
  else if m.version ≠ Config.riljoVersion then 0x06
  else 0

/-- Whether the two claims name one link, which the peer has retired at its own end. -/
def claimsMeet (s : State) (m : TrainMsg) : Option Nat :=
  match claimed s with
  | none => none
  | some k =>
    let x := portAt s k
    if m.claim = some (x.peer.toNat, x.peerPort.toNat) ∧ m.peer = x.peer ∧ m.peerRetired then some k else none

/-- A port begins an attempt (step 1). -/
def startTraining (s : State) (p : Nat) : State :=
  let x := portAt s p
  changePort s p { quietPort x with
    st := 2, step := 1, egress := x.egress, since := some s.clocks.aux, stepSince := s.clocks.aux }

/-- An attempt fails: DOWN, or RETIRED still for a port that was. -/
def failTraining (s : State) (p : Nat) : State :=
  let x := portAt s p
  changePort s p { x with st := if 0x11 ≤ x.reason then 5 else 1, step := 0 }

/-- The outcome of a trained port (step 6). -/
def trained (s : State) (p : Nat) (m : TrainMsg) : State :=
  let x := portAt s p
  let why := heldReason s p m
  let y := { quietPort x with
    peer := m.peer, peerPort := m.port, rtt := m.roundTrip, step := 6, egress := x.egress, windowStart := portClock s p }
  if why ≠ 0 then
    changePort s p (if 0x11 ≤ x.reason then { x with st := 5, step := 0 } else { y with st := 3, reason := why })
  else if p = 31 then
    match claimsMeet s m with
    | some k =>
      let z := portAt s k
      let s := setPort s k { z with egress := [] }
      let s := changePort s 31 { y with st := 7, reason := 0, sub := BitVec.ofNat 8 k }
      z.egress.foldl (fun s f => placeFlit s 31 f) s
    | none => changePort s p { y with st := 6, reason := 0 }
  else pump (changePort s p { y with st := 4, reason := 0 }) p

/-- Auxiliary clocks that the steps so far may take at most: 90 µs to codeword lock, 20 µs for the identity and the round
trip after it (Table 09-6). -/
def trainLimit (step : Nat) : Nat := if step < 4 then 2250 else 500

/-- CODEWORD_LOCK: steps 1 to 3 of Table 09-6 are done, and the port gives its identity; past their limits the attempt has
failed. -/
def execCodewordLock (port : Fin 64) (s : State) : Answer :=
  let p := port.val
  let x := portAt s p
  if x.st = 2 ∧ x.step < 4 then
    if x.stepSince + trainLimit x.step < s.clocks.aux then .next (failTraining s p)
    else .next (sendTrain (setPort s p { x with step := 4, stepSince := s.clocks.aux }) p)
  else .next s

/-- TRAINING (steps 4 to 6): the port becomes HELD, ACTIVE, SPARE or SUBSTITUTING; an attempt past the limit of steps 4 and 5
has failed. A SUBSTITUTING port says its claim to a peer that still trains (R292). -/
def execTraining (port : Fin 64) (f : Flit) (m : TrainMsg) (s : State) : Answer :=
  let p := port.val
  let q := receive s p f 6
  let x := portAt q.1 p
  if !q.2 then .next q.1
  else if x.st = 7 then .next (sendTrain q.1 p)
  else if x.st = 2 ∧ 4 ≤ x.step ∧ x.stepSince + trainLimit x.step < s.clocks.aux then .next (failTraining q.1 p)
  else if x.st = 3 ∨ x.st = 6 ∨ (x.st = 2 ∧ 4 ≤ x.step) then .next (trained q.1 p m)
  else .next q.1

/-- The least time in auxiliary clocks after which the present step can have exceeded its limit: 20 µs for step 1, 10 µs for step
4; CODEWORD_LOCK is the end of steps 1 to 3 (Table 09-6). -/
def stepLimit (x : Port) : Nat := if x.step < 4 then 500 else 250

/-- TRAINING_STEP_TIMEOUT: the attempt fails (R273). -/
def execTrainingStepTimeout (port : Fin 64) (s : State) : Answer :=
  let x := portAt s port.val
  if x.st = 2 ∧ x.stepSince + stepLimit x ≤ s.clocks.aux then .next (failTraining s port.val) else .next s

/-- Whether 25 000 auxiliary clocks have passed since a port's last attempt began. -/
def retryDue (s : State) (p : Nat) : Bool :=
  match (portAt s p).since with
  | some t => decide (t + 25000 ≤ s.clocks.aux)
  | none => true

/-- TRAINING_RETRY: a DOWN port of a RUNNING group attempts again (R273). -/
def execTrainingRetry (port : Fin 64) (s : State) : Answer :=
  let p := port.val
  if (portAt s p).st = 1 ∧ running s (portFn p) = true ∧ beyondAcre s p = false ∧ retryDue s p = true
      ∧ portsRest s = false then
    .next (startTraining s p)
  else .next s

/-- WAVELENGTH_LOSS: a port that has trained is retired (R271); one whose peer has withdrawn it sees no light and is
DOWN. -/
def execWavelengthLoss (port : Fin 64) (_ : Fin 8) (s : State) : Answer :=
  let p := port.val
  let x := portAt s p
  let gone := s.links.map.any (fun e => decide (e.module = x.peer)
    && e.ports.any (fun q => decide (q.1 = x.peerPort.toNat ∧ q.2.1 = 1)))
  if x.st = 2 then .next (failTraining s p)
  else if carries x = true ∧ gone = true then
    .next (handOver (changePort s p { x with st := 1, step := 0 }) p)
  else if carries x ∨ x.st = 3 ∨ x.st = 6 then .next (retire s p 0x11)
  else .next s

/-- ACK_TIMEOUT: flits are unacknowledged and the ACK has not advanced for 8 192 port clocks (R269). -/
def execAckTimeout (port : Fin 64) (s : State) : Answer :=
  let x := portAt s port.val
  if carries x = true ∧ x.replay ≠ [] ∧ x.lastAck + 8192 ≤ portClock s port.val then .next (replayPort s port.val) else .next s

/-- REPLAY_WINDOW_END: after 2^30 port clocks, the window's replayed flits against `OD 5003:02`; the next window begins (R271). -/
def execReplayWindowEnd (port : Fin 64) (s : State) : Answer :=
  let p := port.val
  let x := portAt s p
  if portClock s p < x.windowStart + 2 ^ 30 then .next s
  else
    let s := setPort s p { x with replaysInWindow := 0, windowStart := portClock s p }
    if carries x ∧ portSetting s p 0x5003 2 < x.replaysInWindow then .next (retire s p 0x12) else .next s

/-- SPARE_RETURN: the port replaced is ACTIVE again and no flow is left on the spare (R293). -/
def execSpareReturn (s : State) : Answer :=
  let x := portAt s 31
  if x.st = 7 ∧ (portAt s x.sub.toNat).st = 4 ∧ x.egress = [] ∧ x.replay = []
      ∧ s.links.trans.any (fun t => decide (t.port = 31)) = false then
    .next (changePort s 31 { x with st := 6, sub := 0xFF })
  else .next s

/-! ## Stopping and starting a port group (R291) -/

/-- The ports of a group: 0 to 31, or 32 to 63. -/
def groupPorts (fn : Nat) : List Nat := (upto 32).map (fun i => if fn = 0x10 then i else 32 + i)

/-- Step 1: the ports' withdrawal goes to their Acre; the time-out of step 3 begins on each port's clock. -/
def withdrawGroup (s : State) (fn : Nat) : State :=
  let s := sendMap s true (groupPorts fn)
  { s with links := { s.links with
    stopClocks := (groupPorts fn).foldl (fun m p => kvPut m p (portClock s p)) s.links.stopClocks } }

/-- Whether a flow routed through a port has a transaction outstanding: of this module, or of others. -/
def portBusy (s : State) (p : Nat) : Bool :=
  s.links.trans.any (fun x => decide (x.port = p))
    || s.links.transit.any (fun e => decide (e.2.2.2.2.1 = p ∨ e.2.2.2.2.2 = p))

/-- Step 3: a port of the group carries on forwarding, for one time-out of `OD 5003:01` at most. -/
def groupBusy (s : State) (fn : Nat) : Bool :=
  (groupPorts fn).any (fun p => portBusy s p && carries (portAt s p)
    && decide (portClock s p < kvGet 0 s.links.stopClocks p + portSetting s p 0x5003 1))

/-- Step 4: lasers off; the ports are DOWN, a retired one stays RETIRED. -/
def lasersOff (s : State) (fn : Nat) : State :=
  let off := fun (p : Nat) => decide ((portAt s p).st ≠ 0 ∧ (portAt s p).st ≠ 5)
  let ps := (groupPorts fn).filter off
  let s := ps.foldl (fun s p => setPort s p { portAt s p with st := 1, step := 0, sub := 0xFF }) s
  let s := { s with links := { s.links with
    transit := s.links.transit.filter (fun e => !(ps.elem e.2.2.2.2.1 || ps.elem e.2.2.2.2.2)) } }
  portChanged (ps.foldl handOver s)

/-- On STARTING the group's ports forget their peers and train under R273; a port that was told to retrain while its group was not
RUNNING keeps its reason until it passes R274 (R271). The map is heard afresh. -/
def startGroup (s : State) (fn : Nat) : State :=
  let s := if fn = 0x10 then { s with links := { s.links with map := [] } } else { s with dict := { s.dict with kept := none } }
  let s := (groupPorts fn).foldl (fun s p =>
    let x := portAt s p
    if x.st = 0 ∨ x.st = 5 then s
    else
      let y := { Port.reset with
        egress := x.egress, replaysInWindow := x.replaysInWindow, windowStart := x.windowStart, reason := if 0x11 ≤ x.reason then x.reason else 0 }
      setPort s p (if beyondAcre s p then y
        else { y with st := 2, step := 1, since := some s.clocks.aux, stepSince := s.clocks.aux })) s
  portChanged (refreshFormed s)

end Sys2Proof.Machine
end

