-- ==== Sys2Proof/Machine/Rotation.lean ====
section
/-! DEFINITION. Rotation (R163 to R170): rounds and slots, credits, blocks sent and received, and the signals to
unit 0x40. -/
namespace Sys2Proof.Machine

def setRot (s : State) (r : Rotation) : State := { s with rot := r }

/-- The Rotation engine works for a running job: it opens in step 5 of Table 11-6 (R346). -/
def rotOn (s : State) : Bool :=
  decide (s.rot.holder ≠ 0 ∧ (jobOf s s.rot.holder).st = 2)

/-- Credits of other members are taken from step 3 on: a member may reach step 5 before this one (R346). -/
def rotHears (s : State) : Bool := rotOn s || decide (s.rot.holder ≠ 0 ∧ (jobOf s s.rot.holder).st = 1)

/-- Granary address of the slot of a round (R164). -/
def rotSlot (r : Rotation) (u : Nat) : Nat := r.base + u % r.slots * r.slotb

/-- Round number within its pass (R164). -/
def roundIn (r : Rotation) (u : Nat) : Nat := u % r.g

/-- Position whose block the member at position q uses in round u (R164). -/
def ownerOf (r : Rotation) (q u : Nat) : Nat := (q + r.g - roundIn r u) % r.g

/-- Whether this member holds the whole block of round u. -/
def holdsRound (r : Rotation) (u : Nat) : Bool :=
  if roundIn r u = 0 then decide (u / r.g < r.blockSigs) else r.complete.elem u

/-- Position that sends the block of round u to this member (R165). -/
def sourceOf (r : Rotation) (u : Nat) : Nat :=
  if r.mode = 0 then (r.pos + r.g - 1) % r.g else ownerOf r r.pos u

/-- Module at a ring position. -/
def rotModule (r : Rotation) (q : Nat) : Nat := 32 * r.acre + natAt r.members q

/-- Semaphore LSEM of the LEAD Tiller. -/
def leadSem (r : Rotation) : Nat := 65536 * (r.lead / 256) + 256 * (r.lead % 256) + r.lsem

/-- TYPE of Rotation's flits, on the control class (true) or on VC: Table 09-4 names none, and the free value takes one of its
request types for bulk and control traffic, STOOK or MAP (log entry 72). -/
def rotType (control : Bool) : Nat := natAt [3, 7] (Config.rotationType control % 2)

/-- A credit or an announcement goes out on the control class (R165, R276). -/
def sendControl (s : State) (dst : Nat) (n : Note) : State := sendNote s (rotType true) 15 dst n

/-- The engine signals the lead Tiller: a round's block is complete (R167, R231). -/
def signalLead (s : State) : State :=
  sendSignal (unclaimSem s (leadSem s.rot) (3, 0, 0)) .engine (leadSem s.rot) 1 0 s.rot.holder

/-- Announces this member's credit for round u to the sender of that round's block (R166). -/
def grantRound (s : State) (u : Nat) : State :=
  let r := s.rot
  let s := setRot s { r with granted := r.granted ++ [(r.pos, u)] }
  let s := claimSem s (leadSem r) (3, 0, 0)
  if roundIn r u = 0 then s else sendControl s (rotModule r (sourceOf r u)) (.rotCredit u)

/-- Whether round u - N is finished here and, in ring mode, the successor has acknowledged its block (R166). -/
def mayGrant (r : Rotation) (u : Nat) : Bool :=
  decide (u < r.slots) ||
    (decide (u - r.slots < r.roundSigs) &&
      (decide (r.mode ≠ 0 ∨ r.g = 1 ∨ roundIn r (u - r.slots) = r.g - 1) || r.acked.elem ((r.pos + 1) % r.g, u - r.slots + 1)))

/-- The flits of a Rotation message arrive: true where every one of them is for this module and delivered. Each leaves the
receive buffer; one for another module goes on. -/
def recvNote (s : State) (m : RotNote) (control : Bool) (n : Note) : State × Bool :=
  let p := m.port.val
  let typ := rotType control
  m.flits.foldl (fun a f =>
    let q := receive a.1 p f typ
    if !q.2 then (q.1, false)
    else if f.dst.toNat = myId q.1 then (freeFlit q.1 p f typ, a.2)
    else (forward q.1 p f typ n, false)) (s, !m.flits.isEmpty)

/-- Another member's credit is heard. -/
def hearCredit (s : State) (pos round : Nat) : State :=
  let r := s.rot
  if !rotHears s || decide (r.g ≤ pos) || r.credits.elem (pos, round) then s
  else setRot s { r with credits := r.credits ++ [(pos, round)] }

/-- ROTATION_CREDIT_GRANT: this member grants credit for a round once its conditions hold, or another member's
credit for its round arrives. -/
def execRotationCreditGrant (pos : Nat) (note : RotNote) (s : State) : Answer :=
  let r := s.rot
  if pos = r.pos ∧ note.flits = [] then
    if rotOn s && decide (pos < r.g) && mayGrant r note.round && !r.granted.elem (pos, note.round) then
      .next (grantRound s note.round)
    else .next s
  else
    let q := recvNote s note true (.rotCredit note.round)
    if q.2 then .next (hearCredit q.1 pos note.round) else .next q.1

/-- The round of this member whose block goes to position q for its round u: in ring mode the round before, in
direct mode the first of the pass (R165). -/
def sendsFor (r : Rotation) (q u : Nat) : Option Nat :=
  if roundIn r u = 0 then none
  else if r.mode = 0 then (if q = (r.pos + 1) % r.g then some (u - 1) else none)
  else (if ownerOf r q u = r.pos then some (u / r.g * r.g) else none)

/-- ROTATION_BLOCK_SEND: this member sends the block for round `round` of the member at `pos`, once it holds the
block and the credit. -/
def execRotationBlockSend (pos round : Nat) (s : State) : Answer :=
  let r := s.rot
  match sendsFor r pos round with
  | none => .next s
  | some v =>
    if !rotOn s || decide (r.g ≤ pos ∨ pos = r.pos) || !holdsRound r v || !r.credits.elem (pos, round)
      || r.sent.elem (pos, round) then .next s
    else
      let dst := rotModule r pos
      match egressOf s (routeOf s (myId s) dst r.vc) with
      | none => .next s
      | some p =>
        if !running s (portFn p) then .next s
        else match localRead s srcRot (rotSlot r v) r.slotb with
          | .wait s => .next s
          | .bad s => .next (unitError s r.holder)
          | .ok b =>
            let s := setRot (entered s srcRot (rotSlot r v) r.slotb) { r with sent := r.sent ++ [(pos, round)] }
            .next (bump (sendBytes s (rotType false) r.vc dst b (.rotBlock round)) 0xA5A0 2 1)
          | _ => .next s

/-- Another member acknowledges a block that this one has sent it (R166). -/
def ackBlock (s : State) (pos round : Nat) : State :=
  let r := s.rot
  if rotOn s && r.sent.elem (pos, round) && !r.acked.elem (pos, round) then
    setRot s { r with acked := r.acked ++ [(pos, round)] }
  else s

/-- A round's block is complete at this member: its sender has its acknowledgement, and the lead Tiller its signal (R166, R167). -/
def landBlock (s : State) (round : Nat) : State :=
  let r := s.rot
  let s := setRot s { r with complete := r.complete ++ [round], due := r.due.erase round }
  let s := sendControl s (rotModule r (sourceOf r round)) (.rotAck round)
  signalLead (progress (bump s 0xA5A0 1 1) r.holder)

/-- A block that has come is stored, where no host copy and no full list of held stores delays it. -/
def storeBlock (s : State) (q : Nat × List Byte) : State :=
  if !rotOn s then s
  else
    let r := s.rot
    let g := storeGate s srcRot [(rotSlot r q.1, q.2)]
    if !g.2 then g.1
    else
      let w := store g.1 srcRot none (rotSlot r q.1) q.2
      let s := setRot w.1 { r with arrived := r.arrived.erase q, due := r.due ++ [q.1] }
      if w.2 then unitError s r.holder else s

/-- Blocks that wait for memory are stored; those whose stores are all performed are complete (R177). -/
def kickRot (s : State) : State :=
  let s := s.rot.arrived.foldl storeBlock s
  if s.held.any (fun h => decide (h.source = srcRot)) || !rotOn s then s else s.rot.due.foldl landBlock s

/-- The whole block of a round has come: it goes to its slot. -/
def takeBlock (s : State) (round : Nat) (data : List Byte) : State :=
  let r := s.rot
  if !rotOn s || decide (roundIn r round = 0) || r.complete.elem round || r.due.elem round
    || r.arrived.any (fun q => decide (q.1 = round)) || !r.granted.elem (r.pos, round) then s
  else kickRot (setRot s { r with arrived := r.arrived ++ [(round, padTo r.slotb data)] })

/-- Bytes that flits carry. -/
def flitRoom (fs : List Flit) : Nat := (fs.map (fun f => 64 * f.nsec.toNat)).sum

/-- ROTATION_BLOCK_COMPLETE: the last byte of a round's block has come, in as many flits as it needs; with it in Granary the block
is complete. A block complete at another member is acknowledged to its sender. -/
def execRotationBlockComplete (pos : Nat) (note : RotNote) (data : List Byte) (s : State) : Answer :=
  let own := decide (pos = s.rot.pos)
  let q := recvNote s note (!own) (if own then .rotBlock note.round else .rotAck note.round)
  if !q.2 then .next q.1
  else if !own then .next (ackBlock q.1 pos note.round)
  else if s.rot.slotb ≤ flitRoom note.flits then .next (takeBlock q.1 note.round data)
  else .next q.1

/-! ## Signals to unit 0x40 (R167) -/

/-- One pass's own block is complete in its slot: round 0 of the pass counts as complete. -/
def ownBlock (s : State) : State :=
  signalLead (setRot s { s.rot with blockSigs := s.rot.blockSigs + 1 })

/-- One round is finished by every Tiller; the next one's block may not be complete yet. -/
def finishRound (s : State) : State :=
  let r := s.rot
  let s := setRot s { r with roundSigs := r.roundSigs + 1, round := r.roundSigs + 1 }
  if holdsRound r (r.roundSigs + 1) then s else bump s 0xA5A0 3 1

/-- A count reaches semaphore index 0 or 1 of unit 0x40. -/
def rotSignal (s : State) (idx count : Nat) : State :=
  if idx = 0 then iter ownBlock count s else iter finishRound count s

/-- BLOCK_COMPLETE_SIGNAL: a SIG to 0x8_4000. -/
def execBlockCompleteSignal (count : BitVec 16) (s : State) : Answer :=
  if s.rot.holder = 0 then .next s else .next (rotSignal s 0 count.toNat)

/-- ROUND_FINISHED_SIGNAL: a SIG to 0x8_4001. -/
def execRoundFinishedSignal (count : BitVec 16) (s : State) : Answer :=
  if s.rot.holder = 0 then .next s else .next (rotSignal s 1 count.toNat)

/-- Rotation goes back to a round (Table 10-4, step 6): what was granted, received and sent for it and later
rounds is forgotten, and its credits are granted again. -/
def rotRestore (s : State) (u : Nat) : State :=
  let r := s.rot
  let past := fun (l : List (Nat × Nat)) => l.filter (fun p => decide (p.2 < u))
  let s := setRot s { r with
    round := u, roundSigs := u, blockSigs := ceilDiv u r.g, complete := r.complete.filter (fun v => decide (v < u)),
    granted := past r.granted, credits := past r.credits, sent := past r.sent,
    acked := past r.acked, due := r.due.filter (fun v => decide (v < u)),
    arrived := r.arrived.filter (fun v => decide (v.1 < u)) }
  foldUpto r.slots (dropClaims s (3, 0, 0)) (fun s i => grantRound s (u + i))

end Sys2Proof.Machine
end

