-- ==== Sys2Proof/Machine/Sowing.lean ====
section
/-! DEFINITION. The Sowing engine (R227 to R230, Tables 07-13 and 07-14): its entries in ring order, their
conditions, what each kind does, and its credit and layer signals. -/
namespace Sys2Proof.Machine

/-- A Sowing entry (Table 07-13). -/
structure SowEntry where
  a2 : Nat
  ja : Nat
  len : Nat
  sem : Nat
  layer : Nat
  cm1 : Nat
  h : Bool
  sg : Bool
  unpin : Bool
  pin : Bool
  kind : Nat
  deriving DecidableEq, Repr

def SowEntry.parse (b : List Byte) : SowEntry :=
  let w := leNat b
  { a2 := field w 192 64, ja := field w 128 64, len := field w 96 32, sem := field w 76 20, layer := field w 48 16,
    cm1 := field w 32 16, h := bitAt w 11, sg := bitAt w 10, unpin := bitAt w 9, pin := bitAt w 8, kind := field w 0 4 }

/-- Reserved bits of an entry that are set (R10). -/
def entryReserved (b : List Byte) : Bool :=
  let w := leNat b
  decide (field w 64 12 ≠ 0 ∨ field w 12 20 ≠ 0 ∨ field w 4 4 ≠ 0)

/-- The Sowing job. -/
def sowJob (s : State) : Job := jobOf s s.sowing.holder

/-- The range of an entry lies within one KIND 2 page. -/
def barnRange (s : State) (e : SowEntry) : Bool :=
  decide (xKind (xent (sowJob s) e.ja) = 2 ∧ e.ja / 2097152 = (e.ja + e.len - 1) / 2097152)

/-- Every granule of a range lies in a page of KIND 1 or 3, writable where asked. -/
def copyRange (s : State) (ja len : Nat) (write : Bool) : Bool :=
  (granules ja len).all (fun p =>
    let e := xent (sowJob s) p.1
    decide (xKind e = 1 ∨ xKind e = 3) && (!write || xWrite e))

/-- A range that has a page of another module: its writes go as whole sectors (R268). -/
def remotePart (s : State) (ja len : Nat) : Bool := (granules ja len).any (fun p => decide (xKind (xent (sowJob s) p.1) = 3))

/-- A range that overlaps a bale without equalling it (R220). -/
def baleConflict (s : State) (ga len : Nat) : Bool :=
  s.bales.any (fun b => overlap (b.ga, b.len) (ga, len) && decide ((b.ga, b.len) ≠ (ga, len)))

/-- Whether an entry breaks R10 or the rules of its kind (R227, R228, R213, R220). -/
def entryBad (s : State) (e : SowEntry) (raw : List Byte) : Bool :=
  let k := e.kind
  let ranged := decide (k < 4)
  let ga := xGa (xent (sowJob s) e.ja) e.ja
  entryReserved raw || decide (7 < k) ||
  decide (e.ja % 4096 ≠ 0 ∨ 2 ^ 48 ≤ e.ja) ||
  (ranged && decide (e.len < 4096 ∨ 1048576 < e.len ∨ e.len % 4096 ≠ 0)) ||
  (decide (k = 4 ∨ k = 6 ∨ k = 7) && decide (e.len ≠ 0)) ||
  (decide (k = 5) && decide (e.len % 4096 ≠ 0 ∨ 1048576 < e.len)) ||
  (decide (k ≠ 3 ∧ k ≠ 4) && decide (e.a2 ≠ 0)) ||
  (decide (k ≠ 6) && decide (e.cm1 ≠ 0)) || decide (1023 < e.cm1) ||
  (e.pin && decide (k ≠ 0)) || (e.unpin && decide (k ≠ 2)) || (e.h && decide (k ≠ 0 ∧ k ≠ 3)) ||
  (e.sg && (decide (k = 6) || !semOk e.sem || !sigAllowed s s.sowing.holder e.sem)) ||
  (decide (k = 6) && decide (e.sem < 2 ∨ 63 < e.sem)) ||
  (decide (k = 0 ∨ k = 1 ∨ k = 2) && !barnRange s e) ||
  (decide (k = 0) && baleConflict s ga e.len) ||
  (decide (k = 3) && (decide (2 ^ 48 < e.a2 + e.len) || !copyRange s e.ja e.len false
    || !copyRange s e.a2 e.len true || (decide (e.a2 % 64 ≠ 0) && remotePart s e.a2 e.len))) ||
  (decide (k = 4) && (decide (xKind (xent (sowJob s) e.ja) ≠ 2) ||
    decide (e.a2 % 2097152 ≠ 0) || !gaOk e.a2 2097152)) ||
  (decide (k = 5) && decide (xKind (xent (sowJob s) e.ja) ≠ 2)) ||
  (decide (k ≠ 7) && decide (e.layer < s.sowing.prevLayer))

/-- The present entry and its bytes, where the schedule runs and has one. -/
def presentEntry (s : State) : Option (SowEntry × List Byte) :=
  let w := s.sowing
  if w.holder = 0 ∨ w.entries = 0 ∨ w.stopped = true ∨ (sowJob s).st ≠ 2 then none
  else
    let b := gran s (w.base + 32 * w.next) 32
    some (SowEntry.parse b, b)

/-- The wait of the present entry under R228 as its stall cause: 7 credit, 8 layer window, 9 directory, whose room goes to
waiting demand faults first (R229); none where it may start. -/
def entryWait (s : State) (e : SowEntry) : Option Nat :=
  let w := s.sowing
  let ga := xGa (xent (sowJob s) e.ja) e.ja
  if (e.kind = 0 ∨ e.kind = 3) ∧ w.credit < e.len / 4096 then some 7
  else if w.lp + (w.ahead : Int) < (e.layer : Int) then some 8
  else if e.kind = 0 ∧ (baleNamed s ga).isNone = true ∧ 65536 ≤ s.bales.length + s.faultWait.length then some 9
  else none

/-- Moves to the next entry of the ring. -/
def nextEntry (s : State) (e : SowEntry) : State :=
  let w := s.sowing
  { s with sowing := { w with next := if e.kind = 7 then 0 else (w.next + 1) % w.entries,
                              prevLayer := if e.kind = 7 then 0 else e.layer } }

/-- An entry is under way. -/
def openEntry (s : State) (e : SowEntry) : State :=
  let w := s.sowing
  let f : SowFlight :=
    { index := w.next, kind := e.kind, layer := e.layer, ja := e.ja, len := e.len, a2 := e.a2,
      sem := if e.sg then some e.sem else none, h := e.h, cache := [], asked := [], remoteWrites := none }
  let s := { s with sowing := { w with flights := w.flights ++ [f] } }
  if e.sg then claimSem s e.sem (1, w.next, e.layer) else s

/-- A WAIT entry that has not taken its counts holds every entry behind it: an entry placed after one acts once it is
signalled (R323, log entry 12). -/
def heldByWait (s : State) : Bool := s.sowing.flights.any (fun f => decide (f.kind = 6))

/-- Starts the present entry if it is of a kind: the checks that refuse it, then the conditions of R228, then
what the kind does. An entry of no kind is refused by any start. -/
def startEntry (s : State) (kind : Nat) (act : State → SowEntry → Nat → State) : State :=
  match presentEntry s with
  | none => s
  | some (e, raw) =>
    let at_ := (s.sowing.base + 32 * s.sowing.next, 32)
    let q := snoopSpan s at_.1 32 false
    let g := sectorGate q.1 srcEngine [at_] false
    if !q.2 then q.1
    else if !g.2 then g.1
    else if !(badIn s (s.sowing.base + 32 * s.sowing.next) 32).isEmpty then
      unitError (detectBad s (s.sowing.base + 32 * s.sowing.next) 32) s.sowing.holder
    else if e.kind ≠ kind ∧ e.kind ≤ 7 then s
    else if heldByWait s = true ∨ 64 ≤ s.sowing.flights.length ∨ (flightEntry s s.sowing.next).isSome = true then s
    else if entryBad s e raw then refuseEntry (enterAll s srcEngine [at_] false) s.sowing.next
    else if (entryWait s e).isSome then s
    else
      let i := s.sowing.next
      let s := enterAll s srcEngine [at_] false
      act (nextEntry (openEntry s e) e) e i

/-- The bale of an entry's range and its Granary address. -/
def entryGa (s : State) (e : SowEntry) : Nat := xGa (xent (sowJob s) e.ja) e.ja
def entryBarn (s : State) (e : SowEntry) : Nat := xBarn (xent (sowJob s) e.ja) + e.ja % 2097152

/-- One more pin on a bale, refused above 65 535 (R222). -/
def pinOk (s : State) (ga : Nat) : Bool :=
  match baleNamed s ga with
  | some b => decide (b.pins < 65535)
  | none => true

/-- FETCH (KIND 0): moves the bale up. -/
def execFetch (s : State) : Answer :=
  .next (startEntry s 0 (fun s e i =>
    let ga := entryGa s e
    let job := s.sowing.holder
    if e.pin && !pinOk s ga then refuseEntry s i
    else
      let w := s.sowing
      let s := { s with sowing := { w with credit := w.credit - e.len / 4096 } }
      let pin := boolNat e.pin
      match baleNamed s ga with
      | none => newBale s ga (entryBarn s e) e.len job pin 0 [i]
      | some b =>
        let s := cancelEviction s b
        match baleNamed s ga with
        | none => s
        | some b =>
          let b := { b with pins := b.pins + pin }
          if b.st = .fetching then bump (setBale s { b with onMove := b.onMove ++ [i] }) 0xA400 11 1
          else if b.st = .absent then beginMove (setBale s b) { b with onMove := b.onMove ++ [i] }
          else completeFetch (setBale s b) i ga))

/-- WRITEBACK (KIND 1). DESIGN CHOICE (log entry 83): where its LEN differs from that of the bale at JA it acts on that bale, and
where its range only overlaps a bale that starts elsewhere it completes at once; an EVICT likewise. -/
def execWriteback (s : State) : Answer :=
  .next (startEntry s 1 (fun s e i =>
    let s := formBale s (entryGa s e) (entryBarn s e) e.len s.sowing.holder
    match baleNamed s (entryGa s e) with
    | none => completeEntry s i 0
    | some b =>
      match b.st with
      | .absent => completeEntry s i 0
      | .clean => completeEntry s i 0
      | .fetching => setBale s { b with onWrite := b.onWrite ++ [i] }
      | .writing => setBale s { b with onWrite := b.onWrite ++ [i] }
      | .dirty => kickBale (setBale s { b with onWrite := b.onWrite ++ [i] }) b.ga))

/-- EVICT (KIND 2): at once, by a write-back, or deferred (Table 07-12). -/
def execEvict (s : State) : Answer :=
  .next (startEntry s 2 (fun s e i =>
    let s := if e.unpin then s else formBale s (entryGa s e) (entryBarn s e) e.len s.sowing.holder
    match baleNamed s (entryGa s e) with
    | none => if e.unpin then refuseEntry s i else completeEntry s i 0
    | some b =>
      if e.unpin && decide (b.pins = 0) then refuseEntry s i
      else if b.st = .absent then
        let b := { b with pins := b.pins - boolNat e.unpin }
        completeEntry (if b.pins = 0 then dropBale s b else setBale s b) i 0
      else
        let b := { b with pins := b.pins - boolNat e.unpin, onEvict := b.onEvict ++ [i] }
        if b.st = .fetching ∨ b.st = .writing ∨ b.pins ≠ 0 then
          bump (setBale s { b with evictPending := true }) 0xA400 6 1
        else if b.st = .dirty then
          let b := { b with evictPending := true }
          startWrite (setBale s b) b true
        else invalidateBale (setBale s b) b))

/-- Whether a BIND's page has no valid granule and no pinned bale. -/
def bindReady (s : State) (ja : Nat) : Bool :=
  let f := xFrame (xent (sowJob s) ja)
  (upto 512).all (fun i => !validGranule s (f + 4096 * i)) &&
    s.bales.all (fun b => decide (b.ga / 2097152 * 2097152 ≠ f ∨ b.pins = 0))

/-- Writes the page's new frame into its translation entry, which every unit then uses (R215, R227). -/
def bindPage (s : State) (f : SowFlight) : State :=
  let job := s.sowing.holder
  let j := sowJob s
  let old := xent j f.ja
  let new := old - xFrame old / 2097152 * 2 ^ 21 + f.a2 / 2097152 * 2 ^ 21
  let at_ := j.man.ttb + 16 * (f.ja / 2097152)
  let q := storeGate s srcEngine [(at_, toLe 16 new)]
  if !q.2 then q.1
  else
    let r := store q.1 srcEngine none at_ (toLe 16 new)
    let s := if new = old then r.1 else enterFrame r.1 new
    let s := modJob s job (fun j => { j with xlate := kvSet 0 j.xlate (f.ja / 2097152) new })
    let s := if r.2 then unitError s job else s
    completeEntry s f.index 0

/-- Completes every BIND that may complete. -/
def kickBinds (s : State) : State :=
  (s.sowing.flights.filter (fun f => decide (f.kind = 4))).foldl (fun s f =>
    if bindReady s f.ja then bindPage s f else s) s

/-- BIND (KIND 4). -/
def execBind (s : State) : Answer := .next (kickBinds (startEntry s 4 (fun s _ _ => s)))

/-- UNPIN (KIND 5): one pin less on the bale, or, with LEN 0, on each bale of the page. -/
def execUnpin (s : State) : Answer :=
  .next (kickBinds (startEntry s 5 (fun s e i =>
    let ga := entryGa s e
    let hit := s.bales.filter (fun b => if e.len = 0 then decide (b.ga / 2097152 = ga / 2097152)
      else decide (b.ga = ga ∧ b.len = e.len))
    if hit.isEmpty || hit.any (fun b => decide (b.pins = 0)) then refuseEntry s i
    else 
      let s := hit.foldl (fun s b => setBale s { b with pins := b.pins - 1 }) s
      completeEntry { s with bales := s.bales.filter baleStays } i 0)))

/-- WAIT (KIND 6): takes its counts, or waits behind those that began before (R140). -/
def execSowingWait (s : State) : Answer :=
  .next (startEntry s 6 (fun s e i =>
    let name := headName 0x60 e.sem
    let x := sem s name
    let n := e.cm1 + 1
    if x.waiters.isEmpty && decide (n ≤ x.count) then completeEntry (setSem s name { x with count := x.count - n }) i 0
    else setSem s name { x with waiters := x.waiters ++ [.sowing i n] }))

/-- END (KIND 7): Lp falls by LAYER, and entry 0 follows. -/
def execSowingEnd (s : State) : Answer :=
  .next (startEntry s 7 (fun s e i =>
    let w := s.sowing
    completeEntry { s with sowing := { w with lp := w.lp - (e.layer : Int), ends := w.ends + 1 } } i 0))

/-- COPY (KIND 3): takes its credit and begins. -/
def execCopy (s : State) : Answer :=
  .next (startEntry s 3 (fun s e _ =>
    { s with sowing := { s.sowing with credit := s.sowing.credit - e.len / 4096 } }))

def setEntry (s : State) (f : SowFlight) : State :=
  { s with sowing := { s.sowing with flights := s.sowing.flights.map (fun g => if g.index = f.index then f else g) } }

/-- Runs of consecutive lines within a granule, of at most 64 lines: (first line, lines). -/
def lineRuns : List Nat → List (Nat × Nat)
  | [] => []
  | l :: rest =>
    match lineRuns rest with
    | (a, n) :: m => if a = l + 1 ∧ n < 64 ∧ l / 64 = a / 64 then (l, n + 1) :: m else (l, 1) :: (a, n) :: m
    | [] => [(l, 1)]

/-- Asks for remote lines (job address / 64) not asked for yet, in order, at most `room` of them, until a request must wait.
Answers the lines asked and whether a module was unreachable. -/
def askLines (s : State) (job room : Nat) (asked lines : List Nat) (own : Nat → TransOwner) : State × List Nat × Bool :=
  let j := jobOf s job
  let want := (lines.filter (fun l => !asked.elem l)).take room
  (lineRuns want).foldl (fun r p =>
    let e := xent j (64 * p.1)
    if r.2.2 then r
    else
      let q := sendRequest r.1 (own (64 * p.1)) job (xModule e) j.man.mvc (xGa e (64 * p.1)) p.2 false []
      match q.2 with
      | .sent => (q.1, r.2.1 ++ (upto p.2).map (fun i => p.1 + i), false)
      | .wait => (q.1, r.2.1, false)
      | .unreachable => (q.1, r.2.1, true)) (s, asked, false)

/-- Sends remote writes; the ones that must wait are left. Answers what is left, how many were sent, and whether
a module was unreachable. -/
def sendWrites (s : State) (job : Nat) (ws : List (Nat × Nat × List Byte)) (own : TransOwner) :
    State × List (Nat × Nat × List Byte) × Nat × Bool :=
  let vc := (jobOf s job).man.mvc
  ws.foldl (fun r w =>
    if !r.2.1.isEmpty || r.2.2.2 then (r.1, r.2.1 ++ [w], r.2.2)
    else
      let q := sendRequest r.1 own job w.1 vc w.2.1 (ceilDiv w.2.2.length 64) true w.2.2
      match q.2 with
      | .sent => (q.1, r.2.1, r.2.2.1 + 1, false)
      | .wait => (q.1, [w], r.2.2.1, false)
      | .unreachable => (q.1, r.2.1, r.2.2.1, true)) (s, [], 0, false)

/-- The destination of a COPY is written: local stores at once, remote writes sent. -/
def copyWrite (s : State) (f : SowFlight) (b : List Byte) : State :=
  let job := s.sowing.holder
  match jobPut s job f.a2 b with
  | .fault _ _ => refuseEntry s f.index
  | .go ls rs =>
    let q := storeGate s srcEngine ls
    if !q.2 then q.1
    else
      let r := sendWrites q.1 job rs (.sowWrite f.index)
      if r.2.2.2 then unitError r.1 job
      else if !r.2.1.isEmpty then q.1
      else
        let p := putLocal r.1 srcEngine none ls
        let s := setEntry p.1 { f with remoteWrites := some r.2.2.1 }
        if p.2 then unitError s job else s

/-- COPY_COMPLETE: the engine reads the range, writes it, and completes once every write is acknowledged. -/
def execCopyComplete (entry : Nat) (s : State) : Answer :=
  match flightEntry s entry with
  | none => .next s
  | some f =>
    let job := s.sowing.holder
    let finish := fun (s : State) (f : SowFlight) =>
      if f.remoteWrites = some 0 ∧ s.held.any (fun h => decide (h.source = srcEngine)) = false then
        completeEntry s f.index 0
      else s
    if f.kind ≠ 3 then .next s
    else if f.remoteWrites.isSome then .next (finish s f)
    else
      match jobRead s job srcEngine f.cache f.ja f.len with
      | .fault _ _ => .next (refuseEntry s entry)
      | .wait s => .next s
      | .bad s => .next (unitError s job)
      | .remote lines =>
        let r := askLines s job (64 - f.asked.length) f.asked lines (fun ja => .sowRead entry ja)
        let s := setEntry r.1 { f with asked := r.2.1 }
        .next (if r.2.2 then unitError s job else s)
      | .ok b =>
        let h := Hdr.parse (b.take 64)
        if f.h && !((hdrReason (b.take 64)).isNone && decide (h.size = tileSize h ∧ h.size ≤ f.len)) then
          .next (refuseEntry s entry)
        else
          let s := copyWrite s f b
          match flightEntry s entry with
          | some f => .next (if f.remoteWrites.isSome then finish (jobEntered s job srcEngine f.ja f.len) f else s)
          | none => .next s

/-! ## Credit and layer signals (R228, R229): counts signalled to 0x8_6000 and 0x8_6001 -/

/-- A count reaches semaphore index 0 or 1 of unit 0x60. -/
def sowSignal (s : State) (idx count : Nat) : State :=
  let w := s.sowing
  if idx = 0 then { s with sowing := { w with credit := (w.credit + count) % 2 ^ 32 } }
  else { s with sowing := { w with lp := w.lp + (count : Int) } }

/-- SOWING_CREDIT: a SIG to 0x8_6000 adds to the credit register. -/
def execSowingCredit (count : BitVec 16) (s : State) : Answer :=
  if s.sowing.holder = 0 then .next s else .next (sowSignal s 0 count.toNat)

/-- LAYER_ADVANCE: a SIG to 0x8_6001 raises Lp. -/
def execLayerAdvance (count : BitVec 16) (s : State) : Answer :=
  if s.sowing.holder = 0 then .next s else .next (sowSignal s 1 count.toNat)

end Sys2Proof.Machine
end

