-- ==== Sys2Proof/Machine/Stook.lean ====
section
/-! DEFINITION. Stook reductions (R296 to R316, R324): chains, windows and posts, additions along a chain, results,
Gleaner copies, retained gathers and the signals of a window. -/
namespace Sys2Proof.Machine

/-! ## Groups, positions and chains (R298, R313) -/

def groupAt (s : State) (gid : Nat) : Option Group := s.stook.groups.find? (fun g => decide (g.cfg.gid = gid))

def setGroup (s : State) (g : Group) : State :=
  { s with stook := { s.stook with groups := s.stook.groups.map (fun h => if h.cfg.gid = g.cfg.gid then g else h) } }

/-- The ring position this member works for, as primary or as Gleaner. -/
def groupPos (g : Group) : Nat := match g.primary with | some p => p | none => g.gleans.getD 0

def tileOwner (c : GroupRec) (t : Nat) : Nat := t % c.p

def tileStep (c : GroupRec) (t : Nat) : Nat := if c.steps.isEmpty then 0 else natAt c.steps (t % c.steps.length)

/-- Index of position q in tile t's chain, 1 to P; the owner is last. -/
def chainIndex (c : GroupRec) (t q : Nat) : Nat :=
  if q = tileOwner c t then c.p
  else (((upto c.p).find? (fun k => decide ((tileOwner c t + k * tileStep c t) % c.p = q)))).getD 0

def nextPos (c : GroupRec) (t q : Nat) : Nat := (q + tileStep c t) % c.p
def prevPos (c : GroupRec) (t q : Nat) : Nat := (q + c.p - tileStep c t) % c.p

/-- The modules that receive what goes to a position: its primary and, where it has one, its Gleaner (R313). -/
def posModules (g : Group) (q : Nat) : List Nat :=
  match g.members[q]? with
  | some (m, n) => if n = 0x7FFF then [m] else [m, n]
  | none => []

def hasGleaner (g : Group) (q : Nat) : Bool :=
  match g.members[q]? with
  | some (_, n) => decide (n ≠ 0x7FFF)
  | none => false

/-- What a tile's flits say of it. -/
def tileMsg (g : Group) (window tile kind : Nat) (b : List Byte) : StookMsg :=
  { gid := ⟨g.cfg.gid % 13, Nat.mod_lt _ (by decide)⟩, window := window, tile := tile, kind := BitVec.ofNat 2 kind,
    gleaner := g.primary.isNone, bytes := b }

/-- Sends a tile to a position, as STOOK flits on the group's VC (R299). -/
def sendTile (s : State) (g : Group) (q window tile kind : Nat) (b : List Byte) : State :=
  (posModules g q).foldl (fun s m =>
    bump (sendBytes s 3 g.cfg.vc m b (.stook (tileMsg g window tile kind b))) 0xA580 2 1) s

/-- The source number of the Stook unit that sends to a position: that of the egress port (R299). -/
def egressSrc (s : State) (g : Group) (q : Nat) : Nat :=
  match g.members[q]? with
  | some (m, _) => stookSrc ((egressOf s (routeOf s (myId s) m g.cfg.vc)).getD 0)
  | none => srcStook

/-! ## Slots (R300, R324) -/

def slotIndex (c : GroupRec) (lam t : Nat) : Nat := ((lam % 2) * c.tiles + t) * c.slotb
def contribAddr (c : GroupRec) (lam t : Nat) : Nat := c.cbase + slotIndex c lam t
def resultAddr (c : GroupRec) (lam t : Nat) : Nat := c.rbase + slotIndex c lam t

/-- Retained layers Rt (R324). -/
def retained (c : GroupRec) : Nat :=
  if c.ret ∧ c.tiles * c.slotb ≠ 0 then min c.nl (c.retm * 1048576 / (c.tiles * c.slotb)) else 0

/-- The layer a window gathers, and whether it is a backward one. -/
def windowLayer (c : GroupRec) (lam : Nat) : Nat × Bool :=
  let w := lam % (2 * c.nl)
  if w < c.nl then (w, false) else (2 * c.nl - 1 - w, true)

def isRetained (c : GroupRec) (l : Nat) : Bool := c.ret && decide (0 < c.nl ∧ c.nl - retained c ≤ l)

/-- Whether the window is the backward window of a retained layer: nothing is posted, nothing travels. -/
def retainedBack (c : GroupRec) (lam : Nat) : Bool :=
  c.ret && (let x := windowLayer c lam; x.2 && isRetained c x.1)

def keepAddr (c : GroupRec) (l t : Nat) : Nat := c.rbase + (2 + l + retained c - c.nl) * c.tiles * c.slotb + t * c.slotb

/-! ## Windows -/

def Window.fresh (lam : Nat) : Window :=
  { lam := lam, opened := false, late := [], timers := [], posted := [], marker := false, read := [], arrived := [],
    taken := [], results := [], handled := [], norms := [], done := false }

def windowAt (g : Group) (lam : Nat) : Window := (g.windows.find? (fun w => decide (w.lam = lam))).getD (Window.fresh lam)

def setWindow (g : Group) (w : Window) : Group :=
  if g.windows.any (fun x => decide (x.lam = w.lam)) then
    { g with windows := g.windows.map (fun x => if x.lam = w.lam then w else x) }
  else { g with windows := g.windows ++ [w] }

/-- A window that has left the directory of windows is over. -/
def windowOver (g : Group) (lam : Nat) : Bool := decide (lam < g.lam) && !g.windows.any (fun w => decide (w.lam = lam))

/-- Whether the window two before is complete at this member, so that window lam may open (R304). -/
def mayOpen (g : Group) (lam : Nat) : Bool := g.windows.all (fun w => decide (lam ≤ w.lam + 1) || w.done)

/-- Modifies one window of a group. -/
def modWindow (s : State) (gid lam : Nat) (f : Window → Window) : State :=
  match groupAt s gid with
  | some g => setGroup s (setWindow g (f (windowAt g lam)))
  | none => s

/-- A result slot this member must write for the window (R307). -/
def mustWrite (g : Group) (t : Nat) : Bool := decide (g.cfg.kind ≠ 0 ∨ tileOwner g.cfg t = groupPos g)

/-- The Stook layer adds and sends for a running job: it finishes its tiles while STOPPING (R312). -/
def stookOn (s : State) (job : Nat) : Bool :=
  (running s 0x50 || decide ((fnGet s 0x50).st = .stopping)) && decide ((jobOf s job).st = 2)

/-! ## Deadlines (R314) -/

/-- The position that sends a running sum, a result or a gather tile to this member. -/
def senderPos (c : GroupRec) (own kind t : Nat) : Nat := if kind = 1 then tileOwner c t else prevPos c t own

/-- Whether the deadline of what a Gleaner has sent has passed. -/
def lateIn (g : Group) (w : Window) (x : StookIn) : Bool := w.late.elem (senderPos g.cfg (groupPos g) x.kind x.tile)

/-- The port on which the flow of a position's primary arrives: the last it has come on, or the one that faces it. -/
def arrivalPort (s : State) (g : Group) (q : Nat) : Nat :=
  match g.members[q]? with
  | some (m, _) => (kvFind s.links.arrivals (flowKey m g.cfg.vc)).getD ((egressOf s (routeOf s (myId s) m g.cfg.vc)).getD 0)
  | none => 0

/-- The counts that begin as a window opens: one for each other position that has a Gleaner. -/
def openTimers (s : State) (g : Group) : KV (Nat × Nat × Nat) :=
  ((upto g.cfg.p).filter (fun q => hasGleaner g q && decide (q ≠ groupPos g))).map (fun q =>
    (q, arrivalPort s g q, portClock s (arrivalPort s g q), 0))

/-- STOOK flits of a flow have come on a port: where that is another than before, the counts of its position go on in the new
port's clock. -/
def noteArrival (s : State) (src vc p : Nat) : State :=
  let move := fun (g : Group) (q : Nat × Nat × Nat × Nat) =>
    if g.cfg.vc = vc ∧ (g.members[q.1]?).map (·.1) = some src ∧ q.2.1 ≠ p then
      (q.1, p, portClock s p, q.2.2.2 + (portClock s q.2.1 - q.2.2.1))
    else q
  let groups := s.stook.groups.map (fun g => { g with
    windows := g.windows.map (fun w => { w with timers := w.timers.map (move g) }) })
  { s with stook := { s.stook with groups := groups },
           links := { s.links with arrivals := kvPut s.links.arrivals (flowKey src vc) p } }

/-- The positions whose deadline falls now. -/
def dueTimers (s : State) (g : Group) (w : Window) : List Nat :=
  if g.cfg.dl = 0 then []
  else (w.timers.filter (fun q => !w.late.elem q.1
    && decide (g.cfg.dl ≤ q.2.2.2 + (portClock s q.2.1 - q.2.2.1)))).map (·.1)

/-! ## Results (R307, R324) -/

/-- The bytes of a tile as it travels: header and arrays (log entry 15). -/
def tileBytes (h : Hdr) (o : TileOut) : List Byte := readBytes (writeAll [] (tileWrites 0 h o)) 0 (tileSize h)

/-- A tile of FP32 rows, or of pairs, with its header. -/
def wordsTile (old : List Byte) (rows : List (List Word32)) (cols : Nat) : List Byte :=
  tileBytes (newHdr old 0 0 0 rows.length cols 0 0) (f32Tile rows)

/-- The stores of a result: its slot and, in a retained forward window, its retained copy. -/
def resultStores (g : Group) (lam t : Nat) (b : List Byte) : List (Nat × List Byte) :=
  let c := g.cfg
  let l := windowLayer c lam
  (resultAddr c lam t, b) :: (if c.ret && !l.2 && isRetained c l.1 then [(keepAddr c l.1 t, b)] else [])

/-- Stores a result. True where a store failed. -/
def writeResult (s : State) (src : Nat) (g : Group) (lam t : Nat) (b : List Byte) : State × Bool :=
  (resultStores g lam t b).foldl (fun r w =>
    let q := store r.1 src none w.1 w.2
    (q.1, r.2 || q.2)) (s, false)

/-- Whether a result may be stored now. -/
def resultRoom (s : State) (src : Nat) (g : Group) (lam t : Nat) (b : List Byte) : State × Bool :=
  storeGate s src (resultStores g lam t b)

/-- Takes a result or gather tile that has arrived: it is written, and a gather tile goes on (R307). -/
def landResult (s : State) (gid lam : Nat) (x : StookIn) : State :=
  match groupAt s gid with
  | none => s
  | some g =>
    let q := resultRoom s (stookSrc x.port) g lam x.tile x.bytes
    if !q.2 then q.1
    else
      let r := writeResult q.1 (stookSrc x.port) g lam x.tile x.bytes
      let s := modWindow r.1 gid lam (fun w => { w with
        arrived := w.arrived.erase x, results := w.results ++ [x.tile],
        handled := if x.kind = 2 then w.handled ++ [x.tile] else w.handled })
      let next := nextPos g.cfg x.tile (groupPos g)
      let s := if x.kind = 2 ∧ next ≠ tileOwner g.cfg x.tile then sendTile s g next lam x.tile 2 x.bytes else s
      let s := progress s g.job
      if r.2 then unitError s g.job else s

/-- Every result and gather tile that waits in an open window is taken, a Gleaner's from the deadline on (R314). -/
def landResults (s : State) (gid lam : Nat) : State :=
  match groupAt s gid with
  | none => s
  | some g =>
    let w := windowAt g lam
    if !w.opened || !stookOn s g.job then s
    else (w.arrived.filter (fun x => decide (x.kind ≠ 0) && (!x.gleaner || lateIn g w x))).foldl
      (fun s x => landResult s gid lam x) s

/-! ## Posts and markers (R300 to R304) -/

/-- A window opens at this member's first post or marker: the layer registers on DSEM (R311). -/
def openWindow (s : State) (gid lam : Nat) : State :=
  match groupAt s gid with
  | none => s
  | some g =>
    if (windowAt g lam).opened then s
    else
      let s := setGroup s (setWindow g { windowAt g lam with opened := true, timers := openTimers s g })
      landResults (claimSem s g.cfg.dsem (5, gid, lam)) gid lam

/-- The window a new post belongs to: the present one, or one past each held marker. -/
def postWindow (g : Group) : Nat := g.lam + (g.held.filter (·.isNone)).length

/-- Tiles already posted in that window. -/
def postedTiles (g : Group) : List Nat :=
  ((g.held.reverse.takeWhile (·.isSome)).filterMap id) ++ (windowAt g (postWindow g)).posted

/-- Whether a post is refused (R301, R324). -/
def postBad (g : Group) (t : Nat) : Bool :=
  decide (g.cfg.tiles ≤ t) || (postedTiles g).elem t
    || (decide (g.cfg.kind = 2) && (decide (tileOwner g.cfg t ≠ groupPos g) || retainedBack g.cfg (postWindow g)))

/-- A retained layer's backward window fills the next of its result slots from the retention area (R324); the copy waits as any
read and store of the unit. -/
def fillSlot (s : State) (gid lam t : Nat) : State :=
  match groupAt s gid with
  | none => s
  | some g =>
    let c := g.cfg
    let fill := fun (s : State) => modWindow s gid lam (fun w => { w with
      results := w.results ++ [t], handled := w.handled ++ [t] })
    if (windowAt g lam).results.elem t then s
    else match localRead s srcStook (keepAddr c (windowLayer c lam).1 t) c.slotb with
      | .ok b =>
        let q := storeGate s srcStook [(resultAddr c lam t, b)]
        if !q.2 then q.1
        else
          let s := entered q.1 srcStook (keepAddr c (windowLayer c lam).1 t) c.slotb
          let r := store s srcStook none (resultAddr c lam t) b
          if r.2 then unitError (fill r.1) g.job else fill r.1
      | .bad s => unitError (fill s) g.job
      | .wait s => s
      | _ => s

/-- Fills a backward window of a retained layer whose marker is in, as far as its copies may go. -/
def fillRetained (s : State) (gid lam : Nat) : State :=
  match groupAt s gid with
  | none => s
  | some g =>
    if retainedBack g.cfg lam && (windowAt g lam).marker && stookOn s g.job then
      foldUpto g.cfg.tiles s (fun s t => fillSlot s gid lam t)
    else s

/-- Performs a post (a tile) or a marker in the present window. False where it must be held. -/
def actPost (s : State) (gid : Nat) (post : Option Nat) : State × Bool :=
  match groupAt s gid with
  | none => (s, true)
  | some g =>
    let lam := g.lam
    if !running s 0x50 || !mayOpen g lam then
      (setGroup s { g with held := post :: g.held }, false)
    else
      let s := openWindow s gid lam
      match post with
      | some t => (modWindow s gid lam (fun w => { w with posted := w.posted ++ [t] }), true)
      | none =>
        let s := modWindow s gid lam (fun w => { w with marker := true })
        match groupAt s gid with
        | none => (s, true)
        | some g =>
          (fillRetained (setGroup s { g with lam := lam + 1 }) gid lam, true)

/-- Posts and markers that were held act in order, as far as they may. -/
def kickPosts (s : State) (gid : Nat) : State :=
  match groupAt s gid with
  | none => s
  | some g =>
    (iter (fun (r : State × Bool) =>
      match r.2, groupAt r.1 gid with
      | true, some h =>
        match h.held with
        | [] => (r.1, false)
        | p :: rest =>
          let q := actPost (setGroup r.1 { h with held := rest }) gid p
          q
      | _, _ => r) g.held.length (s, true)).1

/-- A refused post or marker is counted, and is a program fault of its sender (R301, R125). -/
def refusePost (s : State) (src : SigSource) (job : Nat) : State :=
  let s := bump s 0xA580 7 1
  match src with
  | .thread t pc word => recordStop s t pc (toLe 4 word.toNat) 0x04
  | _ => programFault s job

/-- A post or marker of a group: refused, held behind others, or acted on. -/
def post (s : State) (g : Group) (src : SigSource) (p : Option Nat) : State :=
  let bad := match p with
    | some t => postBad g t
    | none => false
  if bad then refusePost s src g.job
  else kickPosts (setGroup s { g with held := g.held ++ [p] }) g.cfg.gid

/-- A count reaches index idx of unit 0x50 + GID. -/
def groupSignal (s : State) (gid idx count : Nat) (src : SigSource) : State :=
  match groupAt s gid with
  | none => s
  | some g =>
    if count = 0 ∨ (jobOf s g.job).st = 3 then s
    else if idx < 63 then post s g src (some (1024 * idx + count - 1))
    else if 1 < count then refusePost s src g.job
    else post s g src none

/-- TILE_POST: a SIG to unit 0x50 + GID, index 0 to 62. -/
def execTilePost (gid : Fin 13) (index : BitVec 6) (count : BitVec 16) (s : State) : Answer :=
  if index.toNat = 63 then .next s else .next (groupSignal s gid.val index.toNat count.toNat .engine)

/-- LAYER_COMPLETE_MARKER: a SIG to unit 0x50 + GID, index 63. -/
def execLayerCompleteMarker (gid : Fin 13) (count : BitVec 16) (s : State) : Answer :=
  .next (groupSignal s gid.val 63 count.toNat .engine)

/-! ## Arrivals (R306, R314, R315) -/

/-- Counts the copies of a tile that are thrown away untaken. -/
def discardCopies (s : State) (n : Nat) : State := if n = 0 then s else bump s 0xA580 4 n

/-- Takes a running sum: other copies of the tile that wait are discarded. -/
def takeSum (s : State) (gid lam : Nat) (x : StookIn) : State :=
  match groupAt s gid with
  | none => s
  | some g =>
    let w := windowAt g lam
    let mine := fun (y : StookIn) => decide (y.kind = 0 ∧ y.tile = x.tile)
    let n := (w.arrived.filter mine).length - boolNat (w.arrived.elem x)
    let s := modWindow s gid lam (fun w => { w with
      arrived := w.arrived.filter (fun y => !mine y) ++ [x], taken := w.taken ++ [x.tile] })
    let s := if x.gleaner then bump s 0xA590 (gid + 1) 1 else s
    discardCopies s n

/-- Takes a result or gather tile, in place of a copy that waits: it is written as soon as the window is open here. -/
def takeResult (s : State) (gid lam : Nat) (x : StookIn) : State :=
  match groupAt s gid with
  | none => s
  | some g =>
    let other := fun (y : StookIn) => decide (y.kind ≠ 0 ∧ y.tile = x.tile)
    let n := ((windowAt g lam).arrived.filter other).length
    let s := modWindow s gid lam (fun w => { w with arrived := w.arrived.filter (fun y => !other y) ++ [x] })
    let s := if x.gleaner then bump s 0xA590 (gid + 1) 1 else s
    landResults (discardCopies s n) gid lam

/-- A tile whose header fails R216 is refused: it is counted in `OD A580:07` and faults its job, as R303 has it of a contribution
(log entry 72). -/
def refuseTileIn (s : State) (g : Group) : State := programFault (bump s 0xA580 7 1) g.job

/-- A STOOK message reaches the Stook unit: a copy is taken, waits for its deadline or is discarded (R314, R315). -/
def stookDeliver (s : State) (gid lam : Nat) (x : StookIn) : State :=
  match groupAt s gid with
  | none => s
  | some g =>
    if (jobOf s g.job).st ≠ 2 then s
    else if windowOver g lam then discardCopies s 1
    else
      let w := windowAt g lam
      let gone := if x.kind = 0 then w.taken.elem x.tile
        else w.results.elem x.tile
          || w.arrived.any (fun y => decide (y.tile = x.tile ∧ y.kind ≠ 0) && (!y.gleaner || lateIn g w y))
      if gone then discardCopies s 1
      else if x.gleaner && !lateIn g w x then
        (if g.cfg.dl = 0 then discardCopies s 1 else modWindow s gid lam (fun w => { w with arrived := w.arrived ++ [x] }))
      else if (hdrReason (x.bytes.take 64)).isSome then refuseTileIn s g
      else if x.kind = 0 then takeSum s gid lam x
      else takeResult s gid lam x

/-- Tiles of a group in progress at this member: those taken and not handled (R310). -/
def inProgress (g : Group) : Nat :=
  (g.windows.map (fun w => (w.arrived.filter (fun x => !x.gleaner || lateIn g w x)).length)).sum

/-- Whether a STOOK message may leave the receive buffer: the Stook layer runs, the group is open, and it holds fewer than 64
tiles (R310, R312). One that comes before the job runs here waits, as a peer may be ahead (R346), and so does one of the replay,
after this member has said that it is quiescent; what comes before that is of the abandoned attempt (R328). -/
def stookRoom (s : State) (m : StookMsg) : Bool :=
  match groupAt s m.gid.val with
  | none => !(upto 4).any (fun i => decide ((jobAt s i).st = 1))
  | some g =>
    let st := (jobOf s g.job).st
    if st = 1 then false
    else if st = 2 then running s 0x50 && decide (inProgress g < 64)
    else !(decide (st = 3) && s.stook.quiet)

/-- STOOK messages leave the receive buffer in the order of their VC, as far as they may, and their slots are free. -/
def kickArrivals (s : State) : State :=
  (s.links.stookIn.foldl (fun (r : State × List (Nat × Nat)) q =>
    let m := q.2.2.2.2
    if r.2.elem (q.1, q.2.2.1) then r
    else if !stookRoom r.1 m then (r.1, r.2 ++ [(q.1, q.2.2.1)])
    else
      let l := r.1.links
      let s := freeSlots { r.1 with links := { l with stookIn := l.stookIn.erase q } } q.1 (2 * q.2.2.1) q.2.2.2.1
      (stookDeliver s m.gid.val m.window
        { tile := m.tile, kind := m.kind.toNat, gleaner := m.gleaner, bytes := m.bytes, port := q.1 }, r.2)) (s, [])).1

/-- The deadlines of a window that have fallen: copies of Gleaners that wait are taken, where the primary's has not come; the
header of each is checked as it is taken (R10). -/
def passDeadline (s : State) (gid lam : Nat) : State :=
  match groupAt s gid with
  | none => s
  | some g =>
    let w := windowAt g lam
    let due := dueTimers s g w
    if due.isEmpty then s
    else
      let copies := w.arrived.filter (fun x => x.gleaner
        && due.elem (senderPos g.cfg (groupPos g) x.kind x.tile) && !(decide (x.kind = 0) && w.taken.elem x.tile))
      let bad := copies.filter (fun x => (hdrReason (x.bytes.take 64)).isSome)
      let s := modWindow s gid lam (fun w => { w with
        late := w.late ++ due, arrived := w.arrived.filter (fun x => !bad.elem x) })
      let s := bad.foldl (fun s _ => refuseTileIn s g) s
      (copies.filter (fun x => !bad.elem x)).foldl (fun s x =>
        if x.kind ≠ 0 then landResults (bump s 0xA590 (gid + 1) 1) gid lam
        else match groupAt s gid with
        | some g => if (windowAt g lam).taken.elem x.tile then s else takeSum s gid lam x
        | none => s) s

/-- GLEANER_DEADLINE: DL port clocks have passed since a window of the group opened here: from now on it takes whichever copy of a
tile comes first (R314). -/
def execGleanerDeadline (gid : Fin 13) (s : State) : Answer :=
  match groupAt s gid.val with
  | none => .next s
  | some g => .next ((g.windows.filter (·.opened)).foldl (fun s w => passDeadline s gid.val w.lam) s)

/-! ## Additions (R303, R305, R306) -/

/-- A tile of rows × cols entries (s, e), by row. -/
abbrev Entries := List (List (Word32 × Word32))

/-- Reads rows of n values of a travelling tile. -/
def tileVals (b : List Byte) (rows cols : Nat) : List (List FV) :=
  let h := Hdr.parse b
  (upto rows).map (fun r => tileRow (fun a n => (b.drop a).take n) 0 h r cols)

/-- Values two by two, as pairs. -/
def pairsOf : List FV → List (Word32 × Word32)
  | a :: b :: l => (rn32 a, rn32 b) :: pairsOf l
  | _ => []

/-- The entries an arriving running sum starts from (R306). -/
def arrivingEntries (c : GroupRec) (b : List Byte) : Entries :=
  if c.tpair then (tileVals b c.rows (2 * c.cols)).map pairsOf
  else (tileVals b c.rows c.cols).map (fun r => r.map (fun v => (rn32 v, 0)))

def zeroEntries (c : GroupRec) : Entries := List.replicate c.rows (List.replicate c.cols (0, 0))

/-- One element's addition: every part of the contribution in turn, with saturations and NaNs met. -/
def addParts (x : Word32 × Word32) (parts : List FV) : (Word32 × Word32) × Nat × Nat :=
  parts.foldl (fun r p =>
    let a := addEc r.1.1 r.1.2 p
    ((a.s, a.e), r.2.1 + boolNat a.sat, r.2.2 + boolNat a.becameNan)) (x, 0, 0)

/-- The parts of a contribution row: pairs, or single values, a too large one saturated and counted (R303). -/
def contribRow (c : GroupRec) (l : List FV) : List (List FV) × Nat :=
  if c.cpair then ((pairsOf l).map (fun p => [val32 p.1, val32 p.2]), 0)
  else
    let ws := l.map widen32
    (ws.map (fun w => [val32 w.1]), (ws.filter (·.2)).length)

/-- Adds a contribution tile to entries, counting what R305 counts. -/
def addTile (s : State) (c : GroupRec) (x : Entries) (contrib : List (List FV)) : State × Entries :=
  let r := (x.zip contrib).foldl (fun (acc : Entries × Nat × Nat) p =>
    let k := contribRow c p.2
    let row := (p.1.zip k.1).map (fun q => addParts q.1 q.2)
    (acc.1 ++ [row.map (·.1)], acc.2.1 + k.2 + (row.map (·.2.1)).sum, acc.2.2 + (row.map (·.2.2)).sum)) ([], 0, 0)
  let s := if r.2.1 = 0 then s else bump s 0xA580 5 r.2.1
  let s := if r.2.2 = 0 then s else bump s 0xA580 6 r.2.2
  (s, r.1)

/-- The final values v = rn32(s + e) of entries (R306, R307). -/
def finalRow (r : List (Word32 × Word32)) : List Word32 := r.map (fun p => rn32 ((val32 p.1).add (val32 p.2)))

def pairRow (r : List (Word32 × Word32)) : List Word32 := (r.map (fun p => [p.1, p.2])).flatten

/-- The tile a position sends on (R306). -/
def transport (s : State) (g : Group) (lam t k : Nat) (x : Entries) : State × List Byte :=
  let c := g.cfg
  if c.tpair then (s, wordsTile [] (x.map pairRow) (2 * c.cols))
  else if c.tfmt = 0 then (s, wordsTile [] (x.map finalRow) c.cols)
  else
    let key := (c.keyb + (lam * c.tiles + t) * c.p + k) % 2 ^ 32
    let cv : Conv := { fmt := c.tfmt, cls := 4, rnd := 0, t := 0, key := BitVec.ofNat 32 key, room := 0 }
    let o := convertOp s none g.job cv (x.map (fun r => (finalRow r).map val32)) c.cols (2 ^ 32) 0
    (bump o.state 0xA580 3 1, tileBytes (newHdr [] o.out.fmt c.tfmt 4 c.rows c.cols 0 0) o.out)

/-- The norm pair of a result tile (R316). -/
def normPair (x : Entries) : Word32 × Word32 :=
  (x.map finalRow).flatten.foldl (fun a v =>
    let r := addEc a.1 a.2 (val32 (fmul v v))
    (r.s, r.e)) (0, 0)

/-- The bytes of the owner's result. -/
def ownerBytes (s : State) (g : Group) (lam t : Nat) (x : Entries) : List Byte :=
  let c := g.cfg
  let old := gran s (resultAddr c lam t) 64
  if c.rout then wordsTile old (x.map pairRow) (2 * c.cols) else wordsTile old (x.map finalRow) c.cols

/-- The result of the owner: written, kept for the norm, and sent to the other positions of a KIND 1 group. -/
def ownerResult (s : State) (src : Nat) (g : Group) (lam t : Nat) (x : Entries) : State :=
  let c := g.cfg
  let b := ownerBytes s g lam t x
  let r := writeResult s src g lam t b
  let n := if c.norm ∧ g.primary.isSome then [(t, normPair x)] else []
  let s := modWindow r.1 c.gid lam (fun w => { w with results := w.results ++ [t], norms := w.norms ++ n })
  let s := if c.kind = 1 then
      (upto (c.p - 1)).foldl (fun s k => sendTile s g ((tileOwner c t + (k + 1) * tileStep c t) % c.p) lam t 1 b) s
    else s
  if r.2 then unitError s g.job else s

/-- A contribution slot's header check (R303). -/
def contribBad (c : GroupRec) (b : List Byte) : Bool :=
  let h := Hdr.parse b
  (hdrReason b).isSome || decide (h.layout ≠ 0 ∨ h.fmt = 0xE ∨ h.rows ≠ c.rows ∨ c.slotb < h.size)
    || (if c.cpair then decide (h.fmt ≠ 0 ∨ h.cols ≠ 2 * c.cols) else decide (h.cols ≠ c.cols))

/-- What reading this member's contribution gives. -/
inductive Contrib where
  | none
  | tile (bytes : List Byte)
  | wait (s : State)
  | bad (s : State)
  | refused
  deriving DecidableEq, Repr

def readContrib (s : State) (src : Nat) (g : Group) (lam t : Nat) (posted : Bool) : Contrib :=
  let c := g.cfg
  let a := contribAddr c lam t
  if !posted then .none
  else match localRead s src a 64 with
    | .ok hb =>
      if contribBad c hb then .refused
      else match localRead s src a (Hdr.parse hb).size with
        | .ok b => .tile b
        | .wait s => .wait s
        | .bad s => .bad s
        | _ => .none
    | .wait s => .wait s
    | .bad s => .bad s
    | _ => .none

/-- The window in which tile t can be handled now, with the sum that has arrived for it. -/
def readyWindow (g : Group) (t : Nat) : Option (Window × Option StookIn) :=
  let first := decide (chainIndex g.cfg t (groupPos g) = 1)
  g.windows.findSome? (fun w =>
    let sum := w.arrived.find? (fun x => decide (x.kind = 0 ∧ x.tile = t) && w.taken.elem t)
    if w.opened && !w.handled.elem t && (w.posted.elem t || w.marker) && (first || sum.isSome) then some (w, sum) else none)

/-- A KIND 2 tile that its owner has posted goes into its result slot and on its way (R307). -/
def passGather (s : State) (g : Group) (w : Window) (t : Nat) : State :=
  let src := egressSrc s g (nextPos g.cfg t (groupPos g))
  match readContrib s src g w.lam t (w.posted.elem t) with
  | .tile b =>
    let q := resultRoom s src g w.lam t b
    if !q.2 then q.1
    else
      let r := writeResult (entered q.1 src (contribAddr g.cfg w.lam t) b.length) src g w.lam t b
      let s := modWindow r.1 g.cfg.gid w.lam (fun w => { w with
        read := w.read ++ [t], results := w.results ++ [t], handled := w.handled ++ [t] })
      let s := if g.cfg.p = 1 then s else sendTile s g (nextPos g.cfg t (groupPos g)) w.lam t 2 b
      let s := progress s g.job
      if r.2 then unitError s g.job else s
  | .wait s => s
  | .bad s => unitError s g.job
  | .refused => refuseTileIn s g
  | .none => s

/-- The entries of tile t before this member's contribution. -/
def startEntries (c : GroupRec) (sum : Option StookIn) : Entries :=
  match sum with
  | some x => arrivingEntries c x.bytes
  | none => zeroEntries c

/-- Where the sum of tile t goes from this member's position: into its result, or to the next position (R306, R307). `add` makes
the addition, and counts it. -/
def passOn (s : State) (src : Nat) (g : Group) (w : Window) (t : Nat) (add : State → State × Entries) : State :=
  let c := g.cfg
  let q := groupPos g
  let k := chainIndex c t q
  let posted := w.posted.elem t
  let finish := fun (s : State) => progress (modWindow s c.gid w.lam (fun w => { w with
    handled := w.handled ++ [t], read := if posted then w.read ++ [t] else w.read,
    arrived := w.arrived.filter (fun x => decide (x.kind ≠ 0 ∨ x.tile ≠ t)) })) g.job
  if k = c.p then
    let m := resultRoom s src g w.lam t (ownerBytes s g w.lam t (add s).2)
    if !m.2 then m.1
    else
      let r := add m.1
      finish (ownerResult r.1 src g w.lam t r.2)
  else
    let r := add s
    let x := transport r.1 g w.lam t k r.2
    finish (sendTile x.1 g (nextPos c t q) w.lam t 0 x.2)

/-- The addition of tile t at this member's position, by the Stook unit of the port on which the sum came, or of the egress port at
the first position (R299). -/
def addStep (s : State) (g : Group) (w : Window) (sum : Option StookIn) (t : Nat) : State :=
  let c := g.cfg
  let src := match sum with
    | some x => stookSrc x.port
    | none => egressSrc s g (nextPos c t (groupPos g))
  match readContrib s src g w.lam t (w.posted.elem t) with
    | .none => passOn s src g w t (fun s => (s, startEntries c sum))
    | .tile b =>
      passOn s src g w t (fun s =>
        let r := addTile s c (startEntries c sum) (tileVals b c.rows (if c.cpair then 2 * c.cols else c.cols))
        (entered (bump r.1 0xA580 1 1) src (contribAddr c w.lam t) b.length, r.2))
    | .wait s => s
    | .bad s => unitError s g.job
    | .refused => refuseTileIn s g

/-- STOOK_ADD: the Stook unit adds this member's contribution to the tile, or passes a gather tile on. -/
def execStookAdd (gid : Fin 13) (tile : Nat) (s : State) : Answer :=
  match groupAt s gid.val with
  | none => .next s
  | some g =>
    if !stookOn s g.job || decide (g.cfg.tiles ≤ tile) then .next s
    else if g.cfg.kind = 2 then
      match g.windows.find? (fun w => w.opened && w.posted.elem tile && !w.handled.elem tile) with
      | some w => .next (passGather s g w tile)
      | none => .next s
    else match readyWindow g tile with
      | some (w, sum) => .next (addStep s g w sum tile)
      | none => .next s

/-! ## Stopping (R312, Table 12-8) -/

/-- A tile that this member can handle now: its sum or its post is in. -/
def tileReady (g : Group) (t : Nat) : Bool :=
  if g.cfg.kind = 2 then g.windows.any (fun w => w.opened && w.posted.elem t && !w.handled.elem t)
  else (readyWindow g t).isSome

/-- The Stook layer still has tiles to add, to send or to write. -/
def stookBusy (s : State) : Bool :=
  s.stook.groups.any (fun g => decide ((jobOf s g.job).st = 2)
    && ((upto g.cfg.tiles).any (tileReady g)
      || g.windows.any (fun w => w.opened
        && (w.arrived.any (fun x => decide (x.kind ≠ 0) && (!x.gleaner || lateIn g w x))
          || (retainedBack g.cfg w.lam && w.marker && !w.done && decide (w.results.length < g.cfg.tiles))))))

/-! ## The end of a window (R308) -/

/-- Whether DSEM of a window is due. -/
def windowDone (g : Group) (w : Window) : Bool :=
  w.opened && !w.done && w.marker && w.posted.all (fun t => w.read.elem t)
    && (upto g.cfg.tiles).all (fun t => !mustWrite g t || w.results.elem t)

/-- The EC sum of pairs, adding s and then e of each. -/
def sumPairs (a : Word32 × Word32) (l : List (Word32 × Word32)) : Word32 × Word32 :=
  l.foldl (fun a p =>
    let r := addEc a.1 a.2 (val32 p.1)
    let q := addEc r.s r.e (val32 p.2)
    (q.s, q.e)) a

/-- The window's norm partial: its tiles' pairs in ascending tile order (R316). -/
def windowPartial (g : Group) (w : Window) : Word32 × Word32 :=
  sumPairs (0, 0) ((upto g.cfg.tiles).filterMap (fun t => (w.norms.find? (fun p => decide (p.1 = t))).map (·.2)))

/-- Windows whose DSEM is signalled and whose tiles are all handled are over. -/
def reapWindows (g : Group) : Group :=
  { g with windows := g.windows.filter (fun w => !w.done || decide (w.handled.length < g.cfg.tiles ∧ g.cfg.kind ≠ 2)) }

/-- DSEM_SIGNAL: the oldest window that is done signals DSEM; held posts act. -/
def execDsemSignal (gid : Fin 13) (s : State) : Answer :=
  match groupAt s gid.val with
  | none => .next s
  | some g =>
    match g.windows.find? (windowDone g) with
    | none => .next s
    | some w =>
      if !stookOn s g.job || s.held.any (fun h => decide (h.source = srcStook ∨ h.source = srcStookB)) then .next s
      else
        let parts := if g.cfg.norm ∧ g.primary.isSome then [(w.lam, windowPartial g w)] else []
        let g' := setWindow { g with partials := g.partials ++ parts } { w with done := true }
        let s := setGroup s (reapWindows g')
        let s := sendSignal (unclaimSem s g.cfg.dsem (5, gid.val, w.lam)) .engine g.cfg.dsem 1 0 g.job
        .next (kickPosts s gid.val)

/-- Windows that are over go after a tile has been handled. -/
def reapGroup (s : State) (gid : Nat) : State :=
  match groupAt s gid with
  | some g => setGroup s (reapWindows g)
  | none => s

/-- Posts, copies, results and gather tiles that waited for the Stook layer act, and then what waits in the ports' credits
(R312). -/
def kickStook (s : State) : State :=
  kickArrivals (s.stook.groups.foldl (fun s g =>
    let s := kickPosts s g.cfg.gid
    let s := g.windows.foldl (fun s w => fillRetained s g.cfg.gid w.lam) s
    reapGroup (g.windows.foldl (fun s w => landResults s g.cfg.gid w.lam) s) g.cfg.gid) s)

end Sys2Proof.Machine
end

