-- ==== Sys2Proof/Machine/Manifest.lean ====
section
/-! DEFINITION. Job manifests (R163, R296, R297, R325, R332 to R334, R344, R345): their fields and records, and the
checks of admission in the order of Table 11-5. -/
namespace Sys2Proof.Machine

/-- Bits hi to lo of a little-endian block. -/
def bitsOf (b : List Byte) (hi lo : Nat) : Nat := field (leNat b) lo (hi + 1 - lo)

/-- Bits of a 512-byte manifest header (Table 11-3). -/
structure MHead where
  crec : Nat
  nslc : Nat
  hslc : Nat
  nhead : Nat
  nlay : Nat
  nstg : Nat
  stg : Nat
  expn : Nat
  expt : Nat
  wprl : Nat
  awnb : Nat
  wpn : Nat
  awnn : Nat
  rgn : Nat
  ahead : Nat
  cred : Nat
  sown : Nat
  sowb : Nat
  step : Nat
  rgrp : Nat
  seqg : Nat
  mlst : Nat
  fcl : Nat
  fcn : Nat
  ttn : Nat
  ttb : Nat
  tset : Nat
  args : Nat
  ahop : Nat
  alen : Nat
  plen : Nat
  prog : Nat
  afts : Nat
  plim : Nat
  seed : Nat
  mvc : Nat
  aftt : Nat
  seedv : Bool
  sfp : Nat
  fact : Nat
  span : Nat
  job : Nat
  size : Nat
  ver : Nat
  magic : Nat
  deriving DecidableEq, Repr

def MHead.parse (b : List Byte) : MHead :=
  let f := bitsOf b
  { crec := f 1663 1600, nslc := f 1543 1536, hslc := f 1535 1528, nhead := f 1527 1520, nlay := f 1519 1504,
    nstg := f 1503 1496, stg := f 1495 1488, expn := f 1487 1472, expt := f 1471 1408, wprl := f 1407 1344,
    awnb := f 1343 1280, wpn := f 1237 1233, awnn := f 1232 1224, rgn := f 1223 1220, ahead := f 1219 1216,
    cred := f 1215 1184, sown := f 1183 1152, sowb := f 1151 1088, step := f 1087 1024, rgrp := f 1023 960,
    seqg := f 959 896, mlst := f 895 832, fcl := f 831 768, fcn := f 751 736, ttn := f 735 704, ttb := f 703 640,
    tset := f 511 448, args := f 447 384, ahop := f 383 352, alen := f 351 336, plen := f 335 320, prog := f 319 256,
    afts := f 229 224, plim := f 223 192, seed := f 191 128, mvc := f 127 124, aftt := f 123 120,
    seedv := decide (f 116 116 = 1), sfp := f 115 114, fact := f 113 112, span := f 111 96, job := f 95 64,
    size := f 63 32, ver := f 31 16, magic := f 15 0 }

/-- Named threads and their entry word addresses. -/
def manEntries (b : List Byte) : List (Nat × Nat) :=
  (upto 8).filterMap (fun t =>
    let w := bitsOf b (527 + 16 * t) (512 + 16 * t)
    if w = 0xFFFF then none else some (t, w))

/-- Tillers that the set at TSET names; a pointer of zero means that the section is absent (R344). -/
def tsetOf (s : State) (a : Nat) : List Nat :=
  let w := if a = 0 then 0 else granLe s a 128
  allTil.filter (fun id => bitAt w (128 * (id / 256) + id % 256))

/-- Entry i of a section of n-byte entries. -/
def sectionAt (s : State) (a n i : Nat) : Nat := granLe s (a + n * i) n

def moduleList (s : State) (h : MHead) : List Nat :=
  if h.mlst = 0 then [] else (upto h.span).map (sectionAt s h.mlst 2)

/-- The entries of a counted section; none where its pointer is zero. -/
def entriesOf (s : State) (a n size : Nat) : List Nat := if a = 0 then [] else (upto n).map (sectionAt s a size)

def furrowList (s : State) (h : MHead) : List Nat := entriesOf s h.fcl h.fcn 16
def expertList (s : State) (h : MHead) : List Nat := entriesOf s h.expt h.expn 8
def regionList (s : State) (h : MHead) : List (Nat × Nat) :=
  (entriesOf s h.wprl h.wpn 16).map (fun w => (field w 0 64, field w 64 64))

/-- Translation entries of a table as a map of the ones that are not zero. -/
def readTable (s : State) (ttb ttn : Nat) : KV Nat :=
  if ttb = 0 then [] else foldUpto ttn [] (fun m i => kvSet 0 m i (sectionAt s ttb 16 i))

/-! ## Reduction-group records (Table 10-1) -/

def groupBlock (s : State) (h : MHead) (i : Nat) : List Byte := gran s (h.rgrp + 64 * i) 64

def GroupRec.parse (b : List Byte) : GroupRec :=
  let f := bitsOf b
  let steps := (upto 4).map (fun i => f (86 + 15 * i) (72 + 15 * i))
  { gid := f 3 0, kind := f 10 9, p := f 71 57, steps := steps.take (f 13 12 + 1), tiles := f 223 208, slotb := f 319 288,
    rbase := f 447 384, cbase := f 383 320, mlist := f 511 448, dl := f 287 256, keyb := f 255 224, retm := f 207 192,
    nl := f 191 176, dsem := f 56 37, rows := f 36 30 + 1, cols := f 29 22 + 1, vc := f 21 18, tfmt := f 17 14,
    tpair := decide (f 8 8 = 1), cpair := decide (f 7 7 = 1), rout := decide (f 6 6 = 1), norm := decide (f 5 5 = 1),
    ret := decide (f 4 4 = 1) }

/-- Entries of a member list as they stand. -/
def memberWords (s : State) (c : GroupRec) : List Nat := (upto c.p).map (sectionAt s c.mlist 4)

def membersOf (s : State) (c : GroupRec) : List (Nat × Nat) :=
  (memberWords s c).map (fun w => (field w 0 15, field w 16 15))

/-- Formats that a contribution may have (R303): FP32 alone in pair form, else every one but 0xE and 0xF. -/
def contribFormats (c : GroupRec) : List Nat := if c.cpair then [0] else upto 14

/-- Bytes of the largest tile the record's formats allow in a slot: a contribution of any format, or a result. -/
def largestTile (c : GroupRec) : Nat :=
  (contribFormats c).foldl (fun n f => max n (outSize f c.rows (if c.cpair then 2 * c.cols else c.cols)))
    (outSize 0 c.rows (if c.rout then 2 * c.cols else c.cols))

/-- Table 10-1's own rules and R10, on a record's bytes. -/
def groupShape (b : List Byte) (c : GroupRec) : Bool :=
  let f := bitsOf b
  decide (f 175 132 = 0 ∧ f 11 11 = 0 ∧ c.mlist % 64 = 0 ∧ c.slotb % 64 = 0 ∧ 1 ≤ c.tiles ∧ c.tiles ≤ 64512 ∧ 1 ≤ c.p
    ∧ c.p ≤ 24576 ∧ c.gid ≤ 12 ∧ c.vc ≤ 13 ∧ c.kind ≤ 2)
  && semOk c.dsem
  && (upto 4).all (fun i => decide (i < c.steps.length ∨ f (86 + 15 * i) (72 + 15 * i) = 0))
  && decide (c.tfmt ∈ [0x0, 0x1, 0x6, 0xB, 0xD])
  && (!(c.tpair || decide (c.kind = 2)) || decide (c.tfmt = 0))
  && (decide (c.kind = 2) || !c.ret) && (c.ret || decide (c.retm = 0 ∧ c.nl = 0))
  && (decide (c.kind ≠ 2) || (!c.norm && !c.rout))

/-- R297 for one record of module `me`. -/
def groupOk (s : State) (h : MHead) (b : List Byte) (c : GroupRec) (seqVc : Option Nat) : Bool :=
  let ms := membersOf s c
  let names := ms.map (·.1) ++ (ms.map (·.2)).filter (fun m => decide (m ≠ 0x7FFF))
  let slots := 2 * c.tiles * c.slotb
  let results := (2 + retained c) * c.tiles * c.slotb
  groupShape b c
  && decide (c.vc ≠ h.mvc ∧ some c.vc ≠ seqVc)
  && (memberWords s c).all (fun w => !bitAt w 15 && !bitAt w 31)
  && decide ((names.filter (fun m => decide (m = myId s))).length = 1) && decide ((dedup names).length = names.length)
  && (if c.p = 1 then c.steps.all (fun d => decide (d = 0))
      else c.steps.all (fun d => decide (0 < d ∧ d < c.p ∧ Nat.gcd d c.p = 1)))
  && decide (largestTile c ≤ c.slotb)
  && gaOk c.cbase slots && gaOk c.rbase results

def groupRecs (s : State) (h : MHead) : List (List Byte × GroupRec) :=
  (if h.rgrp = 0 then [] else upto h.rgn).map (fun i => let b := groupBlock s h i; (b, GroupRec.parse b))

/-! ## Sequence-group and step records (Tables 05-4, 10-2, 10-3) -/

def seqBlock (s : State) (h : MHead) : List Byte := gran s h.seqg 64

def seqVcOf (s : State) (h : MHead) : Option Nat := if h.seqg = 0 then none else some (bitsOf (seqBlock s h) 31 24)

def seqMembers (b : List Byte) : List Nat := (upto (bitsOf b 7 0)).map (fun p => bitsOf b (135 + 8 * p) (128 + 8 * p))

/-- The Rotation engine as a record opens it. -/
def rotOf (s : State) (b : List Byte) (job : Nat) : Rotation :=
  let f := bitsOf b
  let ms := seqMembers b
  { Rotation.reset with
    holder := job, g := f 7 0, mode := f 15 8, slots := f 23 16, slotb := f 63 32, base := f 127 64, vc := f 31 24,
    acre := f 393 384, members := ms, lead := f 415 400, lsem := f 421 416,
    pos := ((upto ms.length).find? (fun p => decide (32 * f 393 384 + natAt ms p = myId s))).getD 0 }

def seqOk (s : State) (b : List Byte) : Bool :=
  let f := bitsOf b
  let ms := seqMembers b
  let g := f 7 0
  decide (1 ≤ g ∧ g ≤ 32 ∧ f 15 8 ≤ 1 ∧ 2 ≤ f 23 16 ∧ f 23 16 ≤ 32 ∧ f 31 24 ≤ 13 ∧ f 63 32 % 4096 = 0
    ∧ f 511 422 = 0 ∧ f 399 394 = 0)
  && (upto 32).all (fun p => decide (p < g ∨ f (135 + 8 * p) (128 + 8 * p) = 0))
  && decide ((dedup ms).length = ms.length) && ms.any (fun m => decide (m < 32 ∧ 32 * f 393 384 + m = myId s))
  && gaOk (f 127 64) (f 23 16 * f 63 32) && decide (s.rot.holder = 0)

def StepRec.parse (b : List Byte) : StepRec :=
  let f := bitsOf b
  { naddr := f 511 448, curb := f 447 384, retc := f 383 320, cpl := f 319 256, clip := BitVec.ofNat 32 (f 255 224),
    nsem := f 223 204, csem := f 203 184, ncp := f 183 176, ncur := f 175 168 }

/-- A commit pair: length in pages, shadow and committed job addresses. -/
def commitPair (s : State) (cpl i : Nat) : Nat × Nat × Nat :=
  let w := sectionAt s cpl 32 i
  (field w 128 32, field w 64 64, field w 0 64)

/-- A page that a commit pair may name: KIND 1, and writable where asked (R325). -/
def commitPage (t : KV Nat) (p : Nat) (write : Bool) : Bool :=
  let e := kvGet 0 t p
  decide (xKind e = 1) && (!write || xWrite e)

def pairOk (s : State) (t : KV Nat) (cpl i : Nat) : Bool :=
  let w := sectionAt s cpl 32 i
  let c := commitPair s cpl i
  decide (field w 160 96 = 0 ∧ c.2.1 % 2097152 = 0 ∧ c.2.2 % 2097152 = 0
    ∧ c.2.1 + c.1 * 2097152 ≤ 2 ^ 48 ∧ c.2.2 + c.1 * 2097152 ≤ 2 ^ 48)
  && (upto c.1).all (fun k => commitPage t (c.2.2 / 2097152 + k) false && commitPage t (c.2.1 / 2097152 + k) true)

def stepOk (s : State) (b : List Byte) (t : KV Nat) : Bool :=
  let r := StepRec.parse b
  decide (bitsOf b 167 0 = 0 ∧ r.ncp ≤ 64 ∧ r.ncur ≤ 16) && semOk r.nsem && semOk r.csem
  && decide (s.stook.job = 0) && (upto r.ncp).all (pairOk s t r.cpl)

/-! ## Stages and experts (R332 to R334) -/

/-- First layer and layer count of a stage (R332); without a pipeline, every layer. -/
def stageOf (h : MHead) : Nat × Nat :=
  if h.nstg = 0 then (0, h.nlay)
  else
    let q := h.nlay / h.nstg
    let r := h.nlay % h.nstg
    let plain := h.nstg - r
    (h.stg * q + (h.stg - plain), if h.stg < plain then q else q + 1)

/-- First head and head count of a head slice (R333); without slices, every head. -/
def headsOf (h : MHead) : Nat × Nat :=
  if h.nslc = 0 then (0, h.nhead)
  else
    let q := h.nhead / h.nslc
    let r := h.nhead % h.nslc
    (h.hslc * q + min h.hslc r, if h.hslc < r then q + 1 else q)

/-- The stage and the slice lie below their counts. -/
def stageOk (h : MHead) : Bool :=
  (if h.nstg = 0 then decide (h.stg = 0) else decide (h.stg < h.nstg))
  && (if h.nslc = 0 then decide (h.hslc = 0) else decide (h.hslc < h.nslc))

/-- The expert table names every expert of every layer of the stage, none twice, and each in a module of the job (R334). The
experts of a layer are those the table names for any layer (log entry 75). -/
def expertsOk (s : State) (h : MHead) (mods : List Nat) : Bool :=
  let ws := expertList s h
  let keys := ws.map (fun w => field w 0 32)
  let most := ws.foldl (fun n w => max n (field w 16 16 + 1)) 0
  let stage := stageOf h
  let layers := dedup (ws.map (fun w => field w 0 16) ++ (upto stage.2).map (stage.1 + ·))
  (decide (h.expt ≠ 0) || decide (h.expn = 0))
  && ws.all (fun w => mods.elem (field w 32 15))
  && (ws.isEmpty || layers.all (fun l => (upto most).all (fun e => keys.elem (l + 65536 * e))))
  && decide ((dedup keys).length = keys.length)

/-- The position, among the n modules of a stage, of an expert that no table places (R334). -/
def defaultPosition (e n : Nat) : Nat := e % n

/-- The module of an expert of a layer: the table's, or the default position's among the stage's modules. -/
def expertModule (s : State) (h : MHead) (stage : List Nat) (layer e : Nat) : Option Nat :=
  let ws := expertList s h
  if ws.isEmpty then stage[defaultPosition e stage.length]?
  else (ws.find? (fun w => decide (field w 0 32 = layer + 65536 * e))).map (fun w => field w 32 15)

/-! ## Table 11-5 -/

/-- Reserved bits and ranges of Tables 11-3 and 11-4 (code 0x02). -/
def manShape (s : State) (b : List Byte) (h : MHead) : Bool :=
  let f := bitsOf b
  let t := if h.tset = 0 then 0 else granLe s h.tset 128
  decide (f 4095 1664 = 0 ∧ f 1599 1544 = 0 ∧ f 1279 1238 = 0 ∧ f 767 752 = 0 ∧ f 255 230 = 0 ∧ f 119 117 = 0)
  && decide (1 ≤ h.job ∧ h.job ≤ 0xFFFFFFFE ∧ 1 ≤ h.span ∧ h.span ≤ 24576 ∧ h.fact ≤ 1 ∧ h.sfp ≤ 2
    ∧ (h.aftt ≤ 7 ∨ h.aftt = 15) ∧ h.mvc ≤ 13 ∧ 1 ≤ h.plim ∧ h.plim ≤ 3600000 ∧ 1 ≤ h.plen ∧ h.plen ≤ 1024
    ∧ h.alen ≤ 16384 ∧ h.fcn ≤ 1088 ∧ h.sown ≤ 65536 ∧ h.rgn ≤ 13 ∧ h.awnn ≤ 256 ∧ h.wpn ≤ 16)
  && (upto 8).all (fun i => decide (field t (128 * i + 88) 40 = 0))
  && (let l := moduleList s h
      l.all (fun m => decide (m < 32768)) && (upto (l.length - 1)).all (fun i => decide (natAt l i < natAt l (i + 1))))
  && (furrowList s h).all (fun w => decide (field w 96 32 = 0 ∧ field w 18 14 = 0))
  && (expertList s h).all (fun w => decide (w < 2 ^ 47))

/-- Every address field of the manifest with the bytes it names. A pointer of zero means an absent section (R344). -/
def manSpans (h : MHead) : List (Nat × Nat) :=
  [(h.prog, 64 * h.plen), (h.args, 64 * h.alen), (h.tset, 128), (h.ttb, 16 * h.ttn), (h.fcl, 16 * h.fcn), (h.mlst, 2 * h.span),
   (h.seqg, 64), (h.rgrp, 64 * h.rgn), (h.step, 64), (h.sowb, 32 * h.sown), (h.awnb, 128 * h.awnn), (h.wprl, 16 * h.wpn),
   (h.expt, 8 * h.expn), (h.crec, 64)].filter (fun p => decide (p.1 ≠ 0))

/-- Address fields of the records. -/
def recSpans (s : State) (h : MHead) : List (Nat × Nat) :=
  (if h.seqg = 0 then [] else [(bitsOf (seqBlock s h) 127 64, 64)])
  ++ (groupRecs s h).flatMap (fun r => [(r.2.mlist, 4 * r.2.p), (r.2.rbase, 64), (r.2.cbase, 64)])
  ++ (if h.step = 0 then [] else
      let r := StepRec.parse (gran s h.step 64)
      [(r.naddr, 64), (r.curb, 8 * r.ncur), (r.retc, 8 * r.ncur), (r.cpl, 32 * r.ncp)])

/-- Addresses in Granary, multiples of 64, the program and the arguments present, the argument block in the Hopper, and
every section readable (code 0x05). A count without its section fails the check of that section. -/
def manAddrs (s : State) (ga : Nat) (h : MHead) : Bool :=
  (manSpans h ++ recSpans s h).all (fun p => decide (p.1 % 64 = 0) && gaOk p.1 p.2)
  && decide (h.prog ≠ 0 ∧ (h.args = 0 → h.alen = 0) ∧ h.ahop % 64 = 0 ∧ h.ahop + 64 * h.alen ≤ 8388608)
  && ((ga, 512) :: manSpans h ++ recSpans s h).all (fun p => (badIn s p.1 p.2).isEmpty)

/-- Furrow list (code 0x06). -/
def furrowsOk (s : State) (h : MHead) : Bool :=
  (decide (h.fcl ≠ 0) || decide (h.fcn = 0)) && (furrowList s h).all (fun w =>
    (match furName (field w 0 16) with
      | some (d, n) => decide ((furrow s d n).job = 0)
      | none => false)
    && (!bitAt w 17 || decide (field w 64 32 + 2 ≤ 64 * h.alen)))

/-- VCs a manifest uses. -/
def vcsOf (s : State) (h : MHead) : List Nat :=
  h.mvc :: (match seqVcOf s h with | some v => [v] | none => []) ++ (groupRecs s h).map (·.2.vc)

/-- VCs of the other admitted jobs: those whose slot has not been freed. -/
def vcsInUse (s : State) : List Nat :=
  (upto 4).flatMap (fun i => if (jobAt s i).st = 0 then [] else (jobAt s i).man.vcs)

/-- Reduction groups (code 0x08). -/
def groupsOk (s : State) (h : MHead) : Bool :=
  let rs := groupRecs s h
  (decide (h.rgrp ≠ 0) || decide (h.rgn = 0)) && rs.all (fun r => groupOk s h r.1 r.2 (seqVcOf s h))
  && decide ((dedup (rs.map (·.2.gid))).length = rs.length ∧ (dedup (rs.map (·.2.vc))).length = rs.length)
  && (rs.isEmpty || decide (s.stook.job = 0)) && (vcsOf s h).all (fun v => !(vcsInUse s).elem v)

/-- One translation entry (code 0x0E). -/
def entryOk (s : State) (e : Nat) : Bool :=
  let k := xKind e
  decide (field e 39 7 = 0 ∧ field e 0 21 = 0) && (decide (k = 3) || decide (xModule e = 0))
  && (if k = 2 then decide (xBarn e % 2097152 = 0) && decide (barnPorts s (xBarn e) ≠ 0) else decide (xBarn e = 0))
  && (decide (k = 0) || !hitsReserved (xFrame e) 2097152)

/-- The spans that admission reads. -/
def admitReads (s : State) (ga : Nat) : List (Nat × Nat) :=
  let h := MHead.parse (gran s ga 512)
  (ga, 512) :: (manSpans h ++ recSpans s h)

/-- The result of the checks of admission, in the order of Table 11-5; before step 11 of start-up it is 0x0F (R465). What cannot be
read, because a sector is uncorrectable, fails the check that needs it first: 0x01 for the manifest, 0x02 for a section of it (DESIGN
CHOICE, log entry 77). -/
def admitCheck (s : State) (ga : Nat) : Nat :=
  let b := gran s ga 512
  let h := MHead.parse b
  let tills := tsetOf s h.tset
  let mods := moduleList s h
  let regions := regionList s h
  (firstOf [
    failIf (decide (s.board.step < 11)) 0x0F,
    failIf (decide (ga % 64 ≠ 0) || !gaOk ga 512) 0x05,
    failIf (!(badIn s ga 512).isEmpty) 0x01,
    failIf (decide (h.magic ≠ 0x4D46 ∨ h.ver ≠ 1 ∨ h.size % 64 ≠ 0 ∨ h.size < 512)) 0x01,
    failIf (!manShape s b h || (admitReads s ga).any (fun p => !(badIn s p.1 p.2).isEmpty)) 0x02,
    failIf ((slotOf s h.job).isSome || (upto 4).all (fun i => decide ((jobAt s i).st ≠ 0))) 0x03,
    failIf (tills.any (fun id => !enabled s id || !fieldOn s (id / 256) || decide ((tilAt s id).job ≠ 0))
      || (manEntries b).isEmpty) 0x04,
    failIf (!manAddrs s ga h) 0x05,
    failIf (!furrowsOk s h) 0x06,
    failIf (decide (h.seqg ≠ 0) && !seqOk s (seqBlock s h)) 0x07,
    failIf (!groupsOk s h) 0x08,
    failIf (decide (h.step ≠ 0) && !stepOk s (gran s h.step 64) (readTable s h.ttb h.ttn)) 0x09,
    failIf (decide ((h.sowb = 0 ∧ h.sown ≠ 0) ∨ (h.awnb = 0 ∧ h.awnn ≠ 0) ∨ (h.wprl = 0 ∧ h.wpn ≠ 0))
      || (decide (h.sown ≠ 0 ∧ s.sowing.holder ≠ 0)) || (decide (h.awnn ≠ 0 ∧ s.awn.holder ≠ 0))
      || regions.any (fun r => decide (r.1 % 64 ≠ 0 ∨ r.2 % 64 ≠ 0) || !gaOk r.1 r.2)) 0x0A,
    failIf (decide (h.awnn ≠ 0) && !running s 0x30) 0x0B,
    failIf (!stageOk h || !expertsOk s h (if mods.isEmpty then [myId s] else mods)) 0x0C,
    failIf (decide (1 < h.span) && !s.links.formed) 0x0D,
    failIf (!mods.elem (myId s) && !(decide (h.span = 1) && mods.isEmpty)) 0x0D,
    failIf (decide (h.ttb = 0 ∧ h.ttn ≠ 0) || (entriesOf s h.ttb h.ttn 16).any (fun e => !entryOk s e)) 0x0E,
    failIf (!running s 0x60) 0x0F]).getD 0

end Sys2Proof.Machine
end

