-- ==== Sys2Proof/Machine/Jobs.lean ====
section
/-! DEFINITION. Admission, the start and the end of jobs (R59, R61, R108, R250, R345 to R350): Tables 11-5 to 11-7. -/
namespace Sys2Proof.Machine

/-! ## Admission (Table 11-6) -/

/-- Counters armed in list order, each given to the job; epochs written into the argument block (R134, step 2). -/
def armList (s : State) (h : MHead) : State :=
  (furrowList s h).foldl (fun s w =>
    match furName (field w 0 16) with
    | none => s
    | some (d, n) =>
      let s := setFurrow s d n { furrow s d n with job := h.job }
      let s := if bitAt w 16 ∧ furUp s d = true then armCounter s d n (field w 32 32) else s
      if bitAt w 17 then
        let q := store s srcJob none (h.args + field w 64 32) (toLe 2 (furrow s d n).epoch.toNat)
        if q.2 then unitError q.1 h.job else q.1
      else s) s

/-- Where an admission writes epochs: two bytes of the argument block each, whose values it does not know yet. -/
def epochWrites (s : State) (h : MHead) : List (Nat × List Byte) :=
  (furrowList s h).filterMap (fun w => if bitAt w 17 then some (h.args + field w 64 32, zeros 2) else none)

/-- What the job engine reads, where it can be read (R410). -/
def readWhole (s : State) (a n : Nat) : Option (List Byte) := if (badIn s a n).isEmpty then some (gran s a n) else none

/-- The argument block goes into the Hopper of every named Tiller at AHOP (step 3; Table 10-4, step 7). False where a sector of it
is uncorrectable: it is delivered nowhere. -/
def placeArgs (s : State) (m : Manifest) : State × Bool :=
  match readWhole s m.args (64 * m.alen) with
  | some b => (m.tset.foldl (fun s id => setTilAt s id { tilAt s id with hopper := writeBytes (tilAt s id).hopper m.ahop b }) s, true)
  | none => (detectBad s m.args (64 * m.alen), false)

/-- A Tiller as the job takes it: the program image in its store, its threads idle, its contexts IDLE. -/
def takeTiller (s : State) (job : Nat) (image : List Byte) (id : Nat) : State :=
  let y := tilAt s id
  setTilAt s id { y with
    job := job, program := writeBytes y.program 0 image, threads := [], sheaves := [], ctxs := [] }

/-- Semaphores of the job's Tillers, and of unit 0x60 where it opens it, start at zero (R137). -/
def clearSems (s : State) (tills : List Nat) (sowing : Bool) : State :=
  { s with sems := s.sems.filter (fun p => match semTil p.1 with
      | some id => !tills.elem id
      | none => !(sowing && decide (p.1 / 256 = 0x860))) }

/-- The program image of a job goes into the store of a Tiller; one with an uncorrectable sector is delivered nowhere, and the job
meets the error (R410). -/
def placeImage (s : State) (job : Nat) (m : Manifest) (tils : List Nat) : State :=
  match readWhole s m.prog (64 * m.plen) with
  | some b => tils.foldl (fun s id => takeTiller s job b id) s
  | none => unitError (detectBad (tils.foldl (fun s id => takeTiller s job [] id) s) m.prog (64 * m.plen)) job

/-- The pages of a table are entered. -/
def enterPages (s : State) (t : KV Nat) : State :=
  t.foldl (fun s p => if xKind p.2 ≠ 2 then s else clearFrame s (xFrame p.2)) s

/-- The stream-fault policy a job latches: abort?, and whether it was forced (R250). -/
def policyOf (h : MHead) : Bool × Bool := if 512 < h.span then (true, true) else (decide (h.sfp = 2), false)

/-- The CXL ports that the Barn ranges of a table's pages name. -/
def tablePorts (s : State) (t : KV Nat) : Nat :=
  t.foldl (fun a p => if xKind p.2 = 2 then Nat.lor a (barnPorts s (xBarn p.2)) else a) 0

/-- Every unit uses a job's table as it now stands: pages that an edit has entered have no valid granule (R214, R215). -/
def reloadTable (s : State) (job : Nat) : State :=
  let j := jobOf s job
  let t := readTable s j.man.ttb j.man.ttn
  let s := t.foldl (fun s p => if kvGet 0 j.xlate p.1 = p.2 then s else enterFrame s p.2) s
  modJob s job (fun j => { j with xlate := t, man := { j.man with barnPorts := tablePorts s t } })

/-- What the job engine keeps of a manifest. -/
def manifestOf (s : State) (ga : Nat) (b : List Byte) (h : MHead) (t : KV Nat) : Manifest :=
  { ga := ga, job := h.job, span := h.span, fact := h.fact, plim := h.plim, mvc := h.mvc,
    aftt := if h.aftt = 15 then none else some h.aftt, afts := h.afts, tset := tsetOf s h.tset, entries := manEntries b,
    ahop := h.ahop, args := h.args, alen := h.alen, prog := h.prog, plen := h.plen, ttb := h.ttb, ttn := h.ttn,
    counters := (furrowList s h).map (fun w => field w 0 16), mlst := moduleList s h, vcs := vcsOf s h,
    regions := regionList s h,
    barnPorts := tablePorts s t,
    awn := decide (h.awnn ≠ 0), crec := h.crec, stage := stageOf h }

/-- A reduction group as its record opens it: window 0, nothing posted. -/
def groupOf (s : State) (job : Nat) (c : GroupRec) : Group :=
  let ms := membersOf s c
  { cfg := c, job := job, members := ms, lam := 0, windows := [], held := [], rt := retained c, partials := [],
    primary := (upto ms.length).find? (fun p => decide ((natAt (ms.map (·.1)) p) = myId s)),
    gleans := (upto ms.length).find? (fun p => decide ((natAt (ms.map (·.2)) p) = myId s)) }

/-- The engines a manifest opens are held by its job from its admission on (R138); none of them acts for it before it runs,
in step 5 (R346). -/
def openUnits (s : State) (h : MHead) : State :=
  let s := if h.seqg = 0 then s else setRot s (rotOf s (seqBlock s h) h.job)
  let s := if h.sown = 0 then s else { s with sowing := { Sowing.reset with
    holder := h.job, base := h.sowb, entries := h.sown, ahead := h.ahead, credit := h.cred } }
  let s := if h.awnn = 0 then s else setAwn s { Awn.reset with
    holder := h.job, base := h.awnb, entries := h.awnn, reason := s.awn.reason }
  let gs := (groupRecs s h).map (fun r => groupOf s h.job r.2)
  if gs.isEmpty ∧ h.step = 0 then s
  else
    let saved : Saved :=
      { lams := gs.map (fun g => (g.cfg.gid, 0)), lp := 0, credit := if h.sown = 0 then 0 else h.cred, next := 0, round := 0 }
    { s with stook := { s.stook with
      groups := gs, job := h.job, normSent := none, commitState := 0, vote := none, bad := false, badSinceVote := false,
      step := if h.step = 0 then none else some (StepRec.parse (gran s h.step 64)), saved := saved, tree := [], quiet := false, early := false,
      tasks := [] } }

/-- The registers of a thread at its start (R108). -/
def startRegs (id n width ahop : Nat) : KV Word64 :=
  [(1, n), (2, id), (3, width), (4, ahop)].foldl (fun m p => kvSet 0 m p.1 (BitVec.ofNat 64 p.2)) []

/-- Starts every named thread at its entry (step 6). -/
def startThreads (s : State) (m : Manifest) : State :=
  m.tset.foldl (fun s id =>
    let y := tilAt s id
    setTilAt s id (m.entries.foldl (fun y e =>
      setThr y e.1 { Thread.reset with
        st := .ready, pc := BitVec.ofNat 64 (4 * e.2), regs := startRegs id e.1 (drillWidth y) m.ahop,
        startTc := tcNow s (id / 256) }) { y with threads := [] })) s

/-- Steps 5 and 6: the engines work for the job from here on, Rotation credits are granted, and the threads start. An error that the
job has met before is a vote for rollback (R326). -/
def startJob (s : State) (slot : Nat) : State :=
  let m := (jobAt s slot).man
  let s := setJob s slot { jobAt s slot with st := 2, startAux := some s.clocks.aux, progress := s.clocks.aux }
  let s := if s.rot.holder = m.job then foldUpto s.rot.slots s grantRound else s
  let s := startThreads s m
  if commitOn s m.job && s.stook.bad then beginRollback s else s

/-! ### The AND of "admitted" over the modules of a job (step 4, R318) -/

/-- Whether the members that a leader adds up at one level have all said "admitted". -/
def groupAdmitted (s : State) (job n i unit : Nat) : Bool :=
  (upto 31).all (fun j => let k := i + (j + 1) * unit; decide (n ≤ k) || s.stook.admits.elem (job, k))

/-- How far the AND has come at the member of index i: none where it waits, true at the root, false for its leader to know. -/
def admitClimb (s : State) (job n i : Nat) : Nat → Nat → Option Bool
  | 0, _ => some true
  | f + 1, unit =>
    if n ≤ unit then some true
    else if i % (32 * unit) ≠ 0 then some false
    else if groupAdmitted s job n i unit then admitClimb s job n i f (32 * unit) else none

/-- The AND yields 1: the members below hear it, and the job starts here. -/
def jobAdmitted (s : State) (slot : Nat) : State :=
  let job := (jobAt s slot).man.job
  let s := { s with stook := { s.stook with admits := s.stook.admits.filter (fun p => decide (p.1 ≠ job)) } }
  startJob (treeDown s job 4 0 0 true) slot

/-- An admitted job moves the AND on; a job of one module starts at once. -/
def sayAdmitted (s : State) (job : Nat) : State :=
  match slotOf s job with
  | none => s
  | some slot =>
    if (jobAt s slot).st ≠ 1 then s
    else match admitClimb s job (jobModules s job).length (treeIndex s job) 3 1 with
      | none => s
      | some true => jobAdmitted s slot
      | some false => treeUp s job 4 0 0 true

/-- A member below says "admitted", which is held until this module has admitted the job too. -/
def hearAdmitted (s : State) (job i : Nat) : State :=
  if s.stook.admits.elem (job, i) then s
  else sayAdmitted { s with stook := { s.stook with admits := s.stook.admits ++ [(job, i)] } } job

/-- A manifest that passes: the job takes a slot (steps 1 to 4). -/
def takeJob (s : State) (ga slot : Nat) : State :=
  let b := gran s ga 512
  let h := MHead.parse b
  let t := readTable s h.ttb h.ttn
  let m := manifestOf s ga b h t
  let j : Job :=
    { st := 1, reason := 0, man := m, seed := BitVec.ofNat 64 (if h.seedv then h.seed else setting s 0x3000 1),
      classes := s.dict.active.filter (fun p => decide (od 0x3010 0 ≤ p.1 ∧ p.1 < od 0x3020 0)),
      abortPolicy := (policyOf h).1, forced := (policyOf h).2, xlate := t, startAux := none, progress := s.clocks.aux,
      endAux := 0, record := false, freeing := false }
  let s := setJob s slot j
  let s := lowerFields { s with admitSlot := slot, power := { s.power with st := .run } }
  let s := openUnits (enterPages (clearSems s m.tset (decide (h.sown ≠ 0))) t) h
  let s := armList s h
  let q := placeArgs (placeImage s m.job m m.tset) m
  sayAdmitted (if q.2 then q.1 else unitError q.1 m.job) m.job

/-- An admission checks its manifest and records the result (R345). -/
def admitManifest (s : State) (ga : Nat) : State :=
  let r := admitCheck s ga
  let s := if gaOk ga 512 then (if r = 0 then admitReads s ga else [(ga, 512)]).foldl (fun s p => entered s srcJob p.1 p.2) s else s
  let s := bump { s with admitResult := r, admitHeld := none } 0x1000 5 1
  match (upto 4).find? (fun i => decide ((jobAt s i).st = 0)) with
  | some slot => if r = 0 then takeJob s ga slot else s
  | none => s

/-- Steps 4 to 7 of a debug unlock (Table 15-7). -/
def unlockHolds (s : State) : Bool :=
  match s.sec.unlock with
  | some (n, _, _) => decide (n ≤ 7)
  | none => false

/-- Admissions are held during a power entry or exit, in Sleep, and in a debug unlock (R389, R390, R442). -/
def admitBlocked (s : State) : Bool :=
  unlockHolds s || s.power.target.isSome || s.power.exiting || decide (s.power.st = .sleep ∨ s.power.st = .deepSleep ∨ s.power.st = .off)

/-- What an admission waits for in memory: lines it reads that a host may hold modified, admission of the manifest's header, and
what its stores of epochs wait for (R178, R209, R340). -/
def admitGate (s : State) (ga : Nat) : State × Bool :=
  let q := snoopAll s ((admitReads s ga).map (fun p => (p.1, min p.2 granaryBytes))) false
  if !q.2 then q
  else if !gaOk ga 512 then q
  else match localRead q.1 srcJob ga 512 with
    | .wait s => (s, false)
    | _ => if admitCheck q.1 ga = 0 then storeGate q.1 srcJob (epochWrites q.1 (MHead.parse (gran q.1 ga 512))) else q

/-- An admission begins, or stays held: for the power state, or for memory. -/
def tryAdmit (s : State) (ga : Nat) : State :=
  let s := { s with admitHeld := some ga }
  if admitBlocked s then s
  else
    let q := admitGate s ga
    if q.2 then admitManifest q.1 ga else q.1

/-- A held admission goes on where it may. -/
def kickAdmit (s : State) : State := match s.admitHeld with | some ga => tryAdmit s ga | none => s

/-- ADMISSION_AND_COMPLETE: the AND of "admitted" yields 1: steps 5 and 6 follow. -/
def execAdmissionAndComplete (slot : Fin 4) (s : State) : Answer :=
  if (jobAt s slot.val).st = 1 then .next (jobAdmitted s slot.val) else .next s

/-- Auxiliary clocks of a number of milliseconds: the clock runs at 25 MHz (R273). -/
def auxMs (n : Nat) : Nat := 25000 * n

/-- Whether a job has made no progress for PLIM. -/
def progressLate (s : State) (slot : Nat) : Bool :=
  let j := jobAt s slot
  decide (j.progress + auxMs j.man.plim ≤ s.clocks.aux)

/-- ADMISSION_AND_TIMEOUT: step 4 has not completed within PLIM. -/
def execAdmissionAndTimeout (slot : Fin 4) (s : State) : Answer :=
  if (jobAt s slot.val).st = 1 ∧ progressLate s slot.val = true then .next (endJob s slot.val 5 0x0D true true)
  else .next s

/-- PROGRESS_LIMIT_EXPIRY: the job ends with reason 0x20. -/
def execProgressLimitExpiry (slot : Fin 4) (s : State) : Answer :=
  let st := (jobAt s slot.val).st
  if (st = 2 ∨ st = 3) ∧ progressLate s slot.val = true then .next (endJob s slot.val 5 0x20 true true)
  else .next s

/-- JOB_END_NOTICE: another module has ended the job (FACT 1): it ends here too, and the notice goes on along the tree
(R349). -/
def execJobEndNotice (job : Word32) (s : State) : Answer :=
  match slotOf s job.toNat with
  | some i => .next (endJob s i 5 0x22 true true)
  | none => .next s

/-- The functions a job uses (R379). -/
def jobFns (j : Job) : List Nat :=
  dedup (j.man.tset.map (fun id => id / 256 + 1)) ++ [0x20, 0x60]
    ++ (if 1 < j.man.span then [0x10, 0x11, 0x50] else []) ++ (if j.man.awn then [0x30] else [])
    ++ (if bitAt j.man.barnPorts 0 then [0x40] else []) ++ (if bitAt j.man.barnPorts 1 then [0x41] else [])

/-! ## The completion record (R348) -/

/-- The line at CREC; the elapsed time of a job that never reached step 6 is a free value (log entry 2). -/
def recordLine (s : State) (j : Job) : List Byte :=
  let ms := match j.startAux with
    | some a => (j.endAux - a) / 25000
    | none => Config.free s.free
  padTo 64 (toLe 4 j.man.job ++ toLe 1 j.st ++ toLe 1 j.reason ++ zeros 2 ++ toLe 4 ms)

/-- Writes the line of a slot, where nothing delays it. -/
def writeRecord (s : State) (slot : Nat) : State :=
  let j := jobAt s slot
  if !j.record then s
  else
    let q := storeGate s srcJob [(j.man.crec, recordLine s j)]
    if !q.2 then q.1
    else
      let t := (store q.1 srcJob none j.man.crec (recordLine s j)).1
      setJob { t with free := t.free + 1 } slot { jobAt t slot with record := false }

/-- COMPLETION_RECORD: the job engine writes the line, once. -/
def execCompletionRecord (slot : Fin 4) (s : State) : Answer := .next (writeRecord s slot.val)

/-! ## Freeing a slot (R350) -/

/-- Gives up the engines a job holds. -/
def closeUnits (s : State) (job : Nat) : State :=
  let s := if s.rot.holder = job then setRot (dropClaims s (3, 0, 0)) Rotation.reset else s
  let s := if s.sowing.holder = job then { s with sowing := Sowing.reset } else s
  let s := if s.awn.holder = job then setAwn s { Awn.reset with reason := s.awn.reason } else s
  if s.stook.job = job then
    let s := s.stook.groups.foldl (fun s g => g.windows.foldl (fun s w => dropClaims s (5, g.cfg.gid, w.lam)) s) s
    { s with stook := { s.stook with
      groups := [], job := 0, step := none, normSent := none, commitState := 0, vote := none, bad := false,
      badSinceVote := false, saved := Saved.reset, tree := [], quiet := false, early := false, tasks := [] } }
  else s

/-- A Tiller goes back to the free pool: its streams end, its threads are idle, its stop record is cleared (R125). -/
def freeTiller (s : State) (id : Nat) : State :=
  let s := endStreams s id
  setTilAt s id { tilAt s id with job := 0, threads := [], stop := none }

/-- Frees a slot whose completion record is written. -/
def releaseSlot (s : State) (slot : Nat) : State :=
  let job := (jobAt s slot).man.job
  let s := closeUnits ((jobTils s job).foldl freeTiller s) job
  let s := { s with stook := { s.stook with admits := s.stook.admits.filter (fun p => decide (p.1 ≠ job)) },
                    streamFaults := s.streamFaults.filter (fun r => decide (r.2.2.1 ≠ job ∨ r.2.2.2.2 ≠ 4)) }
  let s := { s with furrows := (s.furrows.map (fun p =>
    (p.1, if p.2.job = job then { p.2 with job := 0 } else p.2))).filter (fun p => decide (p.2 ≠ Furrow.reset)) }
  setJob s slot Job.reset

/-- Frees a slot in state 4, 5 or 6: a completion record still due is written first, and the slot is free once it is. -/
def freeJob (s : State) (slot : Nat) : State :=
  let s := writeRecord s slot
  if (jobAt s slot).record then setJob s slot { jobAt s slot with freeing := true } else releaseSlot s slot

/-- Slots whose freeing has waited for the completion record. -/
def kickFree (s : State) : State := foldUpto 4 s (fun s i => if (jobAt s i).freeing then freeJob s i else s)

/-! ## Host SIG (R350) -/

/-- The admitted job that a semaphore belongs to; 0 none. -/
def semJob (s : State) (name : Nat) : Nat :=
  match semTil name with
  | some id => (tilAt s id).job
  | none => if name / 65536 = 8 then unitHolder s (field name 8 8) (field name 0 6) else 0

/-- A SIG from the host. It follows every host write that a port has acknowledged, since a port acknowledges a write once it is
performed (R177). -/
def hostSig (s : State) (v : Nat) : State :=
  let name := field v 0 20
  sendSignal s .host name (field v 20 16) 0 (semJob s name)

end Sys2Proof.Machine
end

