-- ==== Sys2Proof/Machine/Commit.lean ====
section
/-! DEFINITION. The scalar tree's sums, the global norm, and step commit with its rollback (R316 to R319, R325 to R331,
Tables 10-2 to 10-4). -/
namespace Sys2Proof.Machine

/-! ## Sums on the scalar tree (R318, R327) -/

/-- A value of the tree. -/
structure TreeVal where
  s : Word32
  e : Word32
  bit : Bool
  deriving DecidableEq, Repr

def treeVal (s : State) (round i : Nat) : Option TreeVal :=
  (s.stook.tree.find? (fun p => decide (p.1 = round ∧ p.2.1 = i))).map (fun p =>
    { s := p.2.2.1, e := p.2.2.2.1, bit := p.2.2.2.2 })

/-- Holds a value of a round under its index, once. -/
def treePut (s : State) (round i : Nat) (v : TreeVal) : State :=
  if (treeVal s round i).isSome then s
  else { s with stook := { s.stook with tree := s.stook.tree ++ [(round, i, v.s, v.e, v.bit)] } }

def treeDrop (s : State) (round : Nat) : State :=
  { s with stook := { s.stook with tree := s.stook.tree.filter (fun p => decide (p.1 ≠ round)) } }

/-- A member's value added to a leader's: under R93, s then e, and the AND of the bits. -/
def treeAdd (a b : TreeVal) : TreeVal :=
  let r := sumPairs (a.s, a.e) [(b.s, b.e)]
  { s := r.1, e := r.2, bit := a.bit && b.bit }

/-- Where a round stands at this member, from level 32^k up: nothing to do, a value for its leader, or the root's. -/
inductive TreeStep where
  | wait
  | up (v : TreeVal)
  | root (v : TreeVal)
  deriving DecidableEq, Repr

/-- Adds the members of a leader's group, in ascending index, where every one is there. -/
def treeGroup (s : State) (round n i unit : Nat) (v : TreeVal) : Option TreeVal :=
  (upto 31).foldl (fun (a : Option TreeVal) j =>
    let k := i + (j + 1) * unit
    if n ≤ k then a
    else match a, treeVal s round k with
      | some x, some y => some (treeAdd x y)
      | _, _ => none) (some v)

def treeClimb (s : State) (round n i : Nat) : Nat → Nat → TreeVal → TreeStep
  | 0, _, v => .root v
  | f + 1, unit, v =>
    if n ≤ unit then .root v
    else if i % (32 * unit) ≠ 0 then .up v
    else match treeGroup s round n i unit v with
      | none => .wait
      | some w => treeClimb s round n i f (32 * unit) w

/-- Moves a round on at this member. A 0 of a vote does not wait for the other members. Answers the root's value. -/
def treeTry (s : State) (round : Nat) : State × Option TreeVal :=
  let job := s.stook.job
  let i := treeIndex s job
  let zero := decide (round ≠ 0) && s.stook.tree.any (fun p => decide (p.1 = round) && !p.2.2.2.2)
  let step : TreeStep :=
    if zero then (if i = 0 then .root { s := 0, e := 0, bit := false } else .up { s := 0, e := 0, bit := false })
    else match treeVal s round i with
      | none => .wait
      | some v => treeClimb s round (jobModules s job).length i 3 1 v
  match step with
  | .wait => (s, none)
  | .up v => (treeUp (treeDrop s round) job round v.s v.e v.bit, none)
  | .root v => (treeDown (treeDrop s round) job round v.s v.e v.bit, some v)

/-- This member gives its value to a round. -/
def treeGive (s : State) (round : Nat) (v : TreeVal) : State × Option TreeVal :=
  treeTry (treePut s round (treeIndex s s.stook.job) v) round

def treeBit (b : Bool) : TreeVal := { s := 0, e := 0, bit := b }

/-! ## What the job engine writes (R319, R327, Table 10-4 step 6) -/

/-- The norm line: S, the scale and the flag. -/
def normScale (clip x : Word32) : Word32 × Bool :=
  if isNan32 x || isInf32 x then (0, true)
  else if clip = 0 ∨ x = 0 then (fone, false)
  else (fmin fone (fmul clip (frsqrt x)), false)

/-- Bytes 9 to 63 of the line are free values (log entry 2). -/
def normLine (s : State) (x scale : Word32) (flag : Bool) : List Byte :=
  toLe 4 x.toNat ++ toLe 4 scale.toNat ++ toLe 1 (boolNat flag) ++ padTo 55 (Config.freeBytes s.free)

/-- The live or the retained cursors are unreadable. -/
def cursorsLost (s : State) (r : StepRec) (a : Nat) : Bool := decide (r.ncur ≠ 0) && !(badIn s a (8 * r.ncur)).isEmpty

/-- The bytes a task writes, and where. Cursors that are unreadable are not copied (R410): a lost CURB leaves RETC as it is. -/
def taskWrites (s : State) (r : StepRec) : EngineTask → List (Nat × List Byte)
  | .norm a b =>
    let x := rn32 ((val32 a).add (val32 b))
    let k := normScale r.clip x
    [(r.naddr, normLine s x k.1 k.2)]
  | .restore => if r.ncur = 0 then [] else [(r.curb, gran s r.retc (8 * r.ncur))]
  | .commit =>
    let j := jobOf s s.stook.job
    let pages := (upto r.ncp).flatMap (fun i =>
      let c := commitPair s r.cpl i
      (upto c.1).map (fun k => (c.2.2 / 2097152 + k, c.2.1 / 2097152 + k)))
    let swap := fun (a b : Nat) => a - xFrame a / 2097152 * 2 ^ 21 + xFrame b / 2097152 * 2 ^ 21
    let entries := pages.flatMap (fun p =>
      let a := sectionAt s j.man.ttb 16 p.1
      let b := sectionAt s j.man.ttb 16 p.2
      [(j.man.ttb + 16 * p.1, toLe 16 (swap a b)), (j.man.ttb + 16 * p.2, toLe 16 (swap b a))])
    entries ++ (if r.ncur = 0 ∨ cursorsLost s r r.curb = true then [] else [(r.retc, gran s r.curb (8 * r.ncur))])

/-- What a task reads: the arguments too, which a restore places again. -/
def taskReads (s : State) (r : StepRec) : EngineTask → List (Nat × Nat)
  | .norm _ _ => []
  | .restore =>
    let m := (jobOf s s.stook.job).man
    [(r.retc, 8 * r.ncur), (m.args, 64 * m.alen)]
  | .commit =>
    let m := (jobOf s s.stook.job).man
    [(r.cpl, 32 * r.ncp), (m.ttb, 16 * m.ttn), (r.curb, 8 * r.ncur)]

/-- Step 7: the arguments are placed again and every named thread starts, once RETC is back in CURB (Table 10-4). -/
def replayJob (s : State) : State :=
  match slotOf s s.stook.job with
  | some i =>
    let m := (jobAt s i).man
    let q := placeArgs (setJob s i { jobAt s i with st := 2, progress := s.clocks.aux }) m
    if q.2 then startThreads q.1 m else unitError q.1 m.job
  | none => s

/-- What follows a task's writes. An error met after round 2 belongs to the next step, which it rolls back (R327). -/
def taskDone (s : State) (r : StepRec) : EngineTask → State
  | .norm a b =>
    let job := s.stook.job
    let x := rn32 ((val32 a).add (val32 b))
    let k := normScale r.clip x
    let s := { s with free := s.free + 1, stook := { s.stook with s := x, scale := k.1, flag := k.2 } }
    sendSignal (if s.stook.bad then unitError s job else s) .engine r.nsem 1 0 job
  | .restore => replayJob s
  | .commit =>
    let job := s.stook.job
    let s := reloadTable s job
    let k := s.stook
    let w := s.sowing
    let saved : Saved :=
      { lams := k.groups.map (fun g => (g.cfg.gid, g.lam)), lp := w.lp, credit := w.credit, next := w.next, round := s.rot.round }
    let s := { s with stook := { k with
      saved := saved, steps := k.steps + 1, commitState := if k.vote.isNone then 0 else k.commitState } }
    let s := sendSignal s .engine r.csem 1 0 job
    if s.stook.bad then beginRollback s else s

/-- Performs the tasks that no host copy and no full list of held stores delays, in order. A restore waits until a lost RETC is
repaired (R421); an uncorrectable sector that the engine meets is an error of the job. -/
def kickTasks (s : State) : State :=
  iter (fun s =>
    match s.stook.tasks, s.stook.step with
    | t :: rest, some r =>
      let ws := taskWrites s r t
      let rd := taskReads s r t
      let p := snoopAll s rd false
      let q := storeGate p.1 srcJob ws
      if !p.2 then p.1
      else if !q.2 then q.1
      else if decide (t = .restore) && cursorsLost s r r.retc then s
      else
        let lost := decide (t = .commit) && cursorsLost s r r.curb
        let s := rd.foldl (fun s w => entered s srcJob w.1 w.2) q.1
        let w := ws.foldl (fun (a : State × Bool) w =>
          let k := store a.1 srcJob none w.1 w.2
          (k.1, a.2 || k.2)) (s, false)
        let s := { w.1 with stook := { w.1.stook with tasks := rest } }
        taskDone (if w.2 || lost then { s with stook := { s.stook with bad := true, badSinceVote := true } } else s) r t
    | _, _ => s) s.stook.tasks.length s

def addTask (s : State) (t : EngineTask) : State :=
  kickTasks { s with stook := { s.stook with tasks := s.stook.tasks ++ [t] } }

/-! ## The global norm (R317, R319) -/

/-- Partials of the NORM windows completed since the last norm, in ascending GID and window. -/
def normPartials (s : State) : List (Word32 × Word32) :=
  (upto 13).flatMap (fun gid =>
    match groupAt s gid with
    | none => []
    | some g => (upto (g.partials.foldl (fun n p => max n (p.1 + 1)) 0)).filterMap (fun l =>
        (g.partials.find? (fun p => decide (p.1 = l))).map (·.2)))

/-- The root's pair has come: the line is written, and NSEM signalled, by the job engine. -/
def normResult (s : State) (a b : Word32) : State :=
  let s := bump { s with stook := { s.stook with normSent := none } } 0xA580 9 1
  match s.stook.step with
  | some _ => addTask s (.norm a b)
  | none => s

/-- This member's norm contribution. -/
def giveNorm (s : State) : State :=
  let v := sumPairs (0, 0) (normPartials s)
  let k := s.stook
  let s := { s with stook := { k with
    normSent := some v, groups := k.groups.map (fun g => { g with partials := [] }) } }
  let q := treeGive s 0 { s := v.1, e := v.2, bit := true }
  match q.2 with
  | some r => normResult q.1 r.s r.e
  | none => q.1

/-- NORM_CONTRIBUTION: a SIG with count 1 to 0x8_5F00. -/
def execNormContribution (count : BitVec 16) (s : State) : Answer :=
  if s.stook.job = 0 ∨ count.toNat ≠ 1 ∨ s.stook.normSent.isSome ∨ (jobOf s s.stook.job).st ≠ 2 then .next s
  else .next (giveNorm s)

/-- NORM_ROUND_COMPLETE: the root's pair arrives, and goes on down the tree. -/
def execNormRoundComplete (a b : Word32) (s : State) : Answer :=
  if s.stook.normSent.isNone ∨ (jobOf s s.stook.job).st ≠ 2 then .next s
  else .next (normResult (treeDown s s.stook.job 0 a b true) a b)

/-! ## Commit (R326, R327) -/

/-- Round 2's AND has come. An error met since this member gave its 1 belongs to the next step. -/
def roundTwo (s : State) (yes : Bool) : State :=
  let s := bump s 0xA580 9 1
  if yes then addTask { s with stook := { s.stook with vote := none, badSinceVote := false } } .commit
  else beginRollback s

/-- This member's bit of round 2: 0 where it has met an error since its vote, an unreadable CURB among them, which the commit
could not copy. -/
def giveTwo (s : State) : State :=
  let lost := match s.stook.step with | some r => cursorsLost s r r.curb | none => false
  let yes := !s.stook.badSinceVote && !lost
  let s := { s with stook := { s.stook with commitState := 2, bad := if yes then false else s.stook.bad } }
  let q := treeGive s 2 (treeBit yes)
  match q.2 with
  | some v => roundTwo q.1 v.bit
  | none => q.1

/-- Round 1's AND has come. -/
def roundOne (s : State) (yes : Bool) : State :=
  let s := bump s 0xA580 9 1
  if yes then giveTwo s else beginRollback s

/-- The member's vote. A vote for rollback begins it. -/
def vote (s : State) (yes : Bool) : State :=
  let s := { s with stook := { s.stook with vote := some yes, badSinceVote := false, commitState := 1 } }
  if !yes then beginRollback s
  else
    let q := treeGive s 1 (treeBit true)
    match q.2 with
    | some v => roundOne q.1 v.bit
    | none => q.1

/-- Whether the job runs with step commit enabled. -/
def committing (s : State) : Bool := s.stook.step.isSome && decide ((jobOf s s.stook.job).st = 2)

/-- COMMIT_VOTE: a SIG to 0x8_5F01, count 1 for commit, count 2 for rollback. -/
def execCommitVote (count : BitVec 16) (s : State) : Answer :=
  if !committing s || s.stook.vote.isSome || decide (count.toNat ≠ 1 ∧ count.toNat ≠ 2) then .next s
  else .next (vote s (decide (count.toNat = 1)))

/-- The job is about to run here, or to run again: a peer may be ahead of this member (R346, Table 10-4). -/
def runsSoon (s : State) : Bool :=
  let st := (jobOf s s.stook.job).st
  s.stook.step.isSome && (decide (st = 1) || (decide (st = 3) && s.stook.quiet))

/-- COMMIT_ROUND_1: the AND of the votes arrives, and goes on down the tree; a 0 that a member ahead of this one has caused waits
until the job runs here. -/
def execCommitRound1 (yes : Bool) (s : State) : Answer :=
  if runsSoon s && !yes then .next { s with stook := { s.stook with early := true } }
  else if !committing s || (yes && decide (s.stook.commitState ≠ 1)) then .next s
  else .next (roundOne (treeDown s s.stook.job 1 0 0 yes) yes)

/-- COMMIT_ROUND_2: the AND of round 2 arrives, and goes on down the tree. -/
def execCommitRound2 (yes : Bool) (s : State) : Answer :=
  if !committing s || decide (s.stook.commitState ≠ 2) then .next s
  else .next (roundTwo (treeDown s s.stook.job 2 0 0 yes) yes)

/-! ## Rollback (Table 10-4) -/

/-- Step 6 is under way: the restore of the cursors is not done yet. -/
def restoring (s : State) : Bool := s.stook.tasks.any (fun t => decide (t = .restore))

/-- Step 6, and step 7 after it: the state of the last commit, the arguments and the threads (R328). -/
def restoreJob (s : State) (slot : Nat) : State :=
  let m := (jobAt s slot).man
  if restoring s then s else
  let sv := s.stook.saved
  let lamOf := fun (gid : Nat) => match sv.lams.find? (fun p => decide (p.1 = gid)) with | some p => p.2 | none => 0
  let s := { s with stook := { s.stook with
    groups := s.stook.groups.map (fun g => { g with lam := lamOf g.cfg.gid, windows := [], held := [], partials := [] }),
    normSent := none, commitState := 0, vote := none, bad := false, badSinceVote := false,
    tree := s.stook.tree.filter (fun p => decide (p.1 ≠ 3)), quiet := false } }
  let s := if s.sowing.holder = m.job then { s with sowing := { s.sowing with
      lp := sv.lp, credit := sv.credit, next := sv.next, flights := [], stopped := false, prevLayer := 0 } }
    else s
  let s := if s.rot.holder = m.job then rotRestore s sv.round else s
  addTask s .restore

/-! ## Committed state and its replica (R420, R421) -/

/-- Frames of the committed ranges of the job that commits. -/
def committedFrames (s : State) (r : StepRec) : List Nat :=
  let j := jobOf s s.stook.job
  (upto r.ncp).flatMap (fun i =>
    let c := commitPair s r.cpl i
    (upto c.1).map (fun k => xFrame (xent j (c.2.2 + 2097152 * k))))

/-- Uncorrectable sectors of the committed ranges. -/
def badCommitted (s : State) (r : StepRec) : List Nat :=
  let frames := committedFrames s r
  s.reli.bad.filter (fun x => frames.elem (64 * x / 2097152 * 2097152))

/-- The module that partners this one in a group: the Gleaner of its own position, or the primary it gleans for. -/
def partnerIn (s : State) (g : Group) : Option Nat :=
  let ok := fun (m : Nat) => if m = 0x7FFF ∨ m = myId s then none else some m
  match g.primary, g.gleans with
  | some p, _ => (g.members[p]?).bind (fun m => ok m.2)
  | none, some p => (g.members[p]?).bind (fun m => ok m.1)
  | none, none => none

/-- The replica: the partner in the group of lowest GID that pairs one. -/
def replica (s : State) : Option Nat := ((upto 13).filterMap (fun gid => (groupAt s gid).bind (partnerIn s))).head?

/-- Committed state is lost in both copies: the job ends with reason 0x23. -/
def loseCommitted (s : State) : State :=
  match slotOf s s.stook.job with
  | some i => endJob s i 5 0x23 true true
  | none => s

/-- The job address of a sector of a committed range. -/
def committedJa (s : State) (r : StepRec) (sec : Nat) : Nat :=
  let j := jobOf s s.stook.job
  let pages := (upto r.ncp).flatMap (fun i =>
    let c := commitPair s r.cpl i
    (upto c.1).map (fun k => c.2.2 / 2097152 + k))
  let page := (pages.find? (fun p => decide (xFrame (kvGet 0 j.xlate p) = 64 * sec / 2097152 * 2097152))).getD 0
  page * 2097152 + 64 * sec % 2097152

/-- Where the partner keeps a job address: its frame is a free value, as a request names a Granary address and the module does not
hold its partner's table (R268, R420; log entry 42). -/
def replicaGa (job mod ja : Nat) : Nat := Config.replicaFrame job mod (ja / 2097152) % 2 ^ 18 * 2097152 + ja % 2097152

/-- The repair of one sector begins: a remote read of its copy on the partner, at the same job address. -/
def repairSector (s : State) (r : StepRec) (sec : Nat) : State :=
  let job := s.stook.job
  if s.links.trans.any (fun x => decide (x.owner = TransOwner.repair (64 * sec))) || !jobLive (jobOf s job) then s
  else match replica s with
    | none => loseCommitted s
    | some d =>
      let q := sendRequest s (.repair (64 * sec)) job d (jobOf s job).man.mvc (replicaGa job d (committedJa s r sec)) 1 false []
      match q.2 with
      | .unreachable => loseCommitted q.1
      | _ => q.1

/-- Copies the sectors of one cursor area over the other, where nothing delays it. -/
def copyCursors (s : State) (dst src n : Nat) : State :=
  match localRead s srcJob src (roundUp n 64) with
  | .ok b =>
    let q := storeGate s srcJob [(dst, b)]
    if q.2 then (store (entered q.1 srcJob src (roundUp n 64)) srcJob none dst b).1 else q.1
  | .wait s => s
  | _ => s

/-- A lost RETC is restored from CURB at once, and a lost CURB from RETC in the rollback. -/
def repairCursors (s : State) (r : StepRec) (rolling : Bool) : State :=
  let n := 8 * r.ncur
  let curb := r.ncur ≠ 0 ∧ (badIn s r.curb n).isEmpty = false
  let retc := r.ncur ≠ 0 ∧ (badIn s r.retc n).isEmpty = false
  if curb ∧ retc then loseCommitted s
  else if retc then copyCursors s r.retc r.curb n
  else if curb ∧ rolling = true then copyCursors s r.curb r.retc n
  else s

/-- Repairs committed state, while the step runs or in step 4 of a rollback. -/
def repairCommitted (s : State) : State :=
  match s.stook.step with
  | none => s
  | some r =>
    let st := (jobOf s s.stook.job).st
    if st = 2 ∨ st = 3 then (badCommitted s r).foldl (fun s x => repairSector s r x) (repairCursors s r (decide (st = 3))) else s

/-- No committed sector is left to repair. -/
def committedWhole (s : State) : Bool :=
  match s.stook.step with
  | some r => (badCommitted s r).isEmpty
  | none => true

/-- Whether the job's instructions in flight and its transactions have ended, the functions it uses have recovered (steps 2 to 4),
and no STOOK flit of the abandoned attempt is left here. -/
def quiescent (s : State) (job : Nat) : Bool :=
  (jobTils s job).all (fun id => (tilAt s id).flights.isEmpty) && !s.links.trans.any (fun x => decide (x.job = job)) &&
    (jobFns (jobOf s job)).all (running s) && committedWhole s && stookGone s && (s.stook.quiet || s.links.stookIn.isEmpty)

/-- ROLLBACK_QUIESCENT: every module is quiescent, this one included. -/
def execRollbackQuiescent (s : State) : Answer :=
  match slotOf s s.stook.job with
  | none => .next s
  | some i =>
    if (jobAt s i).st ≠ 3 ∨ quiescent s s.stook.job = false then .next s
    else .next (restoreJob (treeDown (bump s 0xA580 9 1) s.stook.job 3 0 0 true) i)

/-- This member is quiescent: it says so on the tree (step 5). -/
def giveQuiescent (s : State) : State :=
  if (jobOf s s.stook.job).st ≠ 3 ∨ restoring s = true ∨ quiescent s s.stook.job = false
    ∨ s.stook.quiet = true then s
  else
    let q := treeGive { s with stook := { s.stook with quiet := true } } 3 (treeBit true)
    match q.2, slotOf s s.stook.job with
    | some _, some i => restoreJob (bump q.1 0xA580 9 1) i
    | _, _ => q.1

/-! ## Values that travel the tree -/

/-- A round of the tree goes on with the values held. -/
def treeAct (s : State) (round : Nat) : State :=
  let q := treeTry s round
  match q.2 with
  | none => q.1
  | some r =>
    if round = 0 then (if s.stook.normSent.isSome then normResult q.1 r.s r.e else q.1)
    else if round = 1 then roundOne q.1 r.bit
    else if round = 2 then roundTwo q.1 r.bit
    else match slotOf s s.stook.job with
      | some i => if (jobOf s s.stook.job).st = 3 then restoreJob (bump q.1 0xA580 9 1) i else q.1
      | none => q.1

/-- A value arrives from a member below (R318). One from a member that is ahead waits until the job runs here. -/
def treeArrive (s : State) (round i : Nat) (v : TreeVal) : State :=
  let st := (jobOf s s.stook.job).st
  if s.stook.job = 0 ∨ 3 < round then s
  else if round = 3 ∨ st = 2 then treeAct (treePut s round i v) round
  else if st = 1 ∨ (st = 3 ∧ s.stook.quiet = true) then treePut s round i v
  else s

/-- What came before the job ran here acts. -/
def kickTree (s : State) : State :=
  if (jobOf s s.stook.job).st ≠ 2 then s
  else
    let s := [0, 1, 2].foldl (fun s r => if s.stook.tree.any (fun p => decide (p.1 = r)) then treeAct s r else s) s
    if s.stook.early && committing s then
      let s := { s with stook := { s.stook with early := false } }
      roundOne (treeDown s s.stook.job 1 0 0 false) false
    else s

/-- Semaphore indices of unit 0x5F. -/
def scalarSignal (s : State) (idx count : Nat) : State :=
  let c : BitVec 16 := BitVec.ofNat 16 count
  match (if idx = 0 then execNormContribution c s else execCommitVote c s) with
  | .next t => t
  | _ => s

end Sys2Proof.Machine
end

