-- ==== Sys2Proof/Machine/Descriptor.lean ====
section
/-! DEFINITION. Stream descriptors (R236, R237, Tables 08-1 to 08-4), the start and the stop of a stream, its
faults and its semaphores. -/
namespace Sys2Proof.Machine

/-! ## Fields of a descriptor: most significant bit, least significant bit -/

def dGB := (1023, 960)
def dIB := (959, 896)
def dGSTR := (895, 864)
def dNE := (863, 832)
def dNROWS := (831, 800)
def dHB := (799, 768)
def dHSLOT := (767, 736)
def dELM1 := (728, 712)
def dHSTR := (711, 696)
def dCM1 := (695, 680)
def dNSLOT := (679, 672)
def dUF := (671, 652)
def dUE := (651, 632)
def dDF := (631, 612)
def dDE := (611, 592)
def dDONE := (591, 572)
def dUFE := (559, 559)
def dUEE := (558, 558)
def dDFE := (557, 557)
def dDEE := (556, 556)
def dDNE := (555, 555)
def dSRM1 := (543, 528)
def dMODE := (527, 524)
def dDIR := (523, 523)
def dTILE := (522, 522)
def dISP := (521, 521)
def dIFMT := (520, 519)
def dHDR := (518, 518)
def dTA := (511, 448)
def dHSL := (447, 440)
def dN0 := (439, 408)
def dPCM1 := (406, 405)
def dPRED := (511, 496)
def dPCTX := (495, 492)
def dSUCC := (491, 476)
def dSCTX := (475, 472)
def dHEAD := (471, 471)
def dTAIL := (470, 470)

/-- A field of a descriptor given as its 1024-bit number. -/
def dget (w : Nat) (f : Nat × Nat) : Nat := field w f.2 (f.1 + 1 - f.2)

def dflag (w : Nat) (f : Nat × Nat) : Bool := decide (dget w f = 1)

/-- A context's descriptor as a number. -/
def Ctx.d (x : Ctx) : Nat := leNat x.desc

def semFields : List (Nat × Nat) := [dUF, dUE, dDF, dDE, dDONE, dUFE, dUEE, dDFE, dDEE, dDNE]

/-- The fields a mode uses (R237). -/
def modeFields (w : Nat) : List (Nat × Nat) :=
  let plain := [dGB, dGSTR, dNE, dNROWS, dHB, dHSLOT, dELM1, dHSTR, dCM1, dNSLOT, dMODE, dDIR, dTILE, dHDR, dSRM1] ++ semFields
  let pair := [dNE, dHB, dHSLOT, dELM1, dHSTR, dCM1, dNSLOT, dHDR, dMODE, dDONE, dDNE]
  match dget w dMODE with
  | 0 => plain
  | 1 => plain ++ [dIB, dISP, dIFMT]
  | 2 => [dMODE, dHB, dHSLOT, dDONE, dDNE, dTA, dHSL, dN0, dPCM1]
  | 3 => [dGB, dNE, dHB, dHSLOT, dNSLOT, dMODE, dDIR] ++ semFields
  | 4 => pair ++ [dSUCC, dSCTX, dUF, dUE, dUFE, dUEE]
  | 5 => pair ++ [dPRED, dPCTX, dDF, dDE, dDFE, dDEE]
  | _ => pair ++ [dHEAD, dTAIL, dDF, dDE, dDFE, dDEE]
      ++ (if dflag w dHEAD then [dGB, dGSTR, dNROWS, dUF, dUE, dUFE, dUEE] else [dPRED, dPCTX])
      ++ (if dflag w dTAIL then [] else [dSUCC, dSCTX])

/-- Bytes of one element of a plain stream. -/
def elemBytes (w : Nat) : Nat := 64 * (dget w dELM1 + 1)

/-- The Hopper address of element e's row in its chunk's slot (R238). -/
def slotAddr (w c : Nat) : Nat := dget w dHB + (c % dget w dNSLOT) * dget w dHSLOT + 64 * dget w dHDR

def rowAddr (w c j : Nat) : Nat := slotAddr w c + 64 * (j * dget w dHSTR)

/-- Bytes of a Hopper from an address on; an address past its end goes on from 0 (log entry 74). -/
def hopWrap (y : Tiller) (a n : Nat) : List Byte :=
  let k := min n (8388608 - a % 8388608)
  hop y (a % 8388608) k ++ hop y 0 (n - k)

/-- Hopper writes, each wrapped likewise. -/
def wrapAll (ws : List (Nat × List Byte)) : List (Nat × List Byte) :=
  ws.flatMap (fun w =>
    let k := 8388608 - w.1 % 8388608
    if w.2.length ≤ k then [(w.1 % 8388608, w.2)] else [(w.1 % 8388608, w.2.take k), (0, w.2.drop k)])

/-- Enabled semaphores: (enable, field). -/
def semPairs : List ((Nat × Nat) × (Nat × Nat)) := [(dUFE, dUF), (dUEE, dUE), (dDFE, dDF), (dDEE, dDE), (dDNE, dDONE)]

/-- Whether a Tiller ID names an enabled Tiller of the job. -/
def tilInJob (s : State) (job id : Nat) : Bool := enabled s id && decide ((tilAt s id).job = job ∧ job ≠ 0)

/-- The bytes of a Windrow table: its header, and its entries of S pages. -/
def tableWithin (s : State) (job ta : Nat) : Bool :=
  decide (ta + 64 ≤ granaryBytes) &&
  (jobOf s job).man.regions.any (fun r => decide (r.1 ≤ ta ∧ ta + (tableSpan s ta).2 ≤ r.1 + r.2))

/-- The checks of R237, in the order of their reason codes; gr is x[GR]. -/
def descCheck (s : State) (t : Thr) (w gr : Nat) : Check :=
  let job := (til s t.til).job
  let mode := dget w dMODE
  let el := dget w dELM1 + 1
  let per := dget w dCM1 + 1
  let tile := dflag w dTILE
  let plain := decide (mode ≠ 2 ∧ mode ≠ 3) && !tile
  let hop := decide (mode = 1) && !dflag w dISP
  let slots := if mode = 2 then 2 * dget w dHSLOT + 64 else dget w dNSLOT * dget w dHSLOT
  let sems := semPairs.filter (fun p => dflag w p.1)
  firstOf [
    failIf (decide (6 < mode) || decide (1 < dget w dIFMT)
      || (tile && (decide (1 < mode) || dflag w dDIR))) 0x01,
    failIf (!onlyBits w (modeFields w) || (tile && decide (dget w dELM1 ≠ 0 ∨ dget w dHSTR ≠ 0))
      || (!tile && decide (dget w dSRM1 ≠ 0)) || (hop && decide (2 ^ 23 ≤ dget w dIB))) 0x02,
    failIf ((decide (mode ≠ 2) && decide (dget w dNSLOT = 0)) || (decide (mode = 6) && decide (dget w dNSLOT < 2))
      || (decide (mode = 3) && decide (dget w dNE ≠ 1))
      || (plain && decide (1 < per) && decide (dget w dHSTR < el))
      || (plain && decide (dget w dHSLOT < 64 * dget w dHDR + 64 * (per * dget w dHSTR)))) 0x04,
    failIf (decide (dget w dHB % 64 ≠ 0 ∨ dget w dHSLOT % 64 ≠ 0) || (hop && decide (dget w dIB % 64 ≠ 0))
      || decide (8388608 < dget w dHB + slots)) 0x05,
    failIf (semPairs.any (fun p => !semOk (dget w p.2))) 0x08,
    failIf ((dflag w dUFE && !ownSem t (dget w dUF)) || (dflag w dDEE && !ownSem t (dget w dDE))
      || sems.any (fun p => !sigAllowed s job (dget w p.2))
      || ((decide (mode = 5) || (decide (mode = 6) && !dflag w dHEAD)) && !tilInJob s job (dget w dPRED))
      || ((decide (mode = 4) || (decide (mode = 6) && !dflag w dTAIL)) && !tilInJob s job (dget w dSUCC))
      || (decide (mode = 2) && !tableWithin s job (dget w dTA))) 0x07,
    failIf (decide (2 ^ 48 ≤ (dget w dGB + gr) % 2 ^ 64)) 0x08]

/-! ## Contexts -/

def ctxAt (s : State) (c : CtxId) : Ctx := kvGet Ctx.reset (til s c.til).ctxs c.ctx.val

def setCtx (s : State) (c : CtxId) (x : Ctx) : State :=
  modTil s c.til (fun y => { y with ctxs := kvSet Ctx.reset y.ctxs c.ctx.val x })

def claimKey (c : CtxId) : Nat × Nat × Nat := (2, tilKey c.til, c.ctx.val)

def ctxOf (id n : Nat) : Option CtxId :=
  match tilOf id with
  | none => none
  | some t => if h : n < 16 then some { til := t, ctx := ⟨n, h⟩ } else none

/-- Counts an event of `OD A700` for a stream's Tiller (R261). -/
def countStream (s : State) (c : CtxId) (k n : Nat) : State := bumpTil s (tilKey c.til) 0xA700 k n

/-- Signals a semaphore of the stream, if enabled (R243). -/
def streamSignal (s : State) (c : CtxId) (en sem : Nat × Nat) : State :=
  let x := ctxAt s c
  if dflag x.d en then sendSignal s (.stream c) (dget x.d sem) 1 0 x.job else s

/-- Accesses a stream makes are demand reads, or may run ahead. A chunk's shape: chunks of the plain modes. -/
def totalChunks (w : Nat) : Nat :=
  match dget w dMODE with
  | 2 => 1
  | 3 => 1
  | _ => ceilDiv (dget w dNE) (dget w dCM1 + 1)

def elemCount (w : Nat) : Nat := if dget w dMODE = 2 then 1 else dget w dNE

/-- Every element has been read into some chunk. -/
def exhausted (x : Ctx) : Bool := decide (elemCount x.d ≤ x.nextElem)

/-- A stream can act: the Harrow is RUNNING (R254) and its context is too. -/
def streamOn (s : State) (c : CtxId) : Bool := running s 0x20 && decide ((ctxAt s c).st = .running)

/-- A context has an element under way: lines asked for or writes sent, or an element partly read or written (R254). -/
def elemUnderWay (x : Ctx) : Bool :=
  !x.asked.isEmpty || decide (0 < x.remoteWrites.getD 0) || x.chunks.any (fun p => p.2.inElem)
    || (decide (dget x.d dMODE = 3) && !x.cache.isEmpty)

/-- Contexts that the Harrow has still to bring to rest: RUNNING ones with an element under way (Table 12-8). -/
def harrowBusy (s : State) : Bool :=
  s.tillers.any (fun p => p.2.ctxs.any (fun q => decide (q.2.st = .running) &&
    (elemUnderWay q.2 || s.held.any (fun h => decide (h.ctx.isSome = true ∧ h.ctx = ctxOf p.1 q.1)))))

/-- Releases the pin that a demand fault of the context holds (R222). -/
def releasePin (s : State) (c : CtxId) : State :=
  let x := ctxAt s c
  match x.pinned with
  | some ga => setCtx (unpinDemand s ga) c { x with pinned := none, fault := none }
  | none => s

/-- Drops the latch of a context on a table; the stores held for it are performed with the last (R177). -/
def releaseLatch (s : State) (c : CtxId) (ta : Nat) : State :=
  let l := (kvGet [] s.latches ta).filter (fun d => decide (d ≠ c))
  let s := { s with latches := kvSet [] s.latches ta l }
  if l.isEmpty then performHeld s else s

/-- The context becomes IDLE, signalling nothing more. -/
def idleCtx (s : State) (c : CtxId) : State := setCtx (performHeld (freeStream s c)) c Ctx.reset

def recordFault (s : State) (c : CtxId) (f : StreamFault) (status : Nat) : State :=
  { s with streamFaults := s.streamFaults ++ [(tilKey c.til, c.ctx.val, (ctxAt s c).job, f, status)] }

/-- A fault of kind 4 to 7 is a program fault; one of kind 1 to 3 halts the stream, or ends the job, as the job's
policy says (R249 to R253). -/
def streamFault (s : State) (c : CtxId) (kind ja elem chunk : Nat) : State :=
  let s := releasePin s c
  let x := ctxAt s c
  let f : StreamFault := { kind := kind, ja := ja, elem := elem, chunk := chunk }
  if 4 ≤ kind then
    programFault (idleCtx (countStream (recordFault s c f 4) c 10 1) c) x.job
  else if (jobOf s x.job).abortPolicy then
    let s := countStream (recordFault s c f 4) c 9 1
    match slotOf s x.job with
    | some i => endJob s i 5 0x02 true true
    | none => idleCtx s c
  else
    let s := countStream (if kind = 3 then s else recordFault s c f 1) c 8 1
    if kind = 3 then
      let e := xent (jobOf s x.job) ja
      let q := demandFault s c x.job (xGa e ja) (xBarn e + ja % 2097152)
      setCtx q.1 c { x with st := .halted, fault := some f, pinned := if q.2 then some (xGa e ja) else none }
    else setCtx s c { x with st := .halted, fault := some f }

/-! ## STRM (R235, Table 04-11) -/

def strmDecode (w : Word128) : Check :=
  firstOf [failIf (!onlyBits w.toNat [(127, 106), (47, 37), (31, 22)]) 0x02, failIf (decide (1 < bits w 38 37)) 0x01]

def strmCtx (t : Thr) (w : Word128) : CtxId := { til := t.til, ctx := ⟨bits w 47 44, by
  unfold bits field
  exact Nat.lt_of_lt_of_le (Nat.mod_lt _ (by decide)) (by decide)⟩ }

/-- Makes a context RUNNING with a descriptor. -/
def openStream (s : State) (t : Thr) (c : CtxId) (desc : List Byte) (gr : Nat) : State :=
  let w := leNat desc
  let job := (til s t.til).job
  let s := setCtx s c { Ctx.reset with
    st := .running, desc := desc, base := (dget w dGB + gr) % 2 ^ 64, thread := t.n.val, job := job }
  let s := [(dUEE, dUE), (dDFE, dDF), (dDNE, dDONE)].foldl (fun s p =>
    if dflag w p.1 then claimSem s (dget w p.2) (claimKey c) else s) s
  countStream s c 1 1

/-- STRM with ACT 0 whose descriptor holds a mode: it waits at issue until the context is IDLE, and is complete
once the context has accepted it. A descriptor whose mode is not listed is refused by any start. -/
def strmStart (s : State) (t : Thr) (w : Word128) (mode : Nat) : Answer :=
  .next (issueTile s t w 0x0C [baseReg (bits w 127 106), regField w 43 39] (strmDecode w) (fun s =>
    let y := til s t.til
    let x := thread s t
    let ds := addrOf x (bits w 127 106)
    let c := strmCtx t w
    if bits w 38 37 ≠ 0 then .go s
    else match firstOf [addrCheck ds, regionCheck ds 128] with
      | some r => .refuse r
      | none =>
        let desc := hop y ds 128
        let m := dget (leNat desc) dMODE
        if m ≠ mode ∧ m ≤ 6 then .go s
        else if hazard y t.n.val [(ds, 128)] [] then .hold
        else if (ctxAt s c).st ≠ .idle then .room false
        else match descCheck s t (leNat desc) (regN x (regField w 43 39)) with
          | some r => .refuse r
          | none => .go (acceptDone (openStream (issueEnds s (tilKey t.til) t.n.val) t c desc (regN x (regField w 43 39))) t)))

def execLinear (t : Thr) (w : Word128) (s : State) : Answer := strmStart s t w 0
def execIndexed (t : Thr) (w : Word128) (s : State) : Answer := strmStart s t w 1
def execWalk (t : Thr) (w : Word128) (s : State) : Answer := strmStart s t w 2
def execRelayout (t : Thr) (w : Word128) (s : State) : Answer := strmStart s t w 3
def execSend (t : Thr) (w : Word128) (s : State) : Answer := strmStart s t w 4
def execRecv (t : Thr) (w : Word128) (s : State) : Answer := strmStart s t w 5
def execRelay (t : Thr) (w : Word128) (s : State) : Answer := strmStart s t w 6

/-- The writes of unsignalled chunks that a stop leaves made: a free number of the earliest (R235). -/
def stopWrites (s : State) (c : CtxId) : State :=
  let x := ctxAt s c
  let ws := (x.chunks.map (fun p => p.2.writes)).flatten
  if ws.isEmpty then s
  else
    let q := drawFree s
    let made := (ws.take (q.1 % (ws.length + 1))).filter (fun p => !p.2.isEmpty)
    if dflag x.d dDIR && decide (dget x.d dMODE ≤ 3) then
      made.foldl (fun s p =>
        match jobPut s x.job p.1 p.2 with
        | .go ls [] => if (storeGate s (srcTil c.til) ls).2 then (putLocal s (srcTil c.til) none ls).1 else s
        | _ => s) q.2
    else modTil q.2 c.til (fun y => { y with hopper := writeAll y.hopper (wrapAll made) })

/-- STRM_STOP (ACT 1): the context becomes IDLE; an IDLE one stays so. -/
def execStrmStop (t : Thr) (w : Word128) (s : State) : Answer :=
  .next (issueTile s t w 0x0C [] (strmDecode w) (fun s =>
    let c := strmCtx t w
    if bits w 38 37 ≠ 1 then .go s
    else if (ctxAt s c).st = .idle then .go (acceptDone s t)
    else .go (acceptDone (idleCtx (resolveRecord (stopWrites s c) c 3) c) t)))

end Sys2Proof.Machine
end

