-- ==== Sys2Proof/Machine/Streams.lean ====
section
/-! DEFINITION. What streams do (R238 to R260): chunks read, written and signalled, semaphore counts taken, walks,
re-layout, SEND, RECV and RELAY, and halted contexts resumed. -/
namespace Sys2Proof.Machine

/-! ## Rows of elements (R238 to R240) -/

/-- Bytes of the index array, from Hopper or a job address; past the Hopper they are out of range. -/
def readIndex (s : State) (c : CtxId) (x : Ctx) (off n : Nat) : Got :=
  let a := dget x.d dIB + off
  if dflag x.d dISP then jobRead s x.job (srcTil c.til) x.cache a n
  else if 8388608 < a + n then .fault 4 a
  else .ok (hop (til s c.til) a n)

/-- The row of an element with the index cursor after it, or what its index entry meets. -/
inductive Row where
  /-- none: a pad element -/
  | row (i : Option Nat) (cursor : Nat × Nat × Nat)
  | stop (g : Got)

def rowOfElem (s : State) (c : CtxId) (x : Ctx) (cur : Nat × Nat × Nat) (e : Nat) : Row :=
  if dget x.d dMODE ≠ 1 then .row (some e) cur
  else if dget x.d dIFMT = 0 then
    match readIndex s c x (4 * e) 4 with
    | .ok b => .row (if leNat b = 0xFFFFFFFF then none else some (leNat b)) cur
    | g => .stop g
  else if cur.2.2 ≠ 0 then .row (some cur.2.1) (cur.1, cur.2.1 + 1, cur.2.2 - 1)
  else
    match readIndex s c x (8 * cur.1) 8 with
    | .ok b =>
      let first := leNat (b.take 4)
      let n := leNat (b.drop 4)
      if n = 0 ∨ 65536 < n ∨ 0xFFFFFFFE < first + n - 1 then .stop (.fault 4 (dget x.d dIB + 8 * cur.1))
      else .row (some first) (cur.1 + 1, first + 1, n - 1)
    | g => .stop g

/-- The G-side address of a row. -/
def rowJa (x : Ctx) (i : Nat) : Nat := x.base + i * dget x.d dGSTR

/-- Why a run-ahead read is dropped, as its counter of `OD A700` (R248). -/
def dropCause (s : State) (x : Ctx) (ja n : Nat) : Option Nat :=
  let j := jobOf s x.job
  let ks := (granules ja n).map (fun p => placeRead j s p.1)
  if x.base + dget x.d dNROWS * dget x.d dGSTR < ja + n then some 7
  else if ks.any (fun k => decide (k = .fault 1)) then some 5
  else if ks.any (fun k => decide (k = .fault 3)) then some 6
  else none

/-- What a fault of a run-ahead index read counts as. -/
def dropOfKind (k : Nat) : Nat := if k = 1 then 5 else if k = 3 then 6 else 7

/-! ## Reading a chunk of a plain stream -/

/-- A chunk being read: the state, the chunk so far, what stopped it, and whether a read has been dropped. -/
structure Scan where
  s : State
  ch : Chunk
  /-- the index cursor after the elements tested so far -/
  cursor : Nat × Nat × Nat
  halt : Option Got
  dropped : Bool

/-- A read that may run ahead: the demand read, or the run-ahead read or its drop. -/
def aheadRead (s : State) (c : CtxId) (x : Ctx) (demand : Bool) (ja n : Nat) : Got ⊕ Nat :=
  match (if demand then none else dropCause s x ja n) with
  | some k => .inr k
  | none => .inl (jobRead s x.job (srcTil c.til) x.cache ja n)

/-- The bytes an element moves: its source and where they go, or a drop. -/
def readElem (s : State) (c : CtxId) (x : Ctx) (k : Nat) (demand : Bool) (e : Nat) (i : Option Nat) :
    (Got ⊕ Nat) × Nat :=
  let w := x.d
  let n := elemBytes w
  let h := rowAddr w k (e - k * (dget w dCM1 + 1))
  match i with
  | none => if dflag w dDIR then (.inl (.ok []), 0) else (.inl (.ok (zeros n)), h)
  | some i =>
    if dget w dNROWS ≤ i then
      (if demand then .inl (.fault 4 (rowJa x i)) else .inr 7, h)
    else if dflag w dDIR then (.inl (.ok (hopWrap (til s c.til) h n)), rowJa x i)
    else (aheadRead s c x demand (rowJa x i) n, h)

/-- The index entry of an element that lies on the G side has been read (R240). -/
def indexEntered (s : State) (c : CtxId) (x : Ctx) (cur : Nat × Nat × Nat) (e : Nat) : State :=
  let w := x.d
  if dget w dMODE ≠ 1 ∨ dflag w dISP = false then s
  else if dget w dIFMT = 0 then jobEntered s x.job (srcTil c.til) (dget w dIB + 4 * e) 4
  else if cur.2.2 ≠ 0 then s
  else jobEntered s x.job (srcTil c.til) (dget w dIB + 8 * cur.1) 8

/-- One element of a chunk. After a drop, later elements are only tested for drops of their own; with IFMT 1, a dropped index
entry leaves the later ones unknown. -/
def scanElem (c : CtxId) (x : Ctx) (k : Nat) (demand : Bool) (r : Scan) (e : Nat) : Scan :=
  if r.halt.isSome then r
  else match rowOfElem r.s c x r.cursor e with
    | .stop (.fault kind ja) =>
      if demand then { r with halt := some (.fault kind ja) }
      else { r with s := countStream r.s c (dropOfKind kind) 1, dropped := true,
                    halt := if dget x.d dIFMT = 0 then none else some (.ok []) }
    | .stop g => { r with halt := some g }
    | .row i cur =>
      match readElem r.s c x k demand e i with
      | (.inr cause, _) => { r with s := countStream r.s c cause 1, dropped := true, cursor := cur }
      | (.inl (.ok b), a) =>
        if r.dropped then { r with cursor := cur }
        else
          let ch := r.ch
          let s := indexEntered r.s c x r.cursor e
          let s := match i with
            | some i => if dflag x.d dDIR then s else jobEntered s x.job (srcTil c.til) (rowJa x i) b.length
            | none => s
          { r with s := s, cursor := cur, ch := { ch with next := e + 1, cursor := cur, pads := ch.pads + boolNat i.isNone,
                                                          inElem := false, writes := ch.writes ++ [(a, b)] } }
      | (.inl g, _) => { r with halt := some g }

/-- Elements that a read goes on with: while the Harrow is not RUNNING, only the one under way (R254). -/
def elemsNow (s : State) (first stop : Nat) : List Nat :=
  (upto (if running s 0x20 then stop - first else min 1 (stop - first))).map (fun i => first + i)

/-- Hopper bytes of the elements read so far are in place when a later element faults (R251). -/
def partialWrites (s : State) (c : CtxId) (x : Ctx) (ch : Chunk) : State :=
  if dflag x.d dDIR then s
  else modTil s c.til (fun y => { y with hopper := writeAll y.hopper (wrapAll ch.writes) })

/-- Requests that a context may still have outstanding: 64 of its own, within the 512 of its Tiller (R247). -/
def askRoom (s : State) (c : CtxId) : Nat :=
  let own := fun (n : Nat) (_ : Ctx) => decide (n = c.ctx.val)
  min (64 - (contextAsked s own c.til + contextHeld s own c.til)) (512 - tillerAll s c.til)

/-- The element under way of chunk k has requests out. -/
def markElem (chunks : KV Chunk) (k : Nat) : KV Chunk :=
  match kvFind chunks k with
  | some ch => kvPut chunks k { ch with inElem := true }
  | none => chunks

/-- What a read has met: a fault, remote lines to ask for, a wait, or an uncorrectable sector. -/
def meet (s : State) (c : CtxId) (elem chunk : Nat) (g : Got) : State :=
  let x := ctxAt s c
  match g with
  | .ok _ => s
  | .fault k ja => streamFault s c k ja elem chunk
  | .wait s => s
  | .bad s => unitError s x.job
  | .remote lines =>
    let r := askLines s x.job (askRoom s c) x.asked lines (fun ja => .streamRead c ja)
    let y := ctxAt r.1 c
    let s := setCtx r.1 c { y with asked := r.2.1, chunks := if r.2.1.isEmpty then y.chunks else markElem y.chunks chunk }
    if r.2.2 then unitError s x.job else s

/-! ## Writes of a DIR 1 chunk to job addresses (R243, R247, R251) -/

/-- The first n bytes of the head chunk's oldest write have gone, in so many remote writes. -/
def wrote (s : State) (c : CtxId) (ch : Chunk) (p : Nat × List Byte) (n sent : Nat) : State :=
  let y := ctxAt s c
  let rest := p.2.drop n
  let ch := { ch with writes := (if rest.isEmpty then [] else [(p.1 + n, rest)]) ++ ch.writes.drop 1, inElem := !rest.isEmpty }
  setCtx s c { y with chunks := kvPut y.chunks y.done ch, remoteWrites := some (y.remoteWrites.getD 0 + sent) }

/-- The next piece of the oldest write, within one granule and within the room for requests; false where it waits, faults, or
meets an error. -/
def writeOne (s : State) (c : CtxId) (ch : Chunk) (p : Nat × List Byte) : State × Bool :=
  let x := ctxAt s c
  let room := askRoom s c
  match granules p.1 p.2.length with
  | [] => (wrote s c ch p 0 0, true)
  | g :: _ =>
    let b := p.2.take g.2
    match placeWrite (jobOf s x.job) s p.1 g.2 with
    | .fault k => (streamFault s c k p.1 (ch.next - ch.writes.length) x.done, false)
    | .remote m ga =>
      let b := b.take (64 * room)
      if b.isEmpty then (s, false)
      else
        let q := sendRequest s (.streamWrite c) x.job m (jobOf s x.job).man.mvc ga (ceilDiv b.length 64) true b
        match q.2 with
        | .sent => (wrote q.1 c ch p b.length 1, true)
        | .wait => (q.1, false)
        | .unreachable => (unitError q.1 x.job, false)
    | .local ga =>
      if room < (if mustHold s ga b.length then ceilDiv b.length 64 else 1) then (s, false)
      else
        let q := storeGate s (srcTil c.til) [(ga, b)]
        if !q.2 then (q.1, false)
        else
          let put := putLocal q.1 (srcTil c.til) (some c) [(ga, b)]
          let s := wrote put.1 c ch p b.length 0
          if put.2 then (unitError s x.job, false) else (releasePin s c, true)

/-- The writes of the head chunk, as far as they go; while the Harrow is not RUNNING, those of the element under way (R254). -/
def writeRest (c : CtxId) : Nat → State → State
  | 0, s => s
  | n + 1, s =>
    let x := ctxAt s c
    match kvFind x.chunks x.done with
    | some ch =>
      match ch.writes with
      | p :: _ =>
        if running s 0x20 || ch.inElem then
          let r := writeOne s c ch p
          if r.2 then writeRest c n r.1 else r.1
        else s
      | [] => s
    | none => s

/-- The most pieces that a chunk's writes make. -/
def writePieces (ch : Chunk) : Nat := ch.writes.foldl (fun n p => n + p.2.length / 4096 + 3) 0

/-- Every write of the head chunk so far has gone and is performed. -/
def writesDone (s : State) (c : CtxId) : Bool :=
  let x := ctxAt s c
  decide (x.st = .running ∧ x.remoteWrites.getD 0 = 0) && !s.held.any (fun h => decide (h.ctx = some c))
    && (match kvFind x.chunks x.done with
      | some ch => ch.writes.isEmpty
      | none => true)

/-- No other chunk of the context waits for what its remote reads bring. -/
def lastReading (x : Ctx) (k : Nat) : Bool := x.chunks.all (fun p => decide (p.1 = k ∨ p.2.next = p.2.stop))

/-- A wait carries the state with its snoops; the context's own progress is kept in it. The index cursor is known once every
element has been tested. Where an element of a DIR 1 chunk faults, the writes of the earlier ones are performed first (R251). -/
def meetScan (c : CtxId) (k : Nat) (r : Scan) : State :=
  let x := ctxAt r.s c
  let done := decide (r.ch.next = r.ch.stop)
  let ch := if r.halt.isNone then { r.ch with after := some r.cursor } else r.ch
  let keep := fun (s : State) =>
    let y := ctxAt s c
    setCtx s c { y with chunks := kvPut y.chunks k ch, cursor := if k + 1 = y.nextChunk then ch.after.getD y.cursor else y.cursor,
                        cache := if done && lastReading y k then [] else y.cache }
  match r.halt with
  | none =>
    let s := keep r.s
    if x.pinned.isSome && done then releasePin s c else s
  | some (.fault kind ja) =>
    let s := partialWrites (keep r.s) c x r.ch
    if dflag x.d dDIR then
      let s := writeRest c (writePieces r.ch) s
      if writesDone s c then streamFault s c kind ja r.ch.next k else s
    else streamFault s c kind ja r.ch.next k
  | some (.wait s) => keep s
  | some (.bad s) => unitError (keep s) x.job
  | some g => meet (keep r.s) c r.ch.next k g

/-- Where chunk k starts is known: at a fixed element, after a TILE chunk once it is gathered, and with IFMT 1 once the index
entries of the chunk before it are read (R240, R242). -/
def startKnown (x : Ctx) (k : Nat) : Bool :=
  match kvFind x.chunks (k - 1) with
  | none => true
  | some p =>
    if dflag x.d dTILE then decide (p.next = p.stop)
    else if dget x.d dMODE = 1 ∧ dget x.d dIFMT = 1 then p.after.isSome
    else true

/-- Whether the context may begin to read chunk k: its UF count, DE credit, room in its slots, and a known start (R244,
R247). -/
def mayBegin (x : Ctx) (k : Nat) : Bool :=
  let w := x.d
  decide (k = x.nextChunk) && !exhausted x && (!dflag w dUFE || decide (k < x.uf)) &&
  (!dflag w dDEE || decide (k < x.de + dget w dNSLOT)) && decide (k < x.done + dget w dNSLOT) && (decide (k = 0) || startKnown x k)

/-- Begins or continues chunk k of a plain stream. -/
def readPlain (s : State) (c : CtxId) (x : Ctx) (k : Nat) : State :=
  let per := dget x.d dCM1 + 1
  let demand := decide (k = x.done)
  let go := fun (s : State) (x : Ctx) (ch : Chunk) =>
    let es := elemsNow s ch.next ch.stop
    let r := es.foldl (scanElem c x k demand) { s := s, ch := ch, cursor := ch.cursor, halt := none, dropped := false }
    meetScan c k { r with ch := { r.ch with dropped := r.dropped, inElem := r.ch.inElem && !r.dropped },
                          halt := if r.halt.isNone && es.length < ch.stop - ch.next then some (.ok []) else r.halt }
  match kvFind x.chunks k with
  | some ch =>
    if ch.readDone || (ch.dropped && !demand) || decide (ch.next = ch.stop) then s else go s x ch
  | none =>
    if !mayBegin x k || !running s 0x20 then s
    else
      let stop := min (k * per + per) (dget x.d dNE)
      let ch : Chunk := { Chunk.reset with first := k * per, stop := stop, next := k * per, cursor := x.cursor }
      let x := { x with nextChunk := k + 1, nextElem := stop, chunks := kvPut x.chunks k ch }
      go (setCtx s c x) x ch

/-! ## Gathering rows of tiles (R242) -/

/-- A gather under way: the chunk so far, whether a format break ends it, and what stopped it. -/
structure Gather where
  s : State
  ch : Chunk
  broken : Bool
  halt : Option Got
  drop : Option Nat

/-- A source tile's header, checked (R216, R219), A layout. -/
def sourceHeader (s : State) (c : CtxId) (x : Ctx) (demand : Bool) (ja : Nat) : (Got ⊕ Nat) × Hdr :=
  match aheadRead s c x demand ja 64 with
  | .inl (.ok b) =>
    let h := Hdr.parse b
    if (hdrReason b).isSome || decide (h.size ≠ tileSize h ∨ h.layout ≠ 0) then (.inl (.fault 5 ja), h)
    else (.inl (.ok b), h)
  | r => (r, Hdr.parse [])

/-- What a row's tile must agree on with its chunk's first row. -/
def tileKey (h : Hdr) : Nat × Int × Nat := (h.fmt, h.t, h.km1)

/-- Bytes of a row of a source tile: element, scale and side, each with its address in the tile. -/
def rowParts (h : Hdr) (ja r : Nat) : List (Nat × Nat) :=
  [(ja + sliceOff h r 0, h.groups * sliceOf h.fmt), (ja + scaleOff h r 0, if blockScaled h.fmt then h.groups else 0),
   (ja + sideOff h r 0, if h.fmt = 0xD then h.groups else 0)]

/-- The element, scale and side bytes of a row of a source tile; the first part that cannot be read, or whose run-ahead read is
dropped (R248), is the answer. -/
def gatherRow (s : State) (c : CtxId) (x : Ctx) (demand : Bool) (h : Hdr) (ja r : Nat) : Got ⊕ Nat :=
  (rowParts h ja r).foldl (fun g p => match g with
    | .inl (.ok b) => if p.2 = 0 then .inl (.ok b) else match aheadRead s c x demand p.1 p.2 with
      | .inl (.ok b') => .inl (.ok (b ++ b'))
      | g => g
    | g => g) (.inl (.ok []))

/-- The bytes of a pad row: zero codes under scale 0x7F (R242). -/
def padRow (h : Hdr) : List Byte :=
  zeros (h.groups * sliceOf h.fmt) ++ List.replicate (if blockScaled h.fmt then h.groups else 0) 0x7F
    ++ zeros (if h.fmt = 0xD then h.groups else 0)

/-- The header and the row of an element have been read. -/
def rowEntered (s : State) (c : CtxId) (x : Ctx) (h : Hdr) (ja r : Nat) : State :=
  ((ja, 64) :: rowParts h ja r).foldl (fun s p => jobEntered s x.job (srcTil c.til) p.1 p.2) s

/-- The next row joins the chunk, or ends it. -/
def gatherElem (c : CtxId) (x : Ctx) (demand : Bool) (r : Gather) (e : Nat) : Gather :=
  let w := x.d
  let ch := r.ch
  let take := fun (s : State) (row : Option (List Byte)) (head : List Byte) (cur : Nat × Nat × Nat) =>
    { r with s := indexEntered s c x ch.cursor e,
             ch := { ch with next := e + 1, cursor := cur, rows := ch.rows ++ [row], head := head, inElem := false,
                             pads := ch.pads + boolNat row.isNone } }
  let fail := fun (k ja : Nat) => if demand then { r with halt := some (.fault k ja) } else { r with drop := some (dropOfKind k) }
  if r.broken || r.halt.isSome || r.drop.isSome then r
  else match rowOfElem r.s c x ch.cursor e with
    | .stop (.fault k ja) => fail k ja
    | .stop g => { r with halt := some g }
    | .row none cur => take r.s none ch.head cur
    | .row (some i) cur =>
      let per := dget w dSRM1 + 1
      let ja := rowJa x (i / per)
      if dget w dNROWS ≤ i then fail 4 ja
      else match sourceHeader r.s c x demand ja with
        | (.inr k, _) => { r with drop := some k }
        | (.inl (.ok b), h) =>
          if h.rows ≤ i % per then { r with halt := some (.fault 5 ja) }
          else if !ch.head.isEmpty && decide (tileKey (Hdr.parse ch.head) ≠ tileKey h) then { r with broken := true }
          else match gatherRow r.s c x demand h ja (i % per) with
            | .inl (.ok row) => take (rowEntered r.s c x h ja (i % per)) (some row) (if ch.head.isEmpty then b else ch.head) cur
            | .inl g => { r with halt := some g }
            | .inr k => { r with drop := some k }
        | (.inl g, _) => { r with halt := some g }

/-- The A-layout tile of gathered rows at its slot: header, element rows, scales and sides. -/
def gatherTile (old : List Byte) (dst : Nat) (h0 : Hdr) (rows : List (List Byte)) : Hdr × List (Nat × List Byte) :=
  let h := newHdr old h0.fmt h0.pfmt h0.cls rows.length h0.cols 0 h0.t
  let eb := h.groups * sliceOf h.fmt
  let sb := if blockScaled h.fmt then h.groups else 0
  let elems := (rows.map (fun r => padTo (rowBytes h) (r.take eb))).flatten
  let scales := padTo (scaleArray h) (rows.map (fun r => (r.drop eb).take sb)).flatten
  let sides := padTo (sideArray h) (rows.map (fun r => r.drop (eb + sb))).flatten
  (h, [(dst, h.bytes ++ elems ++ scales ++ sides)])

/-- The tile of a gathered chunk, at its slot. -/
def chunkTile (s : State) (c : CtxId) (w k : Nat) (ch : Chunk) (h0 : Hdr) : Hdr × List (Nat × List Byte) :=
  let dst := slotAddr w k
  gatherTile (hop (til s c.til) dst 64) dst h0 (ch.rows.map (fun r => r.getD (padRow h0)))

/-- A gathered tile fits its slot (R242). -/
def tileFits (w : Nat) (h : Hdr) : Bool := decide (64 * dget w dHDR + h.size ≤ dget w dHSLOT)

/-- A gathered chunk is complete: its tile is to be written. -/
def finishTile (s : State) (c : CtxId) (k : Nat) (ch : Chunk) (writes : List (Nat × List Byte)) : State :=
  let y := ctxAt s c
  let ch := { ch with stop := ch.next, writes := writes, after := some ch.cursor, rows := [], head := [] }
  releasePin (setCtx s c { y with chunks := kvPut y.chunks k ch, nextChunk := k + 1, nextElem := ch.next,
                                  cursor := ch.cursor, cache := [] }) c

/-- Begins or continues chunk k of a TILE stream: its rows end at CM1 + 1, at a format break, or with the stream. The rows
gathered stay gathered where a later one faults or waits (R251). What a run-ahead read would fault on is left to the demand
read (R248, R249). -/
def readTile (s : State) (c : CtxId) (x : Ctx) (k : Nat) : State :=
  let w := x.d
  let demand := decide (k = x.done)
  let fresh : Chunk := { Chunk.reset with first := x.nextElem, stop := x.nextElem + 1, next := x.nextElem, cursor := x.cursor }
  let ch0 := (kvFind x.chunks k).getD fresh
  if (ch0.dropped && !demand) || !mayBegin x k then s
  else
    let last := min (ch0.first + dget w dCM1 + 1) (dget w dNE)
    let r := (elemsNow s ch0.next last).foldl (gatherElem c x demand)
      { s := s, ch := { ch0 with dropped := false }, broken := false, halt := none, drop := none }
    let keep := fun (s : State) (dropped : Bool) =>
      let y := ctxAt s c
      setCtx s c { y with chunks := kvPut y.chunks k { r.ch with stop := r.ch.next + 1, dropped := dropped,
                                                                 inElem := r.ch.inElem && !dropped } }
    let stopped := fun (g : Got) => match g with
      | .fault kind ja =>
        if demand then streamFault (keep r.s false) c kind ja r.ch.next k
        else keep (if kind = 1 ∨ kind = 3 then countStream r.s c (dropOfKind kind) 1 else r.s) true
      | .wait s => keep s false
      | .bad s => unitError (keep s false) x.job
      | g => meet (keep r.s false) c r.ch.next k g
    let finish := fun (s : State) (h0 : Hdr) =>
      let t := chunkTile s c w k r.ch h0
      if tileFits w t.1 then finishTile (if r.broken then countStream s c 11 1 else s) c k r.ch t.2
      else if demand then streamFault (if r.broken then countStream s c 11 1 else s) c 6 x.base ch0.first k
      else keep s true
    match r.drop, r.halt with
    | some cause, _ => keep (countStream r.s c cause 1) true
    | none, some g => stopped g
    | none, none =>
      if !running s 0x20 then keep r.s false
      else if !r.ch.head.isEmpty then finish r.s (Hdr.parse r.ch.head)
      else match sourceHeader r.s c x demand x.base with
        | (.inr cause, _) => keep (countStream r.s c cause 1) true
        | (.inl (.ok b), h) => finish (jobEntered r.s x.job (srcTil c.til) x.base b.length) h
        | (.inl g, _) => stopped g

/-! ## Re-layout (R256) -/

/-- A tile in the other layout of R217, every element, scale and side byte unchanged. -/
def relayoutTile (b : List Byte) : List Byte :=
  let h := Hdr.parse b
  let g := { h with layout := 1 - h.layout }
  let g := { g with size := tileSize g }
  let rd := fun a n => (b.drop a).take n
  let slice := fun r i => rd (sliceOff h r i) (sliceOf h.fmt)
  let byte := fun (off : Hdr → Nat → Nat → Nat) (n : Nat) =>
    if n = 0 then []
    else if g.layout = 0 then
      padTo n ((upto g.rows).map (fun r => ((upto g.groups).map (fun i => rd (off h r i) 1)).flatten)).flatten
    else padTo n ((upto g.groups).map (fun i => ((upto g.rows).map (fun r => rd (off h r i) 1)).flatten)).flatten
  let elems := if g.layout = 0 then
      ((upto g.rows).map (fun r => padTo (rowBytes g) ((upto g.groups).map (fun i => slice r i)).flatten)).flatten
    else ((upto g.groups).map (fun i => padTo (groupBytes g) ((upto g.rows).map (fun r => slice r i)).flatten)).flatten
  g.bytes ++ elems ++ byte scaleOff (scaleArray g) ++ byte sideOff (sideArray g)

/-- A tile's header passes R216 and R219. -/
def headerOk (b : List Byte) : Bool := (hdrReason b).isNone && decide ((Hdr.parse b).size = tileSize (Hdr.parse b))

def readRelayout (s : State) (c : CtxId) (x : Ctx) (k : Nat) : State :=
  let w := x.d
  let keep := fun (s : State) (a : Nat) (b : List Byte) =>
    let y := ctxAt s c
    let ch : Chunk := { Chunk.reset with stop := 1, next := 1, writes := [(a, b)] }
    releasePin (setCtx s c { y with chunks := kvPut y.chunks k ch, nextChunk := 1, nextElem := 1, cache := [] }) c
  if !mayBegin x k then s
  else if dflag w dDIR then
    let hb := dget w dHB
    let b := hop (til s c.til) hb 64
    if !headerOk b then streamFault s c 5 hb 0 0
    else keep s x.base (relayoutTile (hopWrap (til s c.til) hb (Hdr.parse b).size))
  else
    match jobRead s x.job (srcTil c.til) x.cache x.base 64 with
    | .ok b =>
      if !headerOk b then streamFault s c 5 x.base 0 0
      else match jobRead s x.job (srcTil c.til) x.cache x.base (Hdr.parse b).size with
        | .ok all =>
          let out := relayoutTile all
          if dget w dHSLOT < out.length then streamFault s c 6 x.base 0 0
          else keep (jobEntered s x.job (srcTil c.til) x.base all.length) (dget w dHB) out
        | g => meet s c 0 0 g
    | g => meet s c 0 0 g

/-! ## Walks (R171 to R177, R255) -/

/-- Fields of a Windrow table header (Table 05-5). -/
def wtL (h : Nat) : Nat := field h 96 32
def wtTb (h : Nat) : Nat := field h 64 32
def wtFmt (h : Nat) : Nat := field h 32 4
def wtD (h : Nat) : Nat := if bitAt h 24 then 128 else 64
def wtHpp (h : Nat) : Nat := field h 16 8 + 1
def wtS (h : Nat) : Nat := field h 0 16

/-- A header that no table has. -/
def tableBad (h : Nat) : Bool :=
  decide (field h 128 384 ≠ 0 ∨ field h 36 28 ≠ 0 ∨ field h 25 7 ≠ 0 ∨ 128 < wtHpp h ∨ wtS h = 0 ∨ 16384 < wtS h
    ∨ wtTb h % 64 ≠ 0 ∨ 1048576 < wtL h ∨ wtFmt h = 0xF)

/-- WALK_LATCH: the walk latches its table and reads its header; it waits while stores are held for the table. DESIGN CHOICE (log
entry 79): a header that no table has is stream fault kind 5, and a head slot at or above HPP kind 4. -/
def execWalkLatch (c : CtxId) (s : State) : Answer :=
  let x := ctxAt s c
  let ta := dget x.d dTA
  if !streamOn s c || decide (dget x.d dMODE ≠ 2) || x.latched then .next s
  else if s.held.any (fun h => overlap (tableSpan s ta) (h.ga, h.bytes.length)) then
    if x.deQueued then .next s else .next (setCtx (bump s 0xA480 3 1) c { x with deQueued := true })
  else
    match localRead s (srcTil c.til) ta 64 with
    | .ok b =>
      let s := bump { s with latches := kvSet [] s.latches ta (kvGet [] s.latches ta ++ [c]) } 0xA480 2 1
      let s := setCtx (entered s (srcTil c.til) ta 64) c { x with latched := true, table := b }
      if tableBad (leNat b) then .next (streamFault s c 5 ta 0 0)
      else if wtHpp (leNat b) ≤ dget x.d dHSL then .next (streamFault s c 4 ta 0 0)
      else .next s
    | g => .next (meet s c 0 0 g)

/-- The pages of a walk. -/
def walkPages (x : Ctx) : List Nat := (upto (dget x.d dPCM1 + 1)).map (fun i => dget x.d dN0 + i)

/-- A table entry whose reserved bit [62] is set is refused (Table 05-6, R10). -/
def entryRefused (e : List Byte) : Bool := bitAt (leNat e) 62

/-- WALK_RELEASE: the walk reads its last entry and releases the table; the last release performs the held stores. -/
def execWalkRelease (c : CtxId) (s : State) : Answer :=
  let x := ctxAt s c
  let ta := dget x.d dTA
  if !streamOn s c || !x.latched || x.released then .next s
  else
    let S := wtS (leNat (x.table.take 64))
    let reads := (walkPages x).map (fun n => localRead s (srcTil c.til) (ta + 64 + 8 * (n % S)) 8)
    match reads.find? (fun g => match g with | .ok _ => false | _ => true) with
    | some g => .next (meet s c 0 0 g)
    | none =>
      let es := reads.map (fun g => match g with | .ok b => b | _ => [])
      let s := (walkPages x).foldl (fun s n => entered s (srcTil c.til) (ta + 64 + 8 * (n % S)) 8) s
      let s := releaseLatch (setCtx s c { x with released := true, table := x.table.take 64 ++ es.flatten }) c ta
      .next (if es.any entryRefused then streamFault s c 5 ta 0 0 else s)

/-- A page of a walk: its K and V tiles' addresses where it is valid (R172). -/
def walkPage (x : Ctx) (i : Nat) : Option (Nat × Nat) :=
  let h := leNat (x.table.take 64)
  let n := dget x.d dN0 + i
  let e := leNat ((x.table.drop (64 + 8 * i)).take 8)
  if bitAt e 63 && decide (field e 48 14 = n % 16384 ∧ 64 * n < wtL h) then
    let a := field e 0 48
    some (a + 2 * dget x.d dHSL * wtTb h, a + (2 * dget x.d dHSL + 1) * wtTb h)
  else none

/-- A page tile: its header and all its bytes, checked: KFMT, W layout, lanes and blocked extent. DESIGN CHOICE (log entry 79): a
page address that is misaligned or beyond the Granary is stream fault kind 4. -/
def pageTile (s : State) (c : CtxId) (a fmt lanes k tb : Nat) : Got :=
  if granaryBytes < a + tb ∨ a % 64 ≠ 0 then .fault 4 a
  else match localRead s (srcTil c.til) a tb with
    | .ok b =>
      let h := Hdr.parse b
      if headerOk (b.take 64) && decide (h.fmt = fmt ∧ h.layout = 1 ∧ h.rows = lanes ∧ h.cols = k ∧ h.size ≤ tb) then .ok b
      else .fault 5 a
    | g => g

/-- A lane's group of a page tile, or zero codes under scale 0x7F: slice, scale and side bytes. -/
def laneGroup (fmt : Nat) (b : Option (List Byte)) (r g : Nat) : GroupData :=
  match b with
  | none => { slice := zeros (sliceOf fmt), scale := 0x7F, side := 0 }
  | some b => readGroup (fun a n => (b.drop a).take n) 0 (Hdr.parse b) r g

/-- The W-layout tile of lanes whose groups are given. -/
def laneTile (old : List Byte) (h0 : Hdr) (lanes k : Nat) (at_ : Nat → Nat → GroupData) : Hdr × List Byte :=
  let h := newHdr old h0.fmt h0.pfmt h0.cls lanes k 1 h0.t
  let gs := (upto h.groups).map (fun g => (upto lanes).map (fun r => at_ r g))
  let elems := (gs.map (fun l => padTo (groupBytes h) (l.map (·.slice)).flatten)).flatten
  let scales := padTo (scaleArray h) (gs.flatten.map (fun d => BitVec.ofNat 8 d.scale))
  let sides := padTo (sideArray h) (gs.flatten.map (fun d => BitVec.ofNat 8 d.side))
  (h, h.bytes ++ elems ++ scales ++ sides)

/-- The key-valid bitmap of a walk (R172). -/
def walkBitmap (x : Ctx) : List Byte :=
  let L := wtL (leNat (x.table.take 64))
  let bits := (upto (64 * (dget x.d dPCM1 + 1))).map (fun j =>
    (walkPage x (j / 64)).isSome && decide (64 * dget x.d dN0 + j < L))
  toLe 32 ((bits.zip (upto bits.length)).foldl (fun n p => if p.1 then n + 2 ^ p.2 else n) 0)

/-- Copies the pages of a walk into its K and V tiles. DESIGN CHOICE (log entry 79): page tiles of differing T are stream fault
kind 5. -/
def readWalk (s : State) (c : CtxId) (x : Ctx) : State :=
  let w := x.d
  let t := leNat (x.table.take 64)
  let d := wtD t
  let fmt := wtFmt t
  let pc := dget w dPCM1 + 1
  if !x.released || exhausted x then s
  else
    let pages := (upto pc).map (walkPage x)
    let ks := pages.map (fun p => p.map (fun a => pageTile s c a.1 fmt 64 d (wtTb t)))
    let vs := pages.map (fun p => p.map (fun a => pageTile s c a.2 fmt d 64 (wtTb t)))
    let bytes := fun (g : Option Got) => match g with
      | some (.ok b) => some b
      | _ => none
    match (ks ++ vs).find? (fun g => match g with | some (.ok _) => false | some _ => true | none => false) with
    | some (some g) => meet s c 0 0 g
    | _ =>
      let kb := ks.map bytes
      let vb := vs.map bytes
      let plain : Hdr :=
        { user := 0, size := 0, rm1 := 0, km1 := 0, t := 0, cls := 0, pfmt := fmt, esc := false, layout := 1, fmt := fmt }
      let headOf := fun (l : List (Option (List Byte))) => ((l.findSome? id).map Hdr.parse).getD plain
      let same := fun (l : List (Option (List Byte))) => l.all (fun b => match b with
        | some b => decide ((Hdr.parse b).t = (headOf l).t)
        | none => true)
      if !same kb || !same vb then streamFault s c 5 (dget w dTA) 0 0
      else
        let hb := dget w dHB
        let hs := dget w dHSLOT
        let y := til s c.til
        let k := laneTile (hop y hb 64) (headOf kb) (64 * pc) d (fun r g => laneGroup fmt ((kb[r / 64]?).getD none) (r % 64) g)
        let v := laneTile (hop y (hb + hs) 64) (headOf vb) d (64 * pc) (fun r g => laneGroup fmt ((vb[g / 2]?).getD none) r (g % 2))
        if hs < k.1.size ∨ hs < v.1.size then streamFault s c 6 (dget w dTA) 0 0
        else
          let bad := (pages.filter Option.isNone).length
          let ch : Chunk := { Chunk.reset with writes := [(hb, k.2), (hb + hs, v.2), (hb + 2 * hs, walkBitmap x)] }
          let tiles := pages.flatMap (fun p => match p with | some a => [a.1, a.2] | none => [])
          let s := tiles.foldl (fun s a => entered s (srcTil c.til) a (wtTb t)) s
          let s := if bad = 0 then s else bump s 0xA480 4 (64 * bad)
          setCtx s c { x with chunks := kvPut x.chunks 0 ch, nextChunk := 1, nextElem := 1 }

/-! ## Tiller to Tiller (R257, R259) -/

def isReceiver (x : Ctx) : Bool := decide (dget x.d dMODE = 5) || (decide (dget x.d dMODE = 6) && !dflag x.d dHEAD)
def isSender (x : Ctx) : Bool := decide (dget x.d dMODE = 4) || (decide (dget x.d dMODE = 6) && !dflag x.d dTAIL)
def isRelay (x : Ctx) : Bool := decide (dget x.d dMODE = 6)

/-- The running receiver of a sender, which names it back. -/
def receiverOf (s : State) (c : CtxId) : Option CtxId :=
  let x := ctxAt s c
  match ctxOf (dget x.d dSUCC) (dget x.d dSCTX) with
  | none => none
  | some r =>
    let y := ctxAt s r
    if isSender x && decide (y.st ≠ .idle) && isReceiver y && decide (dget y.d dPRED = Machine.tilKey c.til)
        && decide (dget y.d dPCTX = c.ctx.val) then some r else none

/-- The sender of a receiver, which names it back. -/
def senderOf (s : State) (c : CtxId) : Option CtxId :=
  let x := ctxAt s c
  match ctxOf (dget x.d dPRED) (dget x.d dPCTX) with
  | none => none
  | some r => if isReceiver x && decide ((ctxAt s r).st ≠ .idle) && decide (receiverOf s r = some c) then some r else none

/-- Chunk slots a relay has freed: forwarded, or released by the tail's consumer. -/
def freedChunks (x : Ctx) : Nat := if dflag x.d dTAIL then x.de else x.sent

/-- Chunk k of a sender goes to its receiver, from its Hopper rows to the receiver's. -/
def passChunk (s : State) (c r : CtxId) (k : Nat) : State :=
  let x := ctxAt s c
  let y := ctxAt s r
  let per := dget x.d dCM1 + 1
  let n := min per (dget x.d dNE - k * per)
  let ws := (upto n).map (fun j => (rowAddr y.d k j, hopWrap (til s c.til) (rowAddr x.d k j) (elemBytes x.d)))
  let ch : Chunk := { Chunk.reset with first := k * per, stop := k * per + n, next := k * per + n, writes := ws, readDone := true }
  setCtx s r { y with chunks := kvPut y.chunks k ch }

/-- A relay forwards each chunk that its consumer has released and its successor has granted (R259), while it may act (R254). -/
def forwardOne (s : State) (c : CtxId) : State :=
  let x := ctxAt s c
  if !streamOn s c || !isRelay x || dflag x.d dTAIL || !decide (x.sent < x.de ∧ x.sent < x.granted) then s
  else match receiverOf s c with
    | none => s
    | some r => countStream (setCtx (passChunk s c r x.sent) c { x with sent := x.sent + 1 }) c 12 1

/-- CHUNK_GRANT: a receiver with credit for its next chunk grants it to its sender; the first grant compares the
two shapes (R257, R259). -/
def execChunkGrant (c : CtxId) (s : State) : Answer :=
  let x := ctxAt s c
  let w := x.d
  let k := x.grants
  let credit := if isRelay x then decide (k < freedChunks x + dget w dNSLOT)
    else !dflag w dDEE || decide (k < x.de + dget w dNSLOT)
  if !streamOn s c || !isReceiver x || decide (totalChunks w ≤ k) || !credit then .next s
  else match senderOf s c with
    | none => .next s
    | some r =>
      let v := (ctxAt s r).d
      if k = 0 ∧ (dget v dNE, dget v dELM1, dget v dCM1) ≠ (dget w dNE, dget w dELM1, dget w dCM1) then
        .next (streamFault (streamFault s c 7 0 0 0) r 7 0 0 0)
      else
        let s := setCtx s c { x with grants := k + 1 }
        let y := ctxAt s r
        .next (forwardOne (setCtx s r { y with granted := y.granted + 1 }) r)

/-- A SEND reads a granted chunk and sends it. -/
def readSend (s : State) (c : CtxId) (x : Ctx) (k : Nat) : State :=
  let w := x.d
  if !decide (k = x.nextChunk ∧ k < x.granted) || exhausted x || (dflag w dUFE && !decide (k < x.uf)) then s
  else match receiverOf s c with
    | none => s
    | some r =>
      let s := passChunk s c r k
      let stop := min ((k + 1) * (dget w dCM1 + 1)) (dget w dNE)
      setCtx s c { ctxAt s c with nextChunk := k + 1, nextElem := stop }

/-! ## The commands of a stream -/

/-- The Harrow is STOPPING, and the context has an element to finish (R254). -/
def finishing (s : State) (c : CtxId) : Bool :=
  let x := ctxAt s c
  decide ((fnGet s 0x20).st = .stopping ∧ x.st = .running) && elemUnderWay x

/-- STREAM_CHUNK_READ: the stream reads chunk k as far as it can. -/
def execStreamChunkRead (c : CtxId) (chunk : Nat) (s : State) : Answer :=
  let x := ctxAt s c
  if !streamOn s c && !finishing s c then .next s
  else match dget x.d dMODE with
    | 2 => .next (if running s 0x20 then readWalk s c x else s)
    | 3 => .next (readRelayout s c x chunk)
    | 4 => .next (if running s 0x20 then readSend s c x chunk else s)
    | 5 => .next s
    | 6 =>
      if dflag x.d dHEAD && (decide (chunk < freedChunks x + dget x.d dNSLOT)) then .next (readPlain s c x chunk)
      else .next s
    | _ => if dflag x.d dTILE then .next (readTile s c x chunk) else .next (readPlain s c x chunk)

/-- STREAM_SOURCE_READ_DONE: every read of the chunk's source has returned; UE is signalled in chunk order. -/
def execStreamSourceReadDone (c : CtxId) (chunk : Nat) (s : State) : Answer :=
  let x := ctxAt s c
  match kvFind x.chunks chunk with
  | none => .next s
  | some ch =>
    let first := (upto chunk).all (fun k => match kvFind x.chunks k with | some q => q.readDone | none => true)
    if !streamOn s c || ch.readDone || ch.dropped || decide (ch.next ≠ ch.stop) || !first then .next s
    else .next (streamSignal (setCtx s c { x with chunks := kvPut x.chunks chunk { ch with readDone := true } }) c dUEE dUE)

/-- A chunk's writes are performed: its counts, DF, and the receiver's acknowledgement (R243, R257). -/
def chunkDone (s : State) (c : CtxId) (ch : Chunk) : State :=
  let x := ctxAt s c
  let s := setCtx s c { x with done := x.done + 1, chunks := kvDrop x.chunks x.done, remoteWrites := none }
  let n := ch.stop - ch.first
  let s := streamSignal s c dDFE dDF
  match senderOf s c with
  | some r =>
    let y := ctxAt s r
    if dget y.d dMODE = 4 then
      let s := countStream (countStream (setCtx s r { y with done := y.done + 1 }) r 12 1) r 3 n
      streamSignal s r dUEE dUE
    else countStream s c 3 n
  | none => countStream (countStream s c 3 n) c 4 ch.pads

/-- STREAM_CHUNK_WRITTEN: the head chunk's writes are performed, and then announced; while the Harrow is STOPPING, the element
under way is finished (R254). -/
def execStreamChunkWritten (c : CtxId) (s : State) : Answer :=
  let x := ctxAt s c
  match kvFind x.chunks x.done with
  | none => .next s
  | some ch =>
    if (!streamOn s c && !finishing s c) || !ch.readDone then .next s
    else if dflag x.d dDIR && decide (dget x.d dMODE ≤ 3) then
      let s := writeRest c (writePieces ch) s
      .next (if streamOn s c && writesDone s c then chunkDone s c ch else s)
    else if !streamOn s c then .next s
    else .next (chunkDone (modTil s c.til (fun y => { y with hopper := writeAll y.hopper (wrapAll ch.writes) })) c ch)

/-- Takes one count from a semaphore at once, where no waiter stands before it (R140). -/
def takeOne (s : State) (name : Nat) : Option State :=
  let x := sem s name
  if x.waiters.isEmpty && decide (1 ≤ x.count) then some (setSem s name { x with count := x.count - 1 }) else none

def addWaiter (s : State) (name : Nat) (w : Waiter) : State :=
  let x := sem s name
  setSem s name { x with waiters := x.waiters ++ [w] }

/-- STREAM_UF_TAKEN: the stream takes, or queues for, the UF count of the next chunk it will read (R244). -/
def execStreamUfTaken (c : CtxId) (s : State) : Answer :=
  let x := ctxAt s c
  let name := dget x.d dUF
  if !streamOn s c || !dflag x.d dUFE || x.ufQueued || exhausted x || decide (x.uf ≠ x.nextChunk) then .next s
  else match takeOne s name with
    | some s => .next (setCtx s c { x with uf := x.uf + 1 })
    | none => .next (addWaiter (setCtx s c { x with ufQueued := true }) name (.stream c false))

/-- The chunk that the context needs DE credit for next. -/
def nextCredit (x : Ctx) : Nat := if isReceiver x then x.grants else x.nextChunk

/-- Whether the stream is to take a DE count now: for its next chunk, or after its last (R244); a relay, for each
chunk it has announced (R259). -/
def wantsDe (x : Ctx) : Bool :=
  let w := x.d
  let k := nextCredit x
  let last := if isReceiver x then decide (totalChunks w ≤ k) else exhausted x
  if isRelay x then decide (x.de < x.done)
  else if last then decide (x.done = k ∧ x.de < k)
  else decide (x.de + dget w dNSLOT ≤ k)

/-- STREAM_DE_TAKEN: the stream takes, or queues for, its next DE count. -/
def execStreamDeTaken (c : CtxId) (s : State) : Answer :=
  let x := ctxAt s c
  let name := dget x.d dDE
  if !streamOn s c || !dflag x.d dDEE || x.deQueued || !wantsDe x then .next s
  else match takeOne s name with
    | some s => .next (forwardOne (setCtx s c { x with de := x.de + 1 }) c)
    | none => .next (addWaiter (setCtx s c { x with deQueued := true }) name (.stream c true))

/-- A count reaches a stream that queued for it. -/
def serveStream (s : State) (c : CtxId) (de : Bool) : State :=
  let x := ctxAt s c
  if de then forwardOne (setCtx s c { x with de := x.de + 1, deQueued := false }) c
  else setCtx s c { x with uf := x.uf + 1, ufQueued := false }

/-- Every chunk is signalled and every DE count taken. -/
def streamFinished (x : Ctx) : Bool :=
  let w := x.d
  if isRelay x then decide (x.done = totalChunks w ∧ freedChunks x = totalChunks w)
  else
    let n := if isReceiver x then totalChunks w else x.nextChunk
    (isReceiver x || exhausted x) && decide (x.done = n) && (!dflag w dDEE || decide (x.de = n))

/-- STREAM_DONE: the stream signals DONE and ends. -/
def execStreamDone (c : CtxId) (s : State) : Answer :=
  let x := ctxAt s c
  if !streamOn s c || !streamFinished x then .next s
  else
    let s := countStream (streamSignal s c dDNE dDONE) c 2 1
    .next (progress (idleCtx s c) x.job)

/-! ## Halted contexts (R251) -/

/-- Whether the access that halted a context would fault again. -/
def stillInvalid (s : State) (x : Ctx) (f : StreamFault) : Bool :=
  decide (placeRead (jobOf s x.job) s f.ja = .fault 3)

/-- A context resumed goes on once the Harrow is RUNNING (R254). -/
def goOn (s : State) (c : CtxId) : State :=
  if running s 0x20 then setCtx s c { ctxAt s c with st := .running, fault := none } else setCtx s c { ctxAt s c with fault := none }

/-- STREAM_AUTO_RESUME: a context halted by a demand fault goes on once its granule is valid; where the bale
directory was full, the fault asks again. One that was resumed while the Harrow was not RUNNING goes on now. -/
def execStreamAutoResume (c : CtxId) (s : State) : Answer :=
  let x := ctxAt s c
  if x.st ≠ .halted ∨ running s 0x20 = false then .next s
  else match x.fault with
    | none => .next (goOn s c)
    | some f =>
      if f.kind ≠ 3 then .next s
      else if stillInvalid s x f then
        if x.pinned.isSome then .next s
        else
          let e := xent (jobOf s x.job) f.ja
          let q := demandFault s c x.job (xGa e f.ja) (xBarn e + f.ja % 2097152)
          .next (setCtx q.1 c { x with pinned := if q.2 then some (xGa e f.ja) else none })
      else .next (setCtx (bump s 0xA400 10 1) c { x with st := .running })

/-- Resumes a HALTED context; its accesses are made again from its saved position. -/
def resumeCtx (s : State) (c : CtxId) : State := goOn (resolveRecord (releasePin s c) c 2) c

/-- Abandons a HALTED context: the job ends as under abort. -/
def abandonCtx (s : State) (c : CtxId) : State :=
  let job := (ctxAt s c).job
  let s := countStream (resolveRecord s c 3) c 9 1
  let s := idleCtx s c
  match slotOf s job with
  | some i => endJob s i 5 0x02 true true
  | none => s

/-- Every context of the module. -/
def allCtxs (s : State) : List CtxId := s.tillers.flatMap (fun p => p.2.ctxs.filterMap (fun q => ctxOf p.1 q.1))

/-- Relays that may act forward what they could not while they might not (R254, R259). -/
def kickRelays (s : State) : State := (allCtxs s).foldl forwardOne s

/-- Demand faults that waited for room in the directory take it as it comes, the oldest first (R229). -/
def kickFaults (s : State) : State :=
  s.faultWait.foldl (fun s c =>
    match execStreamAutoResume c s with
    | .next t => t
    | _ => s) s

/-- HALTED contexts of the module, of one job or of all. -/
def haltedCtxs (s : State) (job : Option Nat) : List CtxId :=
  s.tillers.flatMap (fun p => (p.2.ctxs.filter (fun q => decide (q.2.st = .halted)
    && (match job with | some j => decide (q.2.job = j) | none => true))).filterMap (fun q => ctxOf p.1 q.1))

end Sys2Proof.Machine
end

