-- ==== Sys2Proof/Machine/Stall.lean ====
section
/-! DEFINITION. Stall causes (R231 to R233, R252, R254, R311, R312, Table 07-15): what a waiting thread is charged to, and the
longest wait. -/
namespace Sys2Proof.Machine

/-- The function of the port that a granule waits for: no port that it may use is RUNNING (R351). -/
def portWait (s : State) (barn : Nat) : Option Nat :=
  if (barnPort s barn).isSome then none else some (cxlFn (barnFirst s barn))

/-- The function whose port a bale's move or write-back waits for. -/
def baleWait (s : State) (b : Bale) : Option Nat :=
  let l := if b.st = .fetching then (invalidOf s b).filter (fun g => !(b.asked.map (·.1)).elem g)
    else if b.st = .dirty then dirtyOf s b else []
  l.findSome? (fun g => portWait s (barnOf b g))

/-- A Sowing entry in flight: an eviction deferred for a pin, a move or a write-back and a BIND are held; every other moves
through Barn, where its ports run. -/
def sowCause (s : State) (i layer : Nat) : Cause :=
  let held := s.bales.any (fun b =>
    b.onEvict.elem i && b.evictPending && decide (b.pins ≠ 0 ∨ b.st = .fetching ∨ b.st = .writing))
  let port := (s.bales.filter (fun b => b.onMove.elem i || b.onWrite.elem i || b.onEvict.elem i)).findSome? (baleWait s)
  match flightEntry s i, port with
  | some f, port =>
    if f.kind = 4 ∨ (f.kind = 2 ∧ held = true) then (10, i, layer)
    else match port with
      | some fn => (16, fn, 0)
      | none => (6, i, layer)
  | none, _ => (6, i, layer)

/-- The remote module that a stream's oldest transaction is for, or that its oldest request waits to be sent to (R288). -/
def streamModule (s : State) (c : CtxId) : Option Nat :=
  let mine := fun (o : TransOwner) => match o with
    | .streamRead d _ => decide (d = c)
    | .streamWrite d => decide (d = c)
    | _ => false
  match s.links.trans.find? (fun x => mine x.owner) with
  | some x => some x.dst
  | none => (s.links.limitWait.find? (fun q => mine q.2.1)).map (·.2.2)

/-- The job address of a stream's oldest incomplete request: of the next row of its oldest chunk, or of that chunk's first
write. -/
def streamJa (s : State) (c : CtxId) : Nat :=
  let x := ctxAt s c
  match x.chunks.find? (fun p => !p.2.readDone || dflag x.d dDIR) with
  | none => x.base
  | some (_, ch) =>
    if dflag x.d dDIR then ((ch.writes.head?).map (·.1)).getD x.base
    else match rowOfElem s c x ch.cursor ch.next with
      | .row (some i) _ => rowJa x (if dflag x.d dTILE then i / (dget x.d dSRM1 + 1) else i)
      | _ => x.base

/-- The Granary address of that request; of its table for a walk. -/
def streamGa (s : State) (c : CtxId) : Nat :=
  let x := ctxAt s c
  if dget x.d dMODE = 2 then dget x.d dTA else xGa (xent (jobOf s x.job) (streamJa s c)) (streamJa s c)

/-- A request of the stream's Tiller to that stack that waits for admission: at its bank's limit, or for a slot (R209, R210). -/
def streamSlot (s : State) (c : CtxId) : Option Cause :=
  let k := stackOf (streamGa s c)
  (s.slotWaits.find? (fun w => decide (w.source = srcTil c.til ∧ stackOf (64 * w.sector) = k))).map (fun w =>
    if bankFull s w.sector || rowCopying s w.sector then (3, k, bankKey (64 * w.sector)) else (2, k, 0))

/-- The contexts that a SEND, RECV or RELAY exchanges chunks with (R257, R259). -/
def streamPeers (x : Ctx) : List CtxId :=
  ((if isSender x then [(dget x.d dSUCC, dget x.d dSCTX)] else []) ++
    (if isReceiver x then [(dget x.d dPRED, dget x.d dPCTX)] else [])).filterMap (fun p => ctxOf p.1 p.2)

/-- The latched table whose walk holds back a store of the stream, or the table its own walk waits to latch (R176, R177). -/
def streamTable (s : State) (c : CtxId) : Option Nat :=
  let x := ctxAt s c
  if dget x.d dMODE = 2 then (if x.deQueued && !x.latched then some (dget x.d dTA) else none)
  else match s.held.find? (fun h => decide (h.ctx = some c)) with
    | some h => (s.latches.find? (fun p => overlap (tableSpan s p.1) (h.ga, h.bytes.length))).map (·.1)
    | none => none

/-- A stream halted on a demand fault waits for its granule, which may wait for a port (R252, R351). -/
def haltedCause (s : State) (c : CtxId) : Cause :=
  let x := ctxAt s c
  match (x.pinned.bind (baleAt s)).bind (baleWait s) with
  | some fn => (16, fn, 0)
  | none => (11, field ((x.fault.map (·.ja)).getD 0) 21 27, c.ctx.val)

/-- A stream: halted on a demand fault, held by its function or its peer's Field, held by walk protection, waiting for
another module or for admission, or moving through a stack of its own Field or of another (R232). -/
def streamCause (s : State) (c : CtxId) : Cause :=
  let x := ctxAt s c
  let k := stackOf (streamGa s c)
  if x.st = .halted then haltedCause s c
  else if !running s 0x20 then (16, 0x20, 0)
  else match (streamPeers x).find? (fun p => decide ((ctxAt s p).st ≠ .running)) with
    | some p => (16, p.til.field.val + 1, 0)
    | none => match streamTable s c with
      | some ta => (15, field ta 6 33, 0)
      | none => match streamModule s c with
        | some m => (5, m, 0)
        | none =>
          let e := xent (jobOf s x.job) (streamJa s c)
          if dget x.d dMODE ≠ 2 ∧ xKind e = 3 then (5, xModule e, 0)
          else (streamSlot s c).getD (if k = c.til.field.val then 2 else 4, k, 0)

/-- The semaphore that a running stream with no chunk under way waits on: UF, or DE (R246). -/
def streamSem (s : State) (c : CtxId) : Option Nat :=
  let x := ctxAt s c
  if !streamOn s c || !x.chunks.isEmpty || dget x.d dMODE = 2 || (streamPeers x).any (fun p => decide ((ctxAt s p).st ≠ .running))
  then none
  else if x.ufQueued then some (dget x.d dUF)
  else if x.deQueued then some (dget x.d dDE)
  else none

/-- Rotation late: the next round whose block is not complete here, and the position that its block comes from, this member's own
for the first round of a pass (R164, R168). -/
def rotCause (s : State) : Cause :=
  let r := s.rot
  let u := (((upto (r.slots + 1)).map (r.round + ·)).find? (fun u => !holdsRound r u)).getD r.round
  (12, u % 2 ^ 32, if roundIn r u = 0 then r.pos else sourceOf r u)

def awnCause (s : State) : Cause :=
  if !running s 0x30 then (16, 0x30, 0)
  else match s.awn.run with
    | some r => (14, r.index, r.tile)
    | none => (14, s.awn.next, 0)

/-- The position that a tile's result awaits at this member: its own, while it has still to post; the one before it in the
chain, while it has still to add; the owner's after that (R311). -/
def awaitedPos (g : Group) (w : Window) (t : Nat) : Nat :=
  let own := groupPos g
  let due := decide (g.cfg.kind ≠ 2 ∨ tileOwner g.cfg t = own)
  if due && !w.marker && !w.posted.elem t then own
  else if due && !w.handled.elem t && decide (g.cfg.kind ≠ 2 ∧ chainIndex g.cfg t own ≠ 1) then prevPos g.cfg t own
  else tileOwner g.cfg t

/-- A window of a group: the position that the oldest result still to be written awaits. -/
def stookCause (s : State) (gid lam : Nat) : Cause :=
  if !running s 0x50 then (16, 0x50, 0)
  else match groupAt s gid with
    | none => (13, gid, 0)
    | some g =>
      let w := windowAt g lam
      match (upto g.cfg.tiles).find? (fun t => mustWrite g t && !w.results.elem t) with
      | some t => (13, gid, awaitedPos g w t)
      | none => (13, gid, groupPos g)

/-- The tree level that this member awaits in a round, from 1. -/
def treeAwaits (s : State) (round : Nat) : Nat → Nat → Nat
  | 0, k => k
  | f + 1, k =>
    let i := treeIndex s s.stook.job
    let n := (jobModules s s.stook.job).length
    let unit := 32 ^ (k - 1)
    if n ≤ unit ∨ i % (32 * unit) ≠ 0 ∨ (treeGroup s round n i unit { s := 0, e := 0, bit := true }).isNone = true then k
    else treeAwaits s round f (k + 1)

/-- The scalar tree signals NSEM after this member's norm, and CSEM after its vote (R317). -/
def treeCause (s : State) (name : Nat) : Option Cause :=
  match s.stook.step with
  | none => none
  | some r =>
    if r.nsem = name ∧ s.stook.normSent.isSome = true then some (13, 0x0F, treeAwaits s 0 4 1)
    else if r.csem = name ∧ s.stook.vote.isSome = true then
      some (13, 0x0F, treeAwaits s (if s.stook.commitState = 2 then 2 else 1) 4 1)
    else none

/-- The present cause of a producer's claim. -/
def claimCause (s : State) (name : Nat) (p : Nat × Nat × Nat) : Cause :=
  match p.1 with
  | 1 => sowCause s p.2.1 p.2.2
  | 2 => match ctxOf p.2.1 p.2.2 with
    | some c => streamCause s c
    | none => (1, name, 0)
  | 3 => rotCause s
  | 4 => awnCause s
  | _ => stookCause s p.2.1 p.2.2

/-- The Sowing engine has taken its next entry, which waits under R228 and will signal this semaphore. -/
def entryCause (s : State) (name : Nat) : Option Cause :=
  match presentEntry s with
  | some (e, _) =>
    if e.sg && decide (e.sem = name) then (entryWait s e).map (fun c => (c, s.sowing.next, e.layer)) else none
  | none => none

/-- The stream of a claim that itself waits on a semaphore, as that semaphore's name. -/
def claimSemWait (s : State) (p : Nat × Nat × Nat) : Option Nat :=
  if p.1 = 2 then match ctxOf p.2.1 p.2.2 with
    | some c => streamSem s c
    | none => none
  else none

/-- What a semaphore reports: its oldest registered operation; none is registered on a peer's (R231). A stream that waits on
a semaphore of its own passes on what that one reports, over at most as many streams as n (R246). -/
def reportedCause (s : State) : Nat → Nat → Cause
  | 0, name => (1, name, 0)
  | n + 1, name =>
    match (sem s name).producers with
    | p :: _ => match claimSemWait s p with
      | some m => reportedCause s n m
      | none => claimCause s name p
    | [] => match entryCause s name with
      | some c => c
      | none => match treeCause s name with
        | some c => c
        | none => (1, name, 0)

/-- The cause a semaphore reports: a chain passes each of the module's 11 264 contexts once at most. -/
def semCause (s : State) (name : Nat) : Cause := reportedCause s 11265 name

/-- The context that a thread at issue waits for: its next instruction starts a stream on it (R235). -/
def issueCtx (s : State) (t : Thr) : Option CtxId :=
  let w : Word128 := BitVec.ofNat 128 (readLe (til s t.til).program (thread s t).pc.toNat 16)
  if bits w 31 27 = 0x1F ∧ bits w 26 22 = 0x0C ∧ bits w 38 37 = 0 then some (strmCtx t w) else none

/-- What a waiting thread is charged to in this tc; none where it does not wait. A thread at issue is charged while it waits for
the Granary requests of a stream. -/
def threadCause (s : State) (t : Thr) : Option Cause :=
  let x := thread s t
  match x.st with
  | .waitSem name _ _ => some (semCause s name)
  | .waitFence _ => some fenceCause
  | .ready =>
    if x.issueWait.isNone then none
    else match issueCtx s t with
      | some c => if (ctxAt s c).st = .idle then none else some (streamCause s c)
      | none => none
  | _ => none

/-- Thread n of a Tiller. -/
def thrOf (id n : Nat) : Option Thr :=
  match tilOf id with
  | some t => if h : n < 8 then some { til := t, n := ⟨n, h⟩ } else none
  | none => none

/-- The waiting threads of a Field with their causes. -/
def waiting (s : State) (f : Nat) : List (Nat × Nat × Cause) :=
  (s.tillers.filter (fun p => decide (p.1 / 256 = f))).flatMap (fun p =>
    p.2.threads.filterMap (fun q => match thrOf p.1 q.1 with
      | some t => (threadCause s t).map (fun c => (p.1, q.1, c))
      | none => none))

/-- Charges n tc of a Field to the causes of its waiting threads (`OD A410`). -/
def chargeField (s : State) (f n : Nat) : State :=
  if n = 0 then s
  else (waiting s f).foldl (fun s w =>
    let y := tilAt s w.1
    bump (setTilAt s w.1 (setThr y w.2.1 { thr y w.2.1 with cause := w.2.2 })) 0xA410 w.2.2.1 n) s

end Sys2Proof.Machine
end

