-- ==== Sys2Proof/Machine/Arrival.lean ====
section
/-! DEFINITION. Signals that arrive and waiters that are served (R137 to R140, R145, Table 04-18). -/
namespace Sys2Proof.Machine

/-- Whether what a signal must follow has happened: the thread's earlier tile instructions are complete, and stores
of its Tiller are performed (R139); an earlier signal of the thread to the semaphore has arrived (R145). -/
def sendable (s : State) (g : Signal) : Bool :=
  match g.src with
  | .thread t _ _ =>
    (til s t.til).flights.all (fun f => decide (f.thread ≠ t.n.val ∨ g.before ≤ f.id))
      && !s.held.any (fun h => decide (h.source = srcTil t.til))
      && s.signals.all (fun o => decide (g.id ≤ o.id ∨ o.sem ≠ g.sem) || match o.src with
        | .thread u _ _ => decide (u ≠ t)
        | _ => true)
  | _ => true

/-- A signal reaches a Headland unit (Table 04-18); a unit nobody holds any more lets it pass. -/
def unitSignal (s : State) (g : Signal) : State :=
  let unit := field g.sem 8 8
  let idx := field g.sem 0 6
  if unitHolder s unit idx = 0 then s
  else if unit = 0x30 then awnSignal s idx g
  else if unit = 0x40 then rotSignal s idx g.count
  else if unit = 0x5F then scalarSignal s idx g.count
  else if unit = 0x60 then (if idx < 2 then kickBinds (sowSignal s idx g.count) else addSem s g)
  else groupSignal s (unit - 0x50) idx g.count g.src

/-- SIGNAL_ARRIVAL: signal id reaches its block, and its count is added or acted on. -/
def execSignalArrival (id : Nat) (s : State) : Answer :=
  match s.signals.find? (fun g => decide (g.id = id)) with
  | none => .next s
  | some g =>
    if !sendable s g then .next s
    else
      let s := releaseSignals { s with signals := s.signals.filter (fun o => decide (o.id ≠ id)) }
      .next (if g.sem / 65536 = 8 then unitSignal s g else addSem s g)

/-- Wakes a thread whose WAIT has been served, charging its time (A210:05). -/
def wakeThread (s : State) (t : Thr) : State :=
  let x := thread s t
  match x.st with
  | .waitSem _ _ since =>
    let s := setThread s t { x with st := .ready }
    endWait (bumpTil s (tilKey t.til) 0xA210 5 (tcNow s t.til.field.val - since)) (tilKey t.til) t.n.val since
  | _ => s

/-- WAITER_SERVED: the oldest waiter of a semaphore takes its count (R140). -/
def execWaiterServed (name : Nat) (s : State) : Answer :=
  let x := sem s name
  match x.waiters with
  | [] => .next s
  | w :: rest =>
    let n := match w with
      | .thread _ n => n
      | .stream _ _ => 1
      | .sowing _ n => n
    if x.count < n then .next s
    else
      let s := setSem s name { x with count := x.count - n, waiters := rest }
      .next (match w with
        | .thread t _ => wakeThread s t
        | .stream c de => serveStream s c de
        | .sowing i _ => completeEntry s i 0)

end Sys2Proof.Machine
end

