-- ==== Sys2Proof/Machine/Riljo.lean ====
section
/-! DEFINITION. What flits carry between modules (R268, R284 to R289, R299, R318): remote reads and writes at their
target, responses and failed transactions at their source, urgent messages and Stook tiles. -/
namespace Sys2Proof.Machine

/-! ## Transactions that arrive in several flits -/

/-- Adds a flit's sectors to the transaction of its source and VC; once `total` bytes are there, they are answered, with the
number of flits they came in. -/
def gatherFlit (s : State) (p : Nat) (f : Flit) (typ : Nat) (total : List Byte → Nat) : State × Option (List Byte × Nat) :=
  let x := portAt s p
  let mine := fun (q : Nat × Nat × Nat × List Byte × Nat) => decide (q.1 = typ ∧ q.2.1 = f.src.toNat ∧ q.2.2.1 = f.vc.toNat)
  let old := match x.parts.find? mine with | some q => q.2.2.2 | none => ([], 0)
  let b := old.1 ++ (padTo 320 f.payload).take (64 * f.nsec.toNat)
  let rest := x.parts.filter (fun q => !mine q)
  if total b ≤ b.length then (setPort s p { x with parts := rest }, some (b.take (total b), old.2 + 1))
  else (setPort s p { x with parts := rest ++ [(typ, f.src.toNat, f.vc.toNat, b, old.2 + 1)] }, none)

/-- Fields of a descriptor (R268). -/
def descOp (d : Nat) : Nat := field d 60 4
def descLen (d : Nat) : Nat := field d 52 8 + 1
def descGa (d : Nat) : Nat := field d 13 39
def descEseq (d : Nat) : Nat := field d 64 16

def descOf (b : List Byte) : Nat := leNat (b.take 64)

def requestTotal (b : List Byte) : Nat :=
  let d := descOf b
  if descOp d = 1 then 64 + 64 * descLen d else 64

/-- Reserved bits or values of a request's descriptor. -/
def requestBad (d : Nat) : Bool :=
  decide (1 < descOp d ∨ 64 < descLen d ∨ field d 0 13 ≠ 0 ∨ field d 80 432 ≠ 0
    ∨ 4096 < descGa d % 4096 + 64 * descLen d ∨ descGa d % 64 ≠ 0)

/-- Reserved bits or a reserved STATUS of a response's descriptor. -/
def responseBad (d : Nat) : Bool := decide (2 < descOp d ∨ field d 0 52 ≠ 0 ∨ field d 80 432 ≠ 0)

/-! ## The target (R177, R178, R211, R289, R410) -/

/-- Sends a response. -/
def respond (s : State) (x : Inbound) (status : Nat) (data : List Byte) : State :=
  match egressOf s (routeOf s (myId s) x.src x.vc) with
  | some p => enqueueFlits s p (train s 2 x.vc x.src x.tag (responseDesc status x.sectors x.eseq ++ data))
  | none => s

/-- The response to a performed request leaves, and the slots of its flits are free. -/
def answer (s : State) (x : Inbound) (status : Nat) (data : List Byte) : State :=
  respond (freeSlots s x.port (2 * x.vc) x.flits) x status data

/-- The response to a write whose stores have been made: STATUS 1 where one of them met an uncorrectable sector (R410). -/
def answerStored (s : State) (x : Inbound) : State :=
  let mine := fun (h : Nat × Nat) => decide (h.1 = srcRiljo x.port ∧ x.ga / 64 ≤ h.2 ∧ h.2 < x.ga / 64 + x.sectors)
  let failed := s.heldFailed.any mine
  answer { s with heldFailed := s.heldFailed.filter (fun h => !mine h) } x (boolNat failed) []

/-- Performs one accepted request, or answers it as it goes on waiting: for a snoop, admission under the slots of its port's
Headland, or a held store. -/
def serveOne (s : State) (x : Inbound) : State × Option Inbound :=
  let n := 64 * x.sectors
  let src := srcRiljo x.port
  if x.write then
    if x.again then (answer s x 0 [], none)
    else if x.stored then (if heldFrom s src x.ga n then (s, some x) else (answerStored s x, none))
    else
      let q := storeGate s src [(x.ga, x.data)]
      if !q.2 then (q.1, some x)
      else
        let r := store q.1 src none x.ga x.data
        let s := if r.2 then { r.1 with heldFailed := r.1.heldFailed ++ [(src, x.ga / 64)] } else r.1
        if heldFrom s src x.ga n then (s, some { x with stored := true }) else (answerStored s x, none)
  else match localRead s src x.ga n with
    | .ok b => (answer (entered s src x.ga n) x 0 b, none)
    | .bad s => (answer s x 1 [], none)
    | .wait s => (s, some x)
    | _ => (s, some x)

/-- A request waits behind an earlier one of its flow, or of its port to a sector of its own (R23, R289). -/
def servedAfter (x y : Inbound) : Bool :=
  decide (x.src = y.src ∧ x.vc = y.vc) || (decide (x.port = y.port) && overlap (x.ga, 64 * x.sectors) (y.ga, 64 * y.sectors))

/-- Performs accepted requests, each flow's in order, as far as they go. -/
def serveInbox (s : State) : State :=
  let r := s.links.inbox.foldl (fun (a : State × List Inbound) x =>
    if a.2.any (servedAfter x) then (a.1, a.2 ++ [x])
    else
      let q := serveOne a.1 x
      (q.1, a.2 ++ q.2.toList)) (s, [])
  { r.1 with links := { r.1.links with inbox := r.2 } }

/-- A whole request has arrived, in a number of flits: performed in ESEQ order, answered again, or discarded with a notice that
asks its source to replay (R289). -/
def acceptRequest (s : State) (p : Nat) (f : Flit) (b : List Byte) (flits : Nat) : State :=
  let d := descOf b
  let free := fun (s : State) => freeSlots s p (2 * f.vc.toNat) flits
  if requestBad d then free (bump s (0xA500 + p) 8 1)
  else
    let key := flowKey f.src.toNat f.vc.toNat
    let want := kvGet 0 s.links.expect key
    let ahead := (descEseq d + 65536 - want) % 65536
    let x : Inbound :=
      { port := p, src := f.src.toNat, vc := f.vc.toNat, tag := f.tag.toNat, eseq := descEseq d,
        write := decide (descOp d = 1), ga := descGa d, sectors := descLen d, data := b.drop 64,
        again := decide (ahead ≠ 0), flits := flits, stored := false }
    if ahead = 0 then
      let l := s.links
      serveInbox { s with links := { l with expect := kvSet 0 l.expect key ((want + 1) % 65536), inbox := l.inbox ++ [x] } }
    else if ahead < 32768 then sendNote (free s) 5 15 f.src.toNat (.replay (myId s) f.vc.toNat)
    else
      let s := bump s 0xA540 4 1
      serveInbox { s with links := { s.links with inbox := s.links.inbox ++ [x] } }

/-- A REQUEST flit. -/
def recvRequest (s : State) (p : Nat) (f : Flit) : State :=
  arrive s p f 1 .none (fun s =>
    let q := gatherFlit s p f 1 requestTotal
    match q.2 with
    | some b => acceptRequest q.1 p f b.1 b.2
    | none => q.1)

/-- REMOTE_READ: a REQUEST with OP 0. -/
def execRemoteRead (port : Fin 64) (f : Flit) (s : State) : Answer := .next (recvRequest s port.val f)

/-- REMOTE_WRITE: a REQUEST with OP 1. -/
def execRemoteWrite (port : Fin 64) (f : Flit) (s : State) : Answer := .next (recvRequest s port.val f)

/-! ## The source (R268, R289) -/

/-- A transaction is outstanding no more; requesters that wait at its port ask again (R288). -/
def dropTrans (s : State) (x : Trans) : State :=
  { s with links := { s.links with
    trans := s.links.trans.erase x, limitWait := s.links.limitWait.filter (fun q => decide (q.1 ≠ x.port)) } }

/-- Lines of a read, by number, with their bytes. -/
def readLines (ja sectors : Nat) (b : List Byte) : List (Nat × List Byte) :=
  (upto sectors).map (fun i => (ja / 64 + i, padTo 64 (b.drop (64 * i))))

/-- A transaction is done: its requester has its data, or one write less to wait for. -/
def transDone (s : State) (x : Trans) (b : List Byte) : State :=
  let s := dropTrans s x
  let entryOf := fun (i : Nat) => if s.sowing.holder = x.job then flightEntry s i else none
  match x.owner with
  | .streamRead c ja =>
    let y := ctxAt s c
    let ls := readLines ja x.sectors b
    setCtx s c { y with
      cache := ls.foldl (fun m l => kvPut m l.1 l.2) y.cache, asked := y.asked.filter (fun l => !(ls.map (·.1)).elem l) }
  | .streamWrite c =>
    let y := ctxAt s c
    setCtx s c { y with remoteWrites := y.remoteWrites.map (· - 1) }
  | .sowRead i ja =>
    match entryOf i with
    | some f =>
      let ls := readLines ja x.sectors b
      setEntry s { f with
        cache := ls.foldl (fun m l => kvPut m l.1 l.2) f.cache, asked := f.asked.filter (fun l => !(ls.map (·.1)).elem l) }
    | none => s
  | .sowWrite i =>
    match entryOf i with
    | some f => setEntry s { f with remoteWrites := f.remoteWrites.map (· - 1) }
    | none => s
  | .repair ga =>
    let q := storeGate s srcJob [(ga, padTo 64 b)]
    if q.2 then (store (bump q.1 0x7880 12 1) srcJob none ga (padTo 64 b)).1 else q.1
  | .gone => s

/-- A transaction has failed, or met an uncorrectable sector: its requester halts (R289, R421). -/
def transFailed (s : State) (x : Trans) : State :=
  let s := dropTrans s x
  match x.owner with
  | .repair _ =>
    match slotOf s x.job with
    | some i => endJob s i 5 0x23 true true
    | none => s
  | .gone => s
  | _ => unitError s x.job

/-- The transaction that a response answers. -/
def transOf (s : State) (f : Flit) (eseq : Nat) : Option Trans :=
  s.links.trans.find? (fun x =>
    decide (x.tag = f.tag.toNat ∧ x.dst = f.src.toNat ∧ x.vc = f.vc.toNat ∧ x.eseq = eseq))

/-- Bytes of a whole response: one whose first flit has a second sector carries data, as long as its descriptor says. -/
def responseTotal (b : List Byte) : Nat :=
  if b.length ≤ 64 then 64 else 64 + 64 * descLen (descOf b)

/-- A whole response has arrived. One whose descriptor has a reserved bit or value, or another length than its transaction, is
refused (R10, R268). -/
def acceptResponse (s : State) (p : Nat) (f : Flit) (b : List Byte) : State :=
  let d := descOf b
  if responseBad d then bump s (0xA500 + p) 8 1
  else match transOf s f (descEseq d) with
    | none => bump s 0xA540 4 1
    | some x =>
      if descLen d ≠ x.sectors ∨ (descOp d = 0 ∧ b.length ≠ (if x.write then 64 else 64 + 64 * x.sectors)) then
        bump s (0xA500 + p) 8 1
      else if descOp d = 0 then transDone s x (b.drop 64)
      else if descOp d = 2 then transFailed (bump s 0xA540 6 1) x
      else transFailed (bump s 0xA540 5 1) x

/-- RESPONSE: ends a transaction and frees its tag; the source holds room for it (R288). -/
def execResponse (port : Fin 64) (f : Flit) (s : State) : Answer :=
  .next (arrive s port.val f 2 .none (fun s =>
    let q := gatherFlit (freeFlit s port.val f 2) port.val f 2 responseTotal
    match q.2 with
    | some b => acceptResponse q.1 port.val f b.1
    | none => q.1))

/-- REPLAY_NOTICE: the destination dst of a flow asks for its unacknowledged requests again. -/
def execReplayNotice (port : Fin 64) (f : Flit) (dst vc : Nat) (s : State) : Answer :=
  .next (arrive s port.val f 5 (.replay dst vc) (fun s => replayFlow s dst vc))

/-- TRANSACTION_TIMEOUT: a transaction has had no response for `OD 5003:01` clocks of its port since its request last left: its
flow replays; at the second time-out it has failed. -/
def execTransactionTimeout (port : Fin 64) (tag : BitVec 12) (s : State) : Answer :=
  let p := port.val
  match s.links.trans.find? (fun x => decide (x.port = p ∧ x.tag = tag.toNat) && !x.parked) with
  | none => .next s
  | some x =>
    if portClock s p < x.since + portSetting s p 0x5003 1 then .next s
    else
      let s := bump s (0xA500 + p) 10 1
      if x.timeouts = 0 then .next (replayFlow (setTrans s x { x with timeouts := 1 }) x.dst x.vc)
      else .next (transFailed (bump s 0xA540 5 1) x)

/-- Requests of a flow that has lost its last route are answered with STATUS 2 by the source itself (R285). -/
def failUnrouted (s : State) : State :=
  s.links.trans.foldl (fun s x =>
    match kvFind s.links.flows (flowKey x.dst x.vc) with
    | some f => if f.route.isNone then transFailed (bump s 0xA540 6 1) x else s
    | none => s) s

/-- FLOW_ROUTE_MOVE: the flow takes its recomputed route once nothing is outstanding on the old one (R286). -/
def execFlowRouteMove (dst vc : Nat) (s : State) : Answer :=
  match (flowAt s dst vc).move with
  | some r => if flowBusy s dst vc then .next s else .next (moveFlow s dst vc r false)
  | none => .next s

/-! ## Urgent messages and Stook tiles (R141, R299, R318) -/

/-- A value travels down the scalar tree to this member. -/
def treeFall (s : State) (round : Nat) (a b : Word32) (bit : Bool) : State :=
  let r : Answer := match round with
    | 0 => execNormRoundComplete a b s
    | 1 => execCommitRound1 bit s
    | 2 => execCommitRound2 bit s
    | 3 => if bit then execRollbackQuiescent s else .next s
    | _ => .next s
  match r with
  | .next t => t
  | _ => s

/-- What an URGENT flit does at this module. -/
def urgentAct (s : State) : UrgentMsg → State
  | .signal name count =>
    let g : Signal :=
      { id := s.nextSignal, src := .engine, sem := name, count := count.toNat, before := 0, job := semJob s name }
    if !semOk name then s
    else if name / 65536 = 8 then unitSignal s g
    else if (semTil name).isSome then addSem s g
    else s
  | .treeUp job round i a b bit =>
    if round = 4 then (if bit then hearAdmitted s job i else s)
    else if job = s.stook.job then treeArrive s round i { s := a, e := b, bit := bit }
    else s
  | .treeDown job round a b bit =>
    if round = 4 then
      match slotOf s job with
      | some i => if bit ∧ (jobAt s i).st = 1 then jobAdmitted s i else s
      | none => s
    else if job = s.stook.job then treeFall s round a b bit
    else s
  | .endNotice job =>
    match slotOf s job.toNat with
    | some i => endJob s i 5 0x22 true true
    | none => s

/-- URGENT (R280). -/
def execUrgent (port : Fin 64) (f : Flit) (m : UrgentMsg) (s : State) : Answer :=
  .next (arrive s port.val f 4 (.urgent m) (fun s => urgentAct (freeFlit s port.val f 4) m))

/-- STOOK: one flit of a running sum, a result or a gather tile (R299), with what its train carries. Once the last flit has come
it waits in its port's credits until the Stook layer takes it (R310,
R312). -/
def execStook (port : Fin 64) (f : Flit) (m : StookMsg) (s : State) : Answer :=
  .next (arrive s port.val f 3 (.stook m) (fun s =>
    let s := noteArrival s f.src.toNat f.vc.toNat port.val
    let q := gatherFlit s port.val f 3 (fun _ => 64 * ceilDiv m.bytes.length 64)
    match q.2 with
    | none => q.1
    | some b => kickArrivals { q.1 with links := { q.1.links with
        stookIn := q.1.links.stookIn ++ [(port.val, f.src.toNat, f.vc.toNat, b.2, m)] } }))

end Sys2Proof.Machine
end

