-- ==== Sys2Proof/Machine/Shadow.lean ====
section
/-! DEFINITION. Hot settings and sessions (R357, R366 to R377): who owns an entry, the three sets of an owner, its
lock and its swap, and how a session closes. The module's own set is that of control object 0. -/
namespace Sys2Proof.Machine

/-! ## Sessions and selections -/

def sessionAt (s : State) (sid : Nat) : Session := kvGet Session.reset s.dict.sessions sid

def setSession (s : State) (sid : Nat) (x : Session) : State :=
  { s with dict := { s.dict with sessions := kvSet Session.reset s.dict.sessions sid x } }

/-- Key of a PERS value: the session that holds it, 0 for a request without one. -/
def persKey (holder idx sub : Nat) : Nat := holder * 2 ^ 24 + od idx sub

def persVal (s : State) (holder idx sub : Nat) : Nat := kvGet 0 s.dict.pers (persKey holder idx sub)

/-- The Tiller a requester has selected (R66). -/
def selected (s : State) (holder : Nat) : Nat := persVal s holder 0xA330 1

/-! ## Owners (Table 12-13) -/

/-- The owner of the entries of an index as DESCRIBE reports it: 0 none, 0xFF the module. -/
def odOwner (s : State) (holder idx : Nat) : Nat :=
  if idx = 0x1000 ∨ idx / 4 = 0x1010 / 4 ∨ idx = 0x1020 then 0x60
  else if idx / 256 = 0x11 then (if idx = 0x1100 then 0xFF else idx % 256)
  else if idx / 256 = 0x12 then 0xFF
  else if idx = 0x1300 then 0x30
  else if idx = 0x1400 then 0x60
  else if idx / 256 = 0x21 then idx % 8 + 1
  else if idx = 0x2300 ∨ idx = 0x2400 then selected s holder / 256 + 1
  else if 0x2800 ≤ idx ∧ idx < 0x2C40 then (if idx < 0x2C00 then (idx - 0x2800) / 128 + 1 else 0x10)
  else if idx / 4096 = 3 then 0x60
  else if idx / 4096 = 4 then (if idx / 256 = 0x47 then 0x20 else 0x60)
  else if idx / 256 = 0x50 ∨ idx = 0x5300 then 0x10
  else if idx / 256 = 0x51 then (if idx < 0x5120 then 0x10 else 0x11)
  else if idx / 256 = 0x58 ∨ idx = 0x5900 then 0x50
  else if idx = 0x5A00 then 0x60
  else if idx = 0x6000 then 0x40
  else if idx = 0x6001 then 0x41
  else if 0x6030 ≤ idx ∧ idx ≤ 0x6032 then 0x60
  else if 7 ≤ idx / 4096 ∧ idx / 4096 ≤ 9 then 0xFF
  else 0

/-- The control object that holds an owner's sets: that of the function, or 0 for the module. -/
def ctlOf (owner : Nat) : Nat := if owner = 0xFF then 0 else owner

/-- The control object that holds the sets of the RWS entries of an index; none where it has no RWS entry. -/
def setHolder (idx : Nat) : Option Nat :=
  if idx = 0x3000 ∨ (0x3010 ≤ idx ∧ idx ≤ 0x301F) then some 0x60
  else if idx = 0x5001 ∨ idx = 0x5002 ∨ idx = 0x5003 ∨ idx = 0x5010 then some 0x10
  else if idx = 0x1201 ∨ idx / 4096 = 7 then some 0
  else none

def ownedBy (ctl key : Nat) : Bool := decide (setHolder (key / 256) = some ctl)

/-- One owner's values of `take` over every other value of `keep`. -/
def mergeOwned (ctl : Nat) (keep take : KV Nat) : KV Nat :=
  (take.filter (fun p => ownedBy ctl p.1)).foldl (fun m p => kvPut m p.1 p.2) (keep.filter (fun p => !ownedBy ctl p.1))

/-- An owner's values in a set. -/
def ownValues (ctl : Nat) (m : KV Nat) : KV Nat := m.filter (fun p => ownedBy ctl p.1)

/-- The shadow set of an owner differs from its active set. -/
def edited (s : State) (ctl : Nat) : Bool := decide (ownValues ctl s.dict.shadow ≠ ownValues ctl s.dict.active)

/-! ## Swap, discard and load previous (R373) -/

/-- The new active set is in force: previous takes active, active takes shadow, the pending mark clears and the
lock ends. -/
def doSwap (s : State) (ctl : Nat) : State :=
  let d := s.dict
  let behind := decide (ctl = 0x10) && fnPresent s.variant 0x11 && decide ((fnGet s 0x11).st ≠ .running)
  let s := { s with dict := { d with
    previous := mergeOwned ctl d.previous d.active, active := mergeOwned ctl d.active d.shadow,
    kept := if behind then some (d.kept.getD d.active) else d.kept } }
  bump (fnSet s ctl { fnGet s ctl with swapPending := false, lock := 0, switched := [] }) 0xA100 3 1

def doDiscard (s : State) (ctl : Nat) : State :=
  let d := s.dict
  let s := { s with dict := { d with shadow := mergeOwned ctl d.shadow d.active } }
  fnSet s ctl { fnGet s ctl with lock := 0 }

def doLoadPrevious (s : State) (ctl sid : Nat) : State :=
  let d := s.dict
  let s := { s with dict := { d with shadow := mergeOwned ctl d.shadow d.previous } }
  fnSet s ctl { fnGet s ctl with lock := sid }

/-! ## A session closes (R366, R372) -/

/-- The lock of a closing session goes, unless its swap is pending; its edits are lost and counted. -/
def dropLock (s : State) (sid ctl : Nat) : State :=
  let c := fnGet s ctl
  if c.lock = sid ∧ c.swapPending = false then bump (doDiscard s ctl) 0xA100 6 1 else s

def closeSession (s : State) (sid : Nat) : State :=
  let s := (0 :: fnIds).foldl (fun s ctl => dropLock s sid ctl) s
  let s := { s with dict := { s.dict with
    pers := s.dict.pers.filter (fun p => decide (p.1 / 2 ^ 24 ≠ sid)), timedOut := s.dict.timedOut.erase sid } }
  setSession s sid Session.reset

/-- Closes every session opened over a transport: 1 and 2 the CXL ports, 3 out of band. -/
def closeKind (s : State) (kind : Nat) : State :=
  (upto 8).foldl (fun s i => if (sessionAt s (i + 1)).kind = kind then closeSession s (i + 1) else s) s

end Sys2Proof.Machine
end

