-- ==== Sys2Proof/Machine/Functions.lean ====
section
/-! DEFINITION. The stoppable functions (R26, R371 to R381, R415, R418, Tables 12-8 to 12-10 and 14-3): their states,
what stopping, starting and faulting do to the unit, and their recovery. -/
namespace Sys2Proof.Machine

/-! ## CXL ports as functions -/

def cxlPort (s : State) (p : Nat) : CxlPort := if p = 0 then s.cxl.port0 else s.cxl.port1

def setCxlPort (s : State) (p : Nat) (x : CxlPort) : State :=
  if p = 0 then { s with cxl := { s.cxl with port0 := x } } else { s with cxl := { s.cxl with port1 := x } }

/-- A port's lines leave the directory, and its snoops are answered no more. -/
def dropLines (s : State) (p : Nat) : State :=
  let mask := fun (b : Nat) => if p = 0 then Nat.land b 0b1010 else Nat.land b 0b0101
  let d := (s.cxl.directory.map (fun e => (e.1, mask e.2))).filter (fun e => decide (e.2 ≠ 0))
  let s := dropWaits { s with heldFailed := s.heldFailed.filter (fun h => decide (h.1 ≠ srcCxl p)) } (srcCxl p)
  { s with cxl := { s.cxl with
    directory := d, snoops := s.cxl.snoops.filter (fun q => decide (q.1 ≠ p)),
    waiting := s.cxl.waiting.filter (fun r => decide (r.port ≠ p)) } }

/-- The link of a port is down: width 0, the window closed on that port. -/
def cxlDown (s : State) (p : Nat) : State :=
  dropLines (setCxlPort s p { cxlPort s p with up := false, width := 0, rate := 0, mem := false, l1 := false, retry := false }) p

/-! ## Jobs that use a function (R379) -/

def jobsUsing (s : State) (fn : Nat) : List Nat :=
  (upto 4).filter (fun i => jobLive (jobAt s i) && (jobFns (jobAt s i)).elem fn)

/-! ## States -/

/-- A function changes state. A CXL port that leaves RUNNING closes the sessions opened through it (R366). -/
def setFnState (s : State) (fn : Nat) (st : FnSt) : State :=
  let c := fnGet s fn
  let s := fnSet s fn { c with st := st, since := s.clocks.aux }
  if c.st = .running ∧ st ≠ .running ∧ (fn = 0x40 ∨ fn = 0x41) then closeKind s (fn - 0x40 + 1) else s

/-- The Tillers of a Field that hold anything. -/
def fieldTils (s : State) (fn : Nat) : List Nat := (s.tillers.map (·.1)).filter (fun id => decide (id / 256 + 1 = fn))

/-- A Field stops: its threads issue no more, open Sheaves and stream contexts are discarded (R101, R254). -/
def stopField (s : State) (fn : Nat) : State :=
  (fieldTils s fn).foldl (fun s id => endStreams (stopTiller s id) id) s

/-- The Awn engine abandons its descriptor and every one queued (R200). -/
def stopAwn (s : State) : State :=
  let busy := s.awn.run.isSome || decide (0 < s.awn.posts)
  let s := awnAbandon s s.awn.holder false
  let a := s.awn
  if busy then
    setAwn s { a with status := 5, next := if a.entries = 0 then 0 else (a.next + a.posts) % a.entries, posts := 0 }
  else s

/-- The Awn engine is still writing a tile: stores that its signals announce are not performed (R177, R200). -/
def awnWriting (s : State) : Bool :=
  match s.awn.run with
  | some r => decide (r.due ≠ 0)
  | none => false

/-- What entering STOPPING does to the unit (Table 12-8). -/
def beginStop (s : State) (fn : Nat) : State :=
  if 1 ≤ fn ∧ fn ≤ 8 then stopField s fn
  else if fn = 0x10 ∨ fn = 0x11 then withdrawGroup s fn
  else if fn = 0x30 then (if awnWriting s then s else stopAwn s)
  else s

/-- A Barn transfer is under way on a CXL port. -/
def barnBusy (s : State) (p : Nat) : Bool :=
  s.bales.any (fun b => (decide (b.st = .fetching) && b.asked.any (fun q => decide (q.2 = p)))
    || (decide (b.st = .writing) && b.writing.any (fun q => decide (q.2 = p))))

/-- Whether the condition under which STOPPING completes holds (Table 12-8, R291). -/
def stopReady (s : State) (fn : Nat) : Bool :=
  if 1 ≤ fn ∧ fn ≤ 8 then (fieldTils s fn).all (fun id => (tilAt s id).flights.isEmpty)
  else if fn = 0x10 ∨ fn = 0x11 then
    !groupBusy s fn
  else if fn = 0x40 ∨ fn = 0x41 then s.cxl.waiting.all (fun r => decide (r.port ≠ fn - 0x40)) && !barnBusy s (fn - 0x40)
  else if fn = 0x20 then !harrowBusy s
  else if fn = 0x30 then !awnWriting s
  else if fn = 0x50 then !stookBusy s
  else if fn = 0x60 then s.admitHeld.isNone
  else true

/-- What STOPPED does to the unit. -/
def endStop (s : State) (fn : Nat) : State :=
  if fn = 0x10 ∨ fn = 0x11 then lasersOff s fn
  else if fn = 0x30 then stopAwn s
  else if fn = 0x40 ∨ fn = 0x41 then setCxlPort s (fn - 0x40) { cxlPort s (fn - 0x40) with mem := false }
  else s

/-- Whether a Field has an enabled Tiller (R415). -/
def fieldAlive (s : State) (fn : Nat) : Bool :=
  !decide (1 ≤ fn ∧ fn ≤ 8) || (upto 88).any (fun i => enabled s (256 * (fn - 1) + i))

/-- Whether functions may leave STOPPED: not in recovery (R435). -/
def mayStart (s : State) (fn : Nat) : Bool := fieldAlive s fn && decide (s.sec.bootMode ≠ 2)

/-- The image that the controller in charge runs. -/
def runningNow (s : State) : Running := if s.reli.inCharge = 0 then s.sec.runA else s.sec.runB

/-- Entry into STARTING: a pending swap and the cold settings are applied, and a held enable is carried out. -/
def beginStart (s : State) (fn : Nat) : State :=
  let c := fnGet s fn
  let s := if c.enable then bump s 0xA100 7 1 else s
  let s := if c.swapPending then doSwap s fn else s
  let s := fnSet (applyCold s fn) fn { fnGet s fn with enable := false, stopRec := false }
  let s := setFnState s fn .starting
  let s := if fn = 0x10 ∨ fn = 0x11 then startGroup s fn else s
  if [0x60, 0x20, 0x30, 0x50].elem fn then
    { s with sec := { s.sec with microcode := kvPut s.sec.microcode fn (runningNow s).micro } }
  else s

/-- STOPPED is reached: a pending swap is done at once, and a held enable starts the function again (R375, R380). -/
def reachStopped (s : State) (fn : Nat) : State :=
  let s := setFnState (endStop s fn) fn .stopped
  let s := if (fnGet s fn).swapPending then doSwap s fn else s
  if (fnGet s fn).enable && mayStart s fn then beginStart s fn else s

/-- A STOPPING function whose condition holds is STOPPED. -/
def tryStopped (s : State) (fn : Nat) : State :=
  if (fnGet s fn).st = .stopping ∧ stopReady s fn = true then reachStopped s fn else s

def enterStopping (s : State) (fn : Nat) : State :=
  let s := fnSet s fn { fnGet s fn with stopRec := false }
  tryStopped (setFnState (beginStop s fn) fn .stopping) fn

/-- What RUNNING gives back to the unit. -/
def beginRun (s : State) (fn : Nat) : State :=
  if fn = 0x40 ∨ fn = 0x41 then
    let x := cxlPort s (fn - 0x40)
    setCxlPort s (fn - 0x40) { x with mem := x.up }
  else if fn = 0x50 then kickStook s
  else if fn = 0x60 then kickAdmit s
  else s

/-- The start sequence is over. -/
def reachRunning (s : State) (fn : Nat) : State :=
  let s := if (fnGet s fn).swapPending then doSwap s fn else s
  if (fnGet s fn).stopRec then enterStopping s fn else beginRun (setFnState s fn .running) fn

/-- A CXL port without its reference clock stays STARTING (R459). -/
def startHeld (s : State) (fn : Nat) : Bool :=
  if fn = 0x40 ∨ fn = 0x41 then
    let x := cxlPort s (fn - 0x40)
    !x.refclk && !x.perst && !(fnGet s fn).stopRec
  else false

/-- STARTING_COMPLETE. During start-up every function waits for step 11. -/
def execStartingComplete (fn : BitVec 8) (s : State) : Answer :=
  let f := fn.toNat
  if (fnGet s f).st = .starting ∧ s.board.step = 11 ∧ startHeld s f = false then .next (reachRunning s f) else .next s

/-- STOPPING_COMPLETE. -/
def execStoppingComplete (fn : BitVec 8) (s : State) : Answer := .next (tryStopped s fn.toNat)

/-! ## Commands (Table 12-10); the answer is an abort code -/

/-- Stop, or forced stop: the jobs that use a RUNNING function end first (R379). -/
def cmdStop (s : State) (fn : Nat) (forced : Bool) : State × Nat :=
  let c := fnGet s fn
  match c.st with
  | .absent => (s, 0x0204)
  | .stopped => (fnSet s fn { c with enable := false }, 0)
  | .starting => (fnSet s fn { c with stopRec := true }, 0)
  | .stopping => (fnSet s fn { c with enable := false }, 0)
  | .faulted => (fnSet s fn { c with stopRec := true, enable := false }, 0)
  | .running =>
    let users := jobsUsing s fn
    if users.isEmpty then (enterStopping s fn, 0)
    else if !forced then (s, 0x0502)
    else (enterStopping (users.foldl (fun s i => endJob s i 6 0x30 true true) s) fn, 0)

def cmdStart (s : State) (fn : Nat) : State × Nat :=
  let c := fnGet s fn
  match c.st with
  | .absent => (s, 0x0204)
  | .stopped => (if mayStart s fn then beginStart s fn else s, 0)
  | .starting => (fnSet s fn { c with stopRec := false }, 0)
  | .stopping => (fnSet s fn { c with enable := true }, 0)
  | .faulted => (fnSet s fn { c with enable := true, stopRec := false }, 0)
  | .running => (s, 0)

/-- Units of an owner that switch at their own safe points (Table 12-8): the ports of the RUNNING groups for 0x10,
which a port of another group does not delay (R377); one unit otherwise. -/
def unitsOf (s : State) (ctl : Nat) : List Nat :=
  if ctl = 0x10 then (upto 64).filter (fun p => running s (portFn p) && decide ((portAt s p).st ≠ 0)) else [0]

/-- The owner's safe point for one unit: the swap is done when every unit has switched (R374, R375). -/
def switchUnit (s : State) (ctl unit : Nat) : State :=
  let c := fnGet s ctl
  if !c.swapPending || !(unitsOf s ctl).elem unit then s
  else
    let sw := if c.switched.elem unit then c.switched else c.switched ++ [unit]
    if (unitsOf s ctl).all (fun u => sw.elem u) then doSwap s ctl else fnSet s ctl { c with switched := sw }

/-- SAFE_POINT_SWAP: a unit of a RUNNING owner reaches its safe point; the job engine's is a time with no admission
in progress. -/
def execSafePointSwap (fn : BitVec 8) (unit : Nat) (s : State) : Answer :=
  let ctl := ctlOf fn.toNat
  if (fnGet s ctl).st ≠ .running ∨ (ctl = 0x60 ∧ s.admitHeld.isSome = true) then .next s
  else .next (switchUnit s ctl unit)

/-- Swap: pending until the safe point; at once where the owner is STOPPED, or where nothing is edited and no
session holds the lock. -/
def cmdSwap (s : State) (ctl sid : Nat) : State × Nat :=
  let c := fnGet s ctl
  if c.lock ≠ 0 ∧ c.lock ≠ sid then (s, 0x0403)
  else if c.swapPending then (s, 0x0501)
  else if c.lock = 0 ∧ edited s ctl = false then (bump s 0xA100 3 1, 0)
  else
    let s := fnSet s ctl { c with swapPending := true, switched := [] }
    if c.st = .stopped ∨ (ctl = 0x60 ∧ c.st = .running ∧ s.admitHeld.isNone = true) then (doSwap s ctl, 0) else (s, 0)

def cmdDiscard (s : State) (ctl sid : Nat) : State × Nat :=
  let c := fnGet s ctl
  if c.lock ≠ 0 ∧ c.lock ≠ sid then (s, 0x0403)
  else if c.swapPending then (s, 0x0501)
  else (doDiscard s ctl, 0)

def cmdLoadPrevious (s : State) (ctl sid : Nat) : State × Nat :=
  let c := fnGet s ctl
  if c.lock ≠ 0 ∧ c.lock ≠ sid then (s, 0x0403)
  else if c.swapPending then (s, 0x0501)
  else (doLoadPrevious s ctl sid, 0)

/-! ## Faults and recovery (Table 14-3) -/

/-- The program counter that a fault record names: that of the place's first thread. -/
def faultPc (s : State) (fn place : Nat) : Nat :=
  if 1 ≤ fn ∧ fn ≤ 8 then (thr (tilAt s (256 * (fn - 1) + place)) 0).pc.toNat else 0

/-- What a fault does to the unit at once. -/
def faultUnit (s : State) (fn reason : Nat) : State :=
  if 1 ≤ fn ∧ fn ≤ 8 then stopField s fn
  else if reason = 0x05 then stopAwn s
  else if reason = 0x06 then cxlDown s (fn - 0x40)
  else s

/-- A fault confined to a function (R418): its jobs meet it as an uncorrectable error. -/
def faultFn (s : State) (fn reason place : Nat) : State :=
  let c := fnGet s fn
  if c.st = .absent ∨ c.st = .faulted then s
  else
    let jobs := (jobsUsing s fn).map (fun i => (jobAt s i).man.job)
    let s := boxAdd (bump s 0xA100 8 1) (some fn) 0x0011 [reason, place, faultPc s fn place]
    let s := fnSet s fn { c with reason := reason, before := c.st, place := place }
    let s := setFnState (faultUnit s fn reason) fn .faulted
    jobs.foldl (fun s j => unitError s j) s

/-- The functions that a reason of Table 14-3 belongs to. -/
def reasonFits (fn reason : Nat) : Bool :=
  if reason = 0x01 ∨ reason = 0x02 ∨ reason = 0x03 then decide (1 ≤ fn ∧ fn ≤ 8)
  else if reason = 0x04 then decide (fn = 0x20)
  else if reason = 0x05 then decide (fn = 0x30)
  else if reason = 0x06 then decide (fn = 0x40 ∨ fn = 0x41)
  else if reason = 0x07 then decide (fn = 0x10 ∨ fn = 0x11)
  else if reason = 0x08 then decide (fn = 0x60)
  else false

/-- FUNCTION_FAULT: a Tiller slot (Fields), a Tiller (Harrow) or a port is at fault. -/
def execFunctionFault (fn : BitVec 8) (reason : BitVec 8) (place : Nat) (s : State) : Answer :=
  if reasonFits fn.toNat reason.toNat then .next (faultFn s fn.toNat reason.toNat place) else .next s

/-- Spare slots left in a Field. -/
def sparesLeft (s : State) (f : Nat) : List Nat :=
  ((upto 8).map (fun i => 256 * f + 80 + i)).filter (fun id => !s.reli.spares.elem id && !s.reli.retired.elem id)

/-- The program image of a job is placed in a Tiller again, as Table 11-6 step 3 does. -/
def replaceImage (s : State) (job id : Nat) : State :=
  match slotOf s job with
  | some i => placeImage s job (jobAt s i).man [id]
  | none => s

/-- Lines of the image that a recovery places and that a host may hold modified are snooped first (R340). -/
def imageReady (s : State) (fn : Nat) : State × Bool :=
  if 1 ≤ fn ∧ fn ≤ 8 then
    match slotOf s (tilAt s (256 * (fn - 1) + (fnGet s fn).place)).job with
    | some i => snoopSpan s (jobAt s i).man.prog (64 * (jobAt s i).man.plen) false
    | none => (s, true)
  else (s, true)

/-- A Tiller whose SRAMs have been cleared keeps its counts, and its job's program image is placed again. -/
def clearTiller (s : State) (id : Nat) : State :=
  let y := tilAt s id
  let s := endStreams s id
  let s := setTilAt s id { Tiller.reset with counts := y.counts, bypass := y.bypass, stop := y.stop, job := y.job }
  replaceImage s y.job id

/-- Retires a Tiller; a spare slot of its Field, if one remains, takes its place in its job too (R415). -/
def retireTiller (s : State) (id : Nat) : State :=
  let job := (tilAt s id).job
  let spare := (sparesLeft s (id / 256)).head?
  let s := clearTiller s id
  let s := setTilAt s id { tilAt s id with job := 0, program := [] }
  let r := s.reli
  let s := { s with reli := { r with
    retired := r.retired ++ [id], spares := r.spares.erase id ++ spare.toList } }
  let s := modJob s job (fun j => { j with man := { j.man with
    tset := j.man.tset.flatMap (fun t => if t = id then spare.toList else [t]) } })
  let s := match spare with
    | some t => replaceImage s job t
    | none => s
  boxAdd s (some (id / 256 + 1)) 0x0020 [2, id, (sparesLeft s (id / 256)).length]

/-- A failing lane's group is bypassed; a Tiller that would be left too narrow is retired (R102). -/
def bypassLane (s : State) (id lane : Nat) : State :=
  let y := clearTiller s id
  let b := (tilAt y id).bypass ||| BitVec.ofNat 16 (2 ^ (lane / 16))
  if widthOf16 b < 128 then retireTiller s id
  else if bitAt (tilAt s id).bypass.toNat (lane / 16) then y
  else
    let s := setTilAt y id { tilAt y id with bypass := b }
    boxAdd (bumpTil s id 0xA200 8 1) (some (id / 256 + 1)) 0x0020 [3, id, (widthOf16 b) / 16]

/-- The recovery of a reason (Table 14-3). A place that is no enabled slot has nothing to retire: a spare comes in only in
place of a Tiller that sparing retires (R18). -/
def recoverUnit (s : State) (fn : Nat) (test : SelfTest) : State :=
  let c := fnGet s fn
  let id := 256 * (fn - 1) + c.place
  if 1 ≤ fn ∧ fn ≤ 8 then
    if 88 ≤ c.place ∨ enabled s id = false then s
    else if c.reason = 0x03 then retireTiller s id
    else match test with
      | .fail => retireTiller s id
      | .lane l => bypassLane s id l.val
      | .pass => clearTiller s id
  else if c.reason = 0x04 then endStreams s c.place
  else if c.reason = 0x07 then retire s c.place 0x12
  else s

/-- Whether a recovery can end: a Field's accepted instructions have completed; a CXL port's host has retrained the
link. -/
def recoverReady (s : State) (fn : Nat) : Bool :=
  if 1 ≤ fn ∧ fn ≤ 8 then stopReady s fn
  else if fn = 0x40 ∨ fn = 0x41 then (cxlPort s (fn - 0x40)).up
  else true

/-- RECOVERY_END: the function leaves FAULTED (Table 12-10). -/
def execRecoveryEnd (fn : BitVec 8) (test : SelfTest) (s : State) : Answer :=
  let f := fn.toNat
  if (fnGet s f).st ≠ .faulted ∨ recoverReady s f = false then .next s
  else if (imageReady s f).2 = false then .next (imageReady s f).1
  else
    let s := recoverUnit s f test
    let c := fnGet s f
    let go := c.enable || (decide (c.before = .starting ∨ c.before = .running) && !c.stopRec)
    let s := if c.swapPending then doSwap s f else s
    if go && mayStart s f then .next (beginStart s f)
    else .next (setFnState (fnSet s f { fnGet s f with stopRec := false }) f .stopped)

end Sys2Proof.Machine
end

