-- ==== Sys2Proof/Machine/Power.lean ====
section
/-! DEFINITION. Power (chapter 13, R455, R456): operating points, thermal ceilings and the trip, the regulator alert,
wake events, the entry sequence, and what a loss of power leaves. -/
namespace Sys2Proof.Machine

/-! ## The black box ring (R425) -/

/-- A record goes into both mirrors' rings of 131 072 records, oldest overwritten. Whether a mirror's copy comes to have a bad CRC is
open: two bits of a free value (log entry 56). -/
def writeBoxRec (s : State) (r : BoxRec) : State :=
  let d := drawFree s
  let x := d.2.reli
  let ring := fun (l : List BoxRec) (bad : Bool) => let l := l ++ [{ r with good := !bad }]; l.drop (l.length - 131072)
  { d.2 with reli := { x with boxA := ring x.boxA (bitAt d.1 0), boxB := ring x.boxB (bitAt d.1 1), queue := x.queue.drop 1 } }

/-- The n oldest records of the queue are written. -/
def writeBox (s : State) (n : Nat) : State := (s.reli.queue.take n).foldl writeBoxRec s

def flushBox (s : State) : State := writeBox s s.reli.queue.length

/-- A record written on hold-up energy, once those queued have been (R402, R426). -/
def boxNow (s : State) (event : Nat) (facts : List Nat) : State := flushBox (boxAdd (flushBox s) (some 0xFF) event facts)

/-! ## Sensors (R399 to R402) -/

/-- A sensor's class (Table 13-6). -/
def sensorClass (n : Nat) : Nat := if n < 88 then 0 else if n < 120 then 1 else 2

/-- Threshold k of a class: 1 warning, 2 step, 3 trip. -/
def threshold (s : State) (c k : Nat) : Int := sext (setting s (0x7030 + c) k) 32

/-- The sensors whose step lowers a Field. -/
def fieldSensors (f : Nat) : List Nat :=
  (upto 11).map (fun i => 11 * f + i) ++ (upto 4).map (fun i => 88 + 4 * f + i) ++ (upto 16).map (fun i => 120 + i)

/-- Samples are kept plus 2^31; 0 is none. -/
def sampleOf (m : KV Nat) (n : Nat) : Option Int :=
  match kvFind m n with
  | some v => some ((v : Int) - 2 ^ 31)
  | none => none

def putSample (m : KV Nat) (n : Nat) (v : Int) : KV Nat := kvPut m n (v + 2 ^ 31).toNat

/-- A Field's ceiling after a control period. -/
def stepCeiling (s : State) (f : Nat) : State :=
  let c := ceilingOf s f
  let peaks := (fieldSensors f).filterMap (fun n => (sampleOf s.power.peak n).map (fun v => v - threshold s (sensorClass n) 2))
  let setCool := fun (s : State) (n : Nat) => { s with power := { s.power with cool := kvSet 0 s.power.cool f n } }
  let setCeil := fun (s : State) (n : Nat) => { s with power := { s.power with ceiling := kvSet 0 s.power.ceiling f n } }
  if peaks.any (fun v => decide (0 ≤ v)) then
    let s := setCool s 0
    if c < 5 then bump (setCeil s (c + 1)) 0x7060 4 1 else s
  else if peaks.all (fun v => decide (v ≤ -5000)) then
    let n := kvGet 0 s.power.cool f + 1
    if 100 ≤ n then setCeil (setCool s 0) (c - 1) else setCool s n
  else setCool s 0

/-- SELTY_CONTROL_PERIOD: 500 000 Selty clocks after the last one the module's set swaps (Table 12-8), ceilings move, and Fields
follow (R395, R401). -/
def execSeltyControlPeriod (s : State) : Answer :=
  let st := s.power.st
  if s.board.step ≠ 11 ∨ s.power.trip = true ∨ ¬(st = .run ∨ st = .idle ∨ st = .sleep)
      ∨ seltyNow s s.reli.inCharge < s.power.periodAt + 500000 then .next s
  else
    let s := switchUnit { s with power := { s.power with periodAt := seltyNow s s.reli.inCharge } } 0 0
    if s.dict.changeover then .next s
    else
      let s := foldUpto 8 s stepCeiling
      let s := { s with power := { s.power with peak := [] } }
      let s := raiseFields (lowerFields s)
      .next (if (upto 8).any (fun f => decide (requested s < ceilingOf s f)) then bump s 0x7060 8 1 else s)

/-! ## What power loss leaves (R386, R402, R413, R417, R455, R456) -/

/-- Fuses, the mirrored configuration store, the boot flash and the black box keep their contents. -/
def keptReli (r : Reli) : Reli :=
  { Reli.reset with
    retired := r.retired, spares := r.spares, bridges := r.bridges, boxA := r.boxA, boxB := r.boxB, boot := r.boot, nextSeq := r.nextSeq }

def keptStack (x : Stack) : Stack :=
  { Stack.reset with
    spareRows := x.spareRows, spareBanks := x.spareBanks, rowsUsed := x.rowsUsed, bankSpared := x.bankSpared,
    rowRepaired := x.rowRepaired }

/-- The debug port stands as it is until start-up closes it (R442). -/
def keptSec (x : Sec) : Sec :=
  { x with
    bootMode := 0, upload := 0, challenge := none, refusedTokens := 0, unlock := none, conns := [], sessions := [], nextSess := 1, microcode := [] }

/-- The port closes, at every power-on and at start-up from auxiliary power or from Off (R442); the alias key is gone, and the identity
key unwraps again (R444). -/
def closePort (s : State) : State :=
  { s with
    sec := { s.sec with debugPort := 0, lifecycle := 0, aliasKey := false, keys := kvDrop s.sec.keys 0 }
    board := { s.board with tap := 0 } }

/-- Everything that lives on main power is gone; the queue of commands and what left the module stand. -/
def coldState (s : State) : State :=
  let s := flushBox s
  { State.reset with
    variant := s.variant, clocks := { Clocks.reset with ticks := s.clocks.ticks }, free := s.free, out := s.out,
    tillers := (s.tillers.map (fun p => (p.1, { Tiller.reset with bypass := p.2.bypass }))).filter (fun p =>
      decide (p.2 ≠ Tiller.reset)),
    granStacks := (s.granStacks.map (fun p => (p.1, keptStack p.2))).filter (fun p => decide (p.2 ≠ Stack.reset)),
    dict := { Dict.reset with stored := s.dict.stored },
    cxl := { Cxl.reset with
      port0 := { CxlPort.reset with perst := s.cxl.port0.perst, refclk := s.cxl.port0.refclk },
      port1 := { CxlPort.reset with perst := s.cxl.port1.perst, refclk := s.cxl.port1.refclk } },
    power := { Power.reset with
      st := .off, trip := s.power.trip, tripSensor := s.power.tripSensor, inputMv := s.power.inputMv,
      alertBoard := s.power.alertBoard, alertSource := s.power.alertSource },
    reli := keptReli s.reli, sec := keptSec s.sec,
    board := { s.board with step := 3, modrdy := none }, pending := s.pending }

/-! ## The thermal trip (R402, Table 13-7) -/

def powerCode : PowerSt → Nat
  | .run => 0 | .idle => 1 | .sleep => 2 | .deepSleep => 3 | .off => 4

/-- A sample at or above the trip threshold: the clocks stop, the lasers go off, the CXL links drop, and the record
is written; the module stays stopped until 3V3AUX is removed. -/
def tripModule (s : State) (n : Nat) (mdeg : Int) : State :=
  let s := boxNow s 0x0003 ([n, wrapInt 32 mdeg] ++ (upto 8).map (pointOf s))
  let s := cxlDown (cxlDown (lasersOff (lasersOff s 0x10) 0x11) 0) 1
  { s with
    power := { s.power with trip := true, tripSensor := n, target := none, step := 0, exiting := false },
    board := { s.board with thermtrip := true, modrdy := none } }

/-- SENSOR_SAMPLE: kept for the control period; warnings are counted, and the comparator checks the trip. -/
def execSensorSample (n : Fin 136) (mdeg : Int) (s : State) : Answer :=
  if s.board.step < 7 ∨ s.power.trip = true then .next s
  else
    let c := sensorClass n.val
    let p := s.power
    let top := match sampleOf p.peak n.val with | some v => max v mdeg | none => mdeg
    let s := { s with power := { p with sensor := putSample p.sensor n.val mdeg, peak := putSample p.peak n.val top } }
    let s := if threshold s c 1 ≤ mdeg then bump s 0x7060 9 1 else s
    .next (if threshold s c 3 ≤ mdeg then tripModule s n.val mdeg else s)

/-! ## The regulator alert (R404, R405, R455) -/

/-- Drills that have asked to gate ramp down while the alert is asserted (R397). -/
def rampAsking (s : State) : State :=
  s.tillers.foldl (fun s p =>
    match p.2.gate with
    | .asking since =>
      let now := tcNow s (p.1 / 256)
      bump (setTilAt s p.1 { tilAt s p.1 with gate := .rampDown now }) 0x7060 7 (now - since)
    | _ => s) s

/-- PWRALERT_N is driven low by the board (0) or by the module's regulators (1). -/
def raiseAlert (s : State) (was : Bool) (source : Nat) : State :=
  if was then lowerFields s
  else
    let s := bump { s with power := { s.power with
      alertSince := s.clocks.aux, alertSource := source, holdSince := none } } 0x7060 5 1
    rampAsking (lowerFields s)

/-- A driver lets go; once none drives it, the alert is recorded with its length and the release hold starts. -/
def releaseAlert (s : State) (was : Bool) : State :=
  if was && !alerted s then
    let us := (s.clocks.aux - s.power.alertSince) / 25
    let s := boxAdd s (some 0xFF) 0x0004 [s.power.alertSource, us]
    { s with power := { s.power with holdSince := some s.clocks.aux } }
  else s

/-- Whether the module's main rails are up. -/
def railsUp (s : State) : Bool := decide (4 ≤ s.board.step)

/-- PWRALERT_ASSERT: the board drives PWRALERT_N low; before the main rails are up it has nothing to act on yet. -/
def execPwralertAssert (s : State) : Answer :=
  let t := { s with power := { s.power with alertBoard := true } }
  if railsUp s then .next (raiseAlert t (alerted s) 0)
  else if alerted s then .next t
  else .next { t with power := { t.power with alertSince := s.clocks.aux, alertSource := 0 } }

/-- PWRALERT_DEASSERT: the board lets go, and the module's overcurrent with it; undervoltage has its own release. -/
def execPwralertDeassert (s : State) : Answer :=
  let t := { s with power := { s.power with alertBoard := false, overcurrent := false } }
  .next (if railsUp s then releaseAlert t (alerted s) else t)

def execRegulatorOvercurrent (s : State) : Answer :=
  if railsUp s then .next (raiseAlert { s with power := { s.power with overcurrent := true } } (alerted s) 1)
  else .next s

/-- RELEASE_HOLD_EXPIRY: `OD 7040:02` ms after deassertion (R405). -/
def execReleaseHoldExpiry (s : State) : Answer :=
  match s.power.holdSince with
  | some t =>
    if t + auxMs (setting s 0x7040 2) ≤ s.clocks.aux then .next { s with power := { s.power with holdSince := none } }
    else .next s
  | none => .next s

/-- INPUT_UNDERVOLTAGE: the input has been below 40.0 V for 100 µs (R455). -/
def execInputUndervoltage (mv : Nat) (s : State) : Answer :=
  let was := alerted s
  let p := s.power
  if railsUp s ∧ mv < 40000 then
    .next (raiseAlert { s with power := { p with inputMv := mv, underVolt := true } } was 1)
  else .next { s with power := { p with inputMv := mv } }

/-- INPUT_RECOVERED: the input has been at or above 41.0 V for 1 ms (R455). -/
def execInputRecovered (mv : Nat) (s : State) : Answer :=
  let was := alerted s
  let p := s.power
  if p.underVolt ∧ 41000 ≤ mv then
    .next (releaseAlert { s with power := { p with inputMv := mv, underVolt := false } } was)
  else .next { s with power := { p with inputMv := mv } }

/-! ## Loss of a supply -/

/-- INPUT_POWER_FAILURE: the input falls below 38.0 V (R455): a record where the firmware runs (R465), and every main rail off;
start-up waits at step 3. -/
def execInputPowerFailure (mv : Nat) (s : State) : Answer :=
  let s := { s with power := { s.power with inputMv := mv } }
  if !railsUp s ∨ 38000 ≤ mv then .next s
  else if s.board.step < 6 then .next (coldState s)
  else .next (coldState (boxNow s 0x0002 [1, mv, powerCode s.power.st]))

/-- The 48 V input is not below the level of a power failure (R455). -/
def inputPresent (s : State) : Bool := decide (38000 ≤ s.power.inputMv)

/-- 48 V in the range in which the module starts (R463). -/
def inputGood (mv : Nat) : Bool := decide (40000 ≤ mv ∧ mv ≤ 60000)

/-- AUX_LOST: the whole module resets, with a record where 48 V is present; the latched trip clears (R456). -/
def execAuxLost (s : State) : Answer :=
  let s := if s.board.aux && inputPresent s then boxNow s 0x0002 [2, s.power.inputMv, powerCode s.power.st] else s
  let s := coldState s
  .next { s with
    power := { s.power with trip := false, tripSensor := 0xFF },
    board := { s.board with
      step := 0, aux := false, offEntered := false, thermtrip := false, i3c := none, eid := 0,
      scan := (false, true, true, false), tap := 0 } }

/-- AUX_POWER_ON: steps 1 and 2 of Table 16-11; the debug port is closed, the I3C target answers its static address, and the module
waits for 48 V. -/
def execAuxPowerOn (s : State) : Answer :=
  if s.board.aux then .next s else .next (closePort { s with board := { s.board with aux := true, step := 3 } })

/-- MAIN_POWER_GOOD: 48 V in range for 10 ms; start-up begins, unless the last power-down was an entry into Off or the
trip is latched (R463). -/
def execMainPowerGood (mv : Nat) (s : State) : Answer :=
  let b := s.board
  let s := { s with power := { s.power with inputMv := mv } }
  if b.aux ∧ b.step = 3 ∧ b.offEntered = false ∧ b.thermtrip = false ∧ inputGood mv = true then
    .next { s with board := { b with step := 4 } }
  else .next s

/-! ## Run and Idle (R387) -/

/-- What the filler and the ramp that a Drill is in have run so far is counted (R396, R397). -/
def countFiller (s : State) (id : Nat) (g : Gate) : State :=
  let now := tcNow s (id / 256)
  match g with
  | .asking since => bump s 0x7060 7 (now - since)
  | .rampDown since => bump s 0x7060 7 (now - since)
  | .waitGrant since => bump s 0x7060 6 (now - since)
  | .rampUp since => bump s 0x7060 6 (now - since)
  | _ => s

/-- Every Drill is gated (R396). -/
def gateAll (s : State) : State :=
  let s := s.tillers.foldl (fun s p => countFiller s p.1 p.2.gate) s
  { s with tillers := (s.tillers.map (fun p => (p.1, { p.2 with gate := Gate.gated }))).filter (fun p =>
      decide (p.2 ≠ Tiller.reset)) }

def anyLive (s : State) : Bool := (upto 4).any (fun i => jobLive (jobAt s i))

/-- IDLE_HOLD_EXPIRY: no job slot in state 1, 2 or 3 for `OD 7000:06` ms. -/
def execIdleHoldExpiry (s : State) : Answer :=
  if s.power.st = .run ∧ anyLive s = false ∧ s.power.target.isNone = true
      ∧ s.power.idleSince + auxMs (setting s 0x7000 6) ≤ s.clocks.aux then
    .next (gateAll { s with power := { s.power with st := .idle } })
  else .next s

/-! ## Entry (R388 to R390, Table 13-2) -/

def deeper (st : PowerSt) (v : Nat) : Bool := decide (powerCode st < v)

/-- The state that a request names. -/
def requestOf (v : Nat) : Option PowerSt :=
  match v with
  | 2 => some .sleep
  | 3 => some .deepSleep
  | 4 => some .off
  | _ => none

def fnBusy (s : State) : Bool :=
  fnIds.any (fun f => let st := (fnGet s f).st; decide (st = .stopping ∨ st = .starting ∨ st = .faulted))

/-- A step of the entry begins. -/
def atStep (s : State) (n : Nat) : State :=
  { s with power := { s.power with step := n, stepAux := s.clocks.aux } }

/-- A request to `OD 7000:02`; the answer is an abort code. -/
def powerRequest (s : State) (v : Nat) : State × Nat :=
  match requestOf v with
  | none => (s, 0x0302)
  | some t =>
    if anyLive s || fnBusy s || !deeper s.power.st v then (s, 0x0205)
    else if s.power.target.isSome || s.power.exiting then (s, 0x0501)
    else
      let first := if s.power.st = .sleep then (if t = .off then 0x41 else 6) else 1
      (atStep { s with power := { s.power with target := some t, entryAux := s.clocks.aux, wakeLatched := 0 } } first, 0)

/-- States in which a wake event is recognised (Table 13-3). -/
def wakeSeen (st : PowerSt) (ev : Nat) : Bool :=
  match st with
  | .sleep => decide (1 ≤ ev ∧ ev ≤ 6)
  | .deepSleep => decide (1 ≤ ev ∧ ev ≤ 5)
  | .off => decide (ev = 1)
  | _ => false

def wakeEnabled (s : State) (ev : Nat) : Bool := decide (ev = 1) || bitAt (setting s 0x7000 4) (ev - 1)

/-- Exit begins: a PWRALERT_N that is low acts on the Fields. -/
def beginExit (s : State) (ev : Nat) : State :=
  lowerFields (bump { s with power := { s.power with
    exiting := true, lastWake := ev, wakeLatched := 0, target := none, step := 0 } } 0x7060 1 1)

/-- A wake event: it starts the exit, or, enabled, is latched during an entry (R390). A module that has tripped stays stopped
(R402). -/
def wake (s : State) (ev : Nat) : State :=
  let p := s.power
  if p.exiting || p.trip || !wakeEnabled s ev then s
  else match p.target with
    | some _ => if p.wakeLatched = 0 then { s with power := { p with wakeLatched := ev } } else s
    | none => if wakeSeen p.st ev && decide (p.st ≠ .off) then beginExit s ev else s

/-- WAKE_N: event 1. From Off it starts the module from step 4 (R463); during start-up it is ignored (R465). -/
def execWakeN (s : State) : Answer :=
  let b := s.board
  if b.step = 11 then .next (wake s 1)
  else if b.aux ∧ b.step = 3 ∧ b.offEntered = true ∧ b.thermtrip = false ∧ inputGood s.power.inputMv = true then
    .next { s with
      board := { b with step := 4, offEntered := false },
      power := { s.power with lastWake := 1 }, counts := kvMod 0 s.counts (od 0x7060 1) (· + 1) }
  else .next s

/-- WAKE_TIMER_EXPIRY: `OD 7000:07` ms after entry began. -/
def execWakeTimerExpiry (s : State) : Answer :=
  let n := setting s 0x7000 7
  if n ≠ 0 ∧ s.power.entryAux + auxMs n ≤ s.clocks.aux then .next (wake s 5) else .next s

/-- What Sleep loses (Table 13-1): Hopper, Sheaf store, Furrow counters and semaphores; objects of stopped units read their last
values until the exit (R392). -/
def loseFields (s : State) : State :=
  let lose := fun (t : Tiller) => { t with hopper := [], sheaves := [], gate := Gate.gated }
  { s with furrows := [], sems := [],
           tillers := (s.tillers.map (fun p => (p.1, lose p.2))).filter (fun p => decide (p.2 ≠ Tiller.reset)) }

/-- Whether the step in progress can end. -/
def stepReady (s : State) : Bool :=
  match s.power.step with
  | 2 => s.cxl.waiting.isEmpty && s.cxl.home.isEmpty
  | 3 => !groupBusy s 0x10 && !groupBusy s 0x11
  | _ => true

/-- What the step in progress does. -/
def stepEffect (s : State) : State :=
  match s.power.step with
  | 1 => gateAll { s with power := { s.power with st := .idle } }
  | 2 =>
    let rest := fun (x : CxlPort) => { x with l1 := x.up }
    setCxlPort (setCxlPort s 0 (rest s.cxl.port0)) 1 (rest s.cxl.port1)
  | 3 => lasersOff (lasersOff s 0x10) 0x11
  | 4 => { s with granStacks := (s.granStacks.map (fun p => (p.1, { p.2 with openRow := [] }))).filter (fun p =>
      decide (p.2 ≠ Stack.reset)) }
  | 5 => { s with power := { s.power with st := .sleep }, board := { s.board with modrdy := some false } }
  | 6 => cxlDown (cxlDown s 0) 1
  | 7 => { s with power := { s.power with st := .deepSleep }, board := { s.board with modrdy := none } }
  | 0x41 => boxNow s 0x0002 [0, s.power.inputMv, powerCode s.power.st]
  | _ => s

/-- The steps after which an entry can be abandoned. -/
def abortPoint (n : Nat) : Bool := decide (n = 1 ∨ n = 2 ∨ n = 3 ∨ n = 4 ∨ n = 0x41)

/-- The step after step n of an entry to t; none where t is reached. -/
def stepAfter (n : Nat) (t : PowerSt) : Option Nat :=
  match n with
  | 1 => some 2
  | 2 => some 3
  | 3 => some (if t = .off then 0x41 else 4)
  | 4 => some 5
  | 5 => if t = .deepSleep then some 6 else none
  | 6 => some 7
  | 0x41 => some 0x51
  | _ => none

/-- The DOWN ports of the RUNNING groups train (R273). -/
def trainPorts (s : State) : State :=
  foldUpto 64 s (fun s p =>
    if (portAt s p).st = 1 ∧ running s (portFn p) = true ∧ beyondAcre s p = false then startTraining s p else s)

/-- A step of the entry begins: the ports withdraw as step 3 does. -/
def beginStep (s : State) (n : Nat) : State :=
  let s := atStep s n
  if n = 3 then withdrawGroup (withdrawGroup s 0x10) 0x11 else s

/-- The entry is abandoned after step n: where the ports had withdrawn they send their MAP again and train, and held admissions
proceed (R390). -/
def abandonEntry (s : State) (n : Nat) : State :=
  let ev := s.power.wakeLatched
  let s := bump s 0x7060 2 1
  if s.power.st = .sleep then beginExit s ev
  else
    let p := s.power
    let s := bump { s with power := { p with
      target := none, step := 0, wakeLatched := 0, lastWake := ev, idleSince := s.clocks.aux } } 0x7060 1 1
    kickAdmit (if n ≤ 2 then s else trainPorts (portChanged s))

/-- The last step is done: the state is reached, and a latched event starts the exit at once. -/
def entryDone (s : State) (t : PowerSt) : State :=
  let ev := s.power.wakeLatched
  let s := { s with power := { s.power with target := none, step := 0, wakeLatched := 0 } }
  if t = .off then
    let s := coldState s
    let s := { s with board := { s.board with offEntered := true } }
    if ev = 0 then s
    else { s with
      board := { s.board with step := 4, offEntered := false }, power := { s.power with lastWake := ev },
      counts := kvMod 0 s.counts (od 0x7060 1) (· + 1) }
  else if ev = 0 then s
  else beginExit s ev

/-- One step of the entry, as an idle step of the block performs it. -/
def entryStep (s : State) : State :=
  match s.power.target with
  | none => s
  | some t =>
    if !stepReady s then s
    else
      let n := s.power.step
      let s := stepEffect s
      if abortPoint n ∧ s.power.wakeLatched ≠ 0 then abandonEntry s n
      else match stepAfter n t with
        | some k => beginStep s k
        | none => entryDone s t

/-- Exit completes: Idle, every Drill gated, what Sleep loses lost; ports train from DOWN, and from Deep sleep the hosts train their
links. -/
def exitDone (s : State) : State :=
  let s := { s with
    power := { s.power with st := .idle, exiting := false, idleSince := s.clocks.aux },
    board := { s.board with modrdy := if s.board.step = 11 then some true else s.board.modrdy } }
  kickAdmit (gateAll (trainPorts (loseFields s)))

end Sys2Proof.Machine
end

