-- ==== Sys2Proof/Machine/Cxl.lean ====
section
/-! DEFINITION. The CXL ports (R212, R336 to R342, R392, R459, R466): the window, host and peer accesses, the
directory and its snoops, and the links. -/
namespace Sys2Proof.Machine

/-! ## What a port supports and reports (R336 to R338, Tables 11-1 and 11-2) -/

/-- Widths, and rates in GT/s, at which a link may train. -/
def linkWidths : List Nat := [8, 4, 2, 1]
def linkRates : List Nat := [64, 32, 16, 8]

def linkOk (width rate : Nat) : Bool := linkWidths.elem width && linkRates.elem rate

/-- Features that a port's capability structures advertise, and those they do not, which are refused when requested. -/
inductive CxlFeature where
  | flit256 | flit68 | latencyOptimisedFlit | io | cache | mem | type2 | backInvalidate | biasFlip | hdmH
  | multiHeaded | multiLogicalDevice | dynamicCapacity | hdmDecoders | switches | unorderedIo | dataObjectExchange
  | atomicOp | memAtomics | ide | globalPersistentFlush | poisonList | sanitize
  deriving DecidableEq, Repr

def CxlFeature.supported : CxlFeature → Bool
  | .flit256 | .io | .cache | .mem | .type2 | .backInvalidate | .multiHeaded | .hdmDecoders | .switches | .unorderedIo
  | .dataObjectExchange => true
  | .flit68 | .latencyOptimisedFlit | .biasFlip | .hdmH | .multiLogicalDevice | .dynamicCapacity | .atomicOp | .memAtomics
  | .ide | .globalPersistentFlush | .poisonList | .sanitize => false

/-- What an HDM decoder of a port accepts. -/
def HdmDecoder.ok (d : HdmDecoder) : Bool :=
  decide (d.ways = 1 ∨ d.ways = 2) && [256, 512, 1024, 2048, 4096].elem d.granularity

def windowBytes : Nat := 541165879296

/-- What the CDAT of a port reports: latencies in ns, bandwidth of each direction in GB/s, and its one memory range. -/
structure Cdat where
  readLatency : Nat
  writeLatency : Nat
  readBandwidth : Nat
  writeBandwidth : Nat
  ranges : List Nat
  deriving DecidableEq, Repr

def cdat : Cdat :=
  { readLatency := 260, writeLatency := 180, readBandwidth := 60, writeBandwidth := 60, ranges := [windowBytes] }

/-! ## The window (R339) -/

/-- The Granary address of a window offset. -/
def windowGa (o : Nat) : Nat :=
  let g := o / 2097152
  g % 8 * 2 ^ 36 + g / 8 * 2 ^ 21 + o % 2097152

/-! ## The directory (R340) -/

def directoryLines : Nat := 8388608

def dirBits (s : State) (line : Nat) : Nat :=
  match s.cxl.directory.find? (fun e => decide (e.1 = line)) with
  | some e => e.2
  | none => 0

/-- Gives a line its bits; a line no host may hold leaves the directory. -/
def setDir (s : State) (line bits : Nat) : State :=
  let d := s.cxl.directory
  let d := if bits = 0 then d.filter (fun e => decide (e.1 ≠ line))
    else if d.any (fun e => decide (e.1 = line)) then d.map (fun e => if e.1 = line then (line, bits) else e)
    else d ++ [(line, bits)]
  { s with cxl := { s.cxl with directory := d } }

/-- Snoops a line for its eviction on each port that may hold it, counting each once. -/
def evictLine (s : State) (e : Nat × Nat) : State :=
  foldUpto 2 s (fun s p =>
    if bitAt e.2 p && !s.cxl.snoops.elem (p, e.1, true) then bump (snoopLine s p e.1 true) (portCount p) 5 1 else s)

/-- Room for a line in the directory; a full one evicts its oldest entry first. -/
def directoryFor (s : State) (line : Nat) : State × Bool :=
  let d := s.cxl.directory
  if dirBits s line ≠ 0 ∨ d.length < directoryLines then (s, true)
  else match d with
    | e :: _ => (evictLine s e, false)
    | [] => (s, true)

/-! ## Accesses -/

/-- The port withholds its response, and its function is FAULTED (R341). -/
def withhold (s : State) (p : Fin 2) : State := faultFn (emit s (.cxlWithheld p)) (0x40 + p.val) 0x06 0

def portFin (p : Nat) : Fin 2 := if p = 0 then 0 else 1

/-- Whether an access must wait for the copies of other hosts; it snoops them. A peer's waits for those of both. -/
def snoopOthers (s : State) (r : CxlReq) (line : Nat) : State × Bool :=
  let bits := dirBits s line
  let need := (upto 2).filter (fun q => (r.peer || decide (q ≠ r.port)) && bitAt bits q && (r.write || bitAt bits (q + 2)))
  (need.foldl (fun s q => snoopLine s q line r.write) s, need.isEmpty)

/-- A write is performed: the port acknowledges it. -/
def cxlWritten (s : State) (r : CxlReq) : State :=
  let line := windowGa r.off / 64
  let s := emit s (.cxlDone (portFin r.port) r.off)
  if r.peer then s
  else setDir (bump s (portCount r.port) 2 1) line (Nat.lor (dirBits s line) (2 ^ r.port))

/-- A write makes its store; one that walk protection holds is acknowledged once it is performed (R177). -/
def cxlWrite (s : State) (r : CxlReq) : State × Option CxlReq :=
  let ga := windowGa r.off
  let ws := [(ga, r.data.take (64 - ga % 64))]
  let q := roomGate s (srcCxl r.port) ws
  if !q.2 then (q.1, some r)
  else
    let w := store q.1 (srcCxl r.port) none ga (r.data.take (64 - ga % 64))
    if w.2 then (withhold w.1 (portFin r.port), none)
    else if heldFrom w.1 (srcCxl r.port) (64 * (ga / 64)) 64 then (w.1, some { r with stored := true })
    else (cxlWritten w.1 r, none)

/-- A read takes the line, once it is admitted and no store of the port to it is held (R178, R209). -/
def cxlRead (s : State) (r : CxlReq) : State × Option CxlReq :=
  let line := windowGa r.off / 64
  if heldFrom s (srcCxl r.port) (64 * line) 64 then (s, some r)
  else if !canEnter s (srcCxl r.port) line false then (waitEnter s (srcCxl r.port) line false, some r)
  else
    let c := senseSector (enter s (srcCxl r.port) line false) line r.e (srcCxl r.port) 0
    if !c.2 then (withhold c.1 (portFin r.port), none)
    else
      let s := emit c.1 (.cxlData (portFin r.port) (r.off / 64 * 64) (gran c.1 (64 * line) 64))
      (if r.peer then s
       else setDir (bump s (portCount r.port) 1 1) line (Nat.lor (dirBits s line) (5 * 2 ^ r.port)), none)

/-- Performs one access, or answers it as it goes on waiting. A FAULTED port answers none (R341). -/
def tryCxl (s : State) (r : CxlReq) : State × Option CxlReq :=
  let line := windowGa r.off / 64
  if (fnGet s (0x40 + r.port)).st = .faulted then (emit s (.cxlWithheld (portFin r.port)), none)
  else if r.stored then
    if heldFrom s (srcCxl r.port) (64 * line) 64 then (s, some r)
    else if s.heldFailed.elem (srcCxl r.port, line) then
      (withhold { s with heldFailed := s.heldFailed.erase (srcCxl r.port, line) } (portFin r.port), none)
    else (cxlWritten s r, none)
  else
    let q := snoopOthers s r line
    if !q.2 then (q.1, some r)
    else
      let d := if r.peer then (q.1, true) else directoryFor q.1 line
      if !d.2 then (d.1, some r) else if r.write then cxlWrite d.1 r else cxlRead d.1 r

/-- Accesses are held for the exit: in Sleep, and from step 3 of an entry on (R392). -/
def cxlAsleep (s : State) : Bool :=
  s.power.exiting || decide (s.power.st = .sleep ∨ s.power.st = .deepSleep)
    || (s.power.target.isSome && decide (2 < s.power.step))

/-- Performs the accesses that no longer wait, in order; one to a line waits behind an earlier one to it. -/
def kickCxl (s : State) : State :=
  if cxlAsleep s then s
  else
    let run := fun (a : State × List CxlReq) (r : CxlReq) =>
      if a.2.any (fun q => decide (q.off / 64 = r.off / 64)) then (a.1, a.2 ++ [r])
      else
        let t := tryCxl a.1 r
        (t.1, a.2 ++ t.2.toList)
    let a := s.cxl.waiting.foldl run (s, [])
    let left := a.2.filter (fun r => a.1.cxl.waiting.any (fun q => decide (q.port = r.port ∧ q.off = r.off)))
    { a.1 with cxl := { a.1.cxl with waiting := left } }

/-- An access arrives at a port. -/
def cxlAccess (s : State) (r : CxlReq) : Answer :=
  let p := portFin r.port
  if windowBytes ≤ r.off then .fault .noSuchAddress
  else if (fnGet s (0x40 + r.port)).st = .faulted then .next (emit s (.cxlWithheld p))
  else if !(cxlPort s r.port).mem then .next (emit (wake s (2 + r.port)) (.cxlNotActive p))
  else .next (kickCxl (wake { s with cxl := { s.cxl with waiting := s.cxl.waiting ++ [r] } } (2 + r.port)))

/-- CXL_MEM_READ: the whole line at an offset. -/
def execCxlMemRead (port : Fin 2) (off : Nat) (e : CodeResult) (s : State) : Answer :=
  cxlAccess s { port := port.val, off := off, write := false, peer := false, e := e, data := [], stored := false }

/-- CXL_MEM_WRITE: bytes within one line; fewer than 64 are merged under R207. -/
def execCxlMemWrite (port : Fin 2) (off : Nat) (data : List Byte) (s : State) : Answer :=
  cxlAccess s { port := port.val, off := off, write := true, peer := false, e := .clean, data := data, stored := false }

/-- UNORDERED_IO_PEER_ACCESS: the port completes a peer's read or write of device memory (R336). -/
def execUnorderedIoPeerAccess (port : Fin 2) (off : Nat) (write : Bool) (data : List Byte) (s : State) : Answer :=
  cxlAccess s { port := port.val, off := off, write := write, peer := true, e := .clean, data := data, stored := false }

/-- CXL_IO_ATOMICOP: Unsupported Request (R212); its traffic is a wake event (Table 13-3). -/
def execCxlIoAtomicop (port : Fin 2) (_ : Nat) (s : State) : Answer :=
  .next (emit (wake s (2 + port.val)) (.cxlUnsupported port))

/-! ## Snoops answered (R340) -/

/-- Units that waited for a host's copy go on. -/
def afterSnoop (s : State) : State := kickStook (kickTasks (kickAdmit (serveInbox (kickCxl s))))

/-- A port has answered the snoop of a line: after BISnpInv it holds nothing, after BISnpData nothing modified. -/
def snoopAnswered (s : State) (p line : Nat) : State :=
  match s.cxl.snoops.find? (fun q => decide (q.1 = p ∧ q.2.1 = line)) with
  | none => s
  | some q =>
    let others := Nat.land (dirBits s line) (5 * 2 ^ (1 - p))
    let mine := if q.2.2 then 0 else Nat.land (dirBits s line) (2 ^ p)
    setDir { s with cxl := { s.cxl with snoops := s.cxl.snoops.erase q } } line (others + mine)

/-- Lines that come home are stored, where they are admitted (R178, R209). -/
def kickHome (s : State) : State :=
  s.cxl.home.foldl (fun s h =>
    let b := padTo 64 h.2.2
    let q := roomGate s (srcCxl h.1) [(64 * h.2.1, b)]
    if !q.2 then q.1
    else
      let s := { q.1 with cxl := { q.1.cxl with home := q.1.cxl.home.erase h } }
      snoopAnswered (store s (srcCxl h.1) none (64 * h.2.1) b).1 h.1 h.2.1) s

/-- BACK_INVALIDATE_RESPONSE: a modified line comes home, and the units that waited for it go on. -/
def execBackInvalidateResponse (port : Fin 2) (line : Nat) (dirty : List Byte) (s : State) : Answer :=
  let p := port.val
  if !s.cxl.snoops.any (fun q => decide (q.1 = p ∧ q.2.1 = line)) || s.cxl.home.any (fun h => decide (h.1 = p ∧ h.2.1 = line))
  then .next s
  else if dirty.isEmpty then .next (afterSnoop (snoopAnswered s p line))
  else .next (afterSnoop (kickHome { s with cxl := { s.cxl with home := s.cxl.home ++ [(p, line, dirty)] } }))

/-! ## Links (R459, R466) -/

/-- PERST_ASSERT: the link and the configuration of the port are reset, and the window closes on this port alone; its function
keeps its state (R466). -/
def execPerstAssert (port : Fin 2) (s : State) : Answer :=
  let p := port.val
  .next (cxlDown (setCxlPort s p { cxlPort s p with perst := true, decoders := [none, none] }) p)

/-- PERST_RELEASE: the port trains again, once its reference clock is there (R459). -/
def execPerstRelease (r : PerstRelease) (s : State) : Answer :=
  let p := r.port.val
  .next (setCxlPort s p { cxlPort s p with perst := false, refclk := r.refclk })

/-- CXL_LINK_UP: L0 is reached at a width and rate of Table 11-1; Memory_Active is set once start-up is done and the function is
RUNNING, and until then Configuration requests are answered with Request Retry Status. A link trained by the host in Deep sleep
is a wake event. -/
def execCxlLinkUp (port : Fin 2) (width rate : BitVec 8) (s : State) : Answer :=
  let p := port.val
  let x := cxlPort s p
  if s.power.st = .deepSleep ∧ s.power.exiting = false then .next (wake s (2 + p))
  else if x.perst ∨ x.refclk = false ∨ s.board.step < 8 ∨ s.power.trip = true ∨ linkOk width.toNat rate.toNat = false then .next s
  else
    let started := decide (s.board.step = 11)
    .next (setCxlPort s p { x with
      up := true, width := width.toNat, rate := rate.toNat, mem := started && decide ((fnGet s (0x40 + p)).st = .running),
      l1 := false, retry := !started })

/-- CXL_LINK_DOWN: the link is down or isolated; the window is lost on this port. -/
def execCxlLinkDown (port : Fin 2) (s : State) : Answer := .next (cxlDown s port.val)

/-- EXIT_FROM_L1: the host takes the port out of L1, or starts link training: wake event 2 or 3. -/
def execExitFromL1 (port : Fin 2) (s : State) : Answer :=
  let s := setCxlPort s port.val { cxlPort s port.val with l1 := false }
  .next (wake s (2 + port.val))

/-- REFERENCE_CLOCK_PRESENT: the port leaves its hold, and its function's STARTING ends. -/
def execReferenceClockPresent (port : Fin 2) (s : State) : Answer :=
  let f := 0x40 + port.val
  let held := startHeld s f
  let s := setCxlPort s port.val { cxlPort s port.val with refclk := true }
  if held ∧ s.board.step = 11 ∧ (fnGet s f).st = .starting then .next (reachRunning s f) else .next s

end Sys2Proof.Machine
end

