-- ==== Sys2Proof/Machine/Reli.lean ====
section
/-! DEFINITION. Error correction and sparing of the module's own paths (R409 to R417, R423, R425): Hedgerow replay, patrol
scrub, row and bank repair, and the two Selty controllers. -/
namespace Sys2Proof.Machine

/-! ## The Hedgerow (R409) -/

/-- A transfer's requester meets an uncorrectable error (R410): a job's own; a host's access is withheld and its port FAULTED (R341); a
request of another module is answered with STATUS 1. -/
def requesterMeets (s : State) (ga : Nat) : Requester → State
  | .unit => s
  | .job j => unitError s j.toNat
  | .host p =>
    let x := s.cxl
    let mine := fun (r : CxlReq) => decide (r.port = p.val ∧ windowGa r.off / 64 = ga / 64)
    withhold { s with cxl := { x with waiting := x.waiting.filter (fun r => !mine r) } } p
  | .module p src vc tag =>
    let mine := fun (x : Inbound) => decide (x.port = p.val ∧ x.src = src ∧ x.vc = vc ∧ x.tag = tag)
    match s.links.inbox.find? mine with
    | some x => answer { s with links := { s.links with inbox := s.links.inbox.filter (fun y => !mine y) } } x 1 []
    | none => s

/-- HEDGEROW_FLIT_REPLAY: an uncorrectable flit is replayed once, on the plane that its target address selects; if the replay
fails too, the receiving bridge is retired, its plane's traffic of that die moves to the next plane, and the transfer's requester
meets an uncorrectable error. -/
def execHedgerowFlitReplay (die : Fin 10) (x : HedgeTransfer) (again : Bool) (s : State) : Answer :=
  let b := (die.val, planeAt s die.val (planeOf x.target))
  if s.reli.bridges.elem b ∨ s.board.step ≠ 11 then .next s
  else
    let s := bump s 0x7880 6 1
    if !again then .next s
    else
      let s := bump { s with reli := { s.reli with bridges := s.reli.bridges ++ [b] } } 0x7880 7 1
      let left := 4 - (s.reli.bridges.filter (fun x => decide (x.1 = b.1))).length
      let s := boxAdd s none 0x0020 [4, 256 * b.1 + b.2, left]
      .next (requesterMeets s x.target x.requester)

/-! ## Patrol scrub (R413, R421) -/

/-- Sectors of a stack: 64 GiB. -/
def stackSectors : Nat := 2 ^ 30

/-- Granary is initialised, and neither in Sleep nor in Deep sleep nor past step 4 of their entry. -/
def scrubRuns (s : State) : Bool :=
  decide (10 ≤ s.board.step) && granaryOn s

/-- The pass ends: the count, and the counts that a pass keeps, start again. -/
def endPass (s : State) (k : Nat) : State :=
  bump (setStack s k { stackAt s k with scrubPos := 0, corrected := [], rowsFailedInPass := [] }) 0x7880 8 1

/-- SCRUB_SECTOR_READ: the next sector of a stack is read, corrected and written back, or listed; one of a committed range
is repaired at once. A sector that its reserved slots do not admit yet waits. -/
def execScrubSectorRead (stack : Fin 8) (e : CodeResult) (s : State) : Answer :=
  if !scrubRuns s then .next s
  else
    let k := stack.val
    let pos := (stackAt s k).scrubPos
    let sec := k * stackSectors + pos
    let src := reqSource .scrub
    if !canEnter s src sec false then .next (waitEnter s src sec false) else
    let q := senseSector (enter s src sec false) sec e src 0
    let t := setStack q.1 k { stackAt q.1 k with scrubPos := pos + 1 }
    let t := if pos + 1 = stackSectors then endPass t k else t
    .next (if q.2 then t else repairCommitted t)

/-! ## Row and bank repair (R414) -/

def bankOf (b : BankId) : Nat := 32 * b.channel.val + b.bank.val

/-- ROW_REPAIR_COMPLETE: the row is remapped to its copy, which has had no correction yet. -/
def execRowRepairComplete (b : BankId) (row : Nat) (s : State) : Answer :=
  let k := b.stack.val
  let x := stackAt s k
  let key := bankOf b * 16384 + row
  if !x.rowWait.elem key ∨ 16384 ≤ row then .next s
  else
    let s := setStack s k { x with
      rowWait := x.rowWait.erase key, rowRepaired := x.rowRepaired ++ [key], spareRows := x.spareRows - 1,
      rowsUsed := kvMod 0 x.rowsUsed (bankOf b) (· + 1), corrected := x.corrected.filter (fun q => decide (rowKey (64 * q) ≠ key)) }
    .next (boxAdd (bump s 0x7880 9 1) none 0x0020 [0, 2 ^ 32 * k + key, x.spareRows - 1])

/-- BANK_SPARE_COMPLETE: the bank is remapped to its copy. -/
def execBankSpareComplete (b : BankId) (s : State) : Answer :=
  let k := b.stack.val
  let x := stackAt s k
  let key := bankOf b
  if !x.bankCopy.elem key then .next s
  else
    let s := setStack s k { x with
      bankCopy := x.bankCopy.erase key, bankSpared := x.bankSpared ++ [key], spareBanks := x.spareBanks - 1,
      rowWait := x.rowWait.filter (fun r => decide (r / 16384 ≠ key)) }
    .next (boxAdd (bump s 0x7880 10 1) none 0x0020 [1, 2 ^ 32 * k + key, x.spareBanks - 1])

/-! ## The Selty controllers (R370, R423) -/

/-- Both controllers are in service. -/
def bothUp (s : State) : Bool := s.reli.upA && s.reli.upB

/-- The controller that is not in charge is in service. -/
def standbyUp (s : State) : Bool := if s.reli.inCharge = 0 then s.reli.upB else s.reli.upA

/-- Puts a controller in or out of service. -/
def setUp (s : State) (c : Nat) (up : Bool) : State :=
  if c = 0 then { s with reli := { s.reli with upA := up } } else { s with reli := { s.reli with upB := up } }

/-- The other controller takes charge, with its copy of the dictionary; cause 0 is missed heartbeats, 1 an activation. -/
def takeCharge (s : State) (cause : Nat) : State :=
  let from_ := s.reli.inCharge
  let s := { s with
    reli := { s.reli with inCharge := 1 - from_, missed := 0 }, dict := { s.dict with changeover := false } }
  boxAdd (bump s 0x7880 11 1) none 0x0030 [from_, 1 - from_, cause]

/-- SELTY_HEARTBEAT: a heartbeat of the controller in charge arrives or is missed; at the tenth in a row the changeover
begins, where a standby controller is in service. -/
def execSeltyHeartbeat (seen : Bool) (s : State) : Answer :=
  if s.board.step ≠ 11 ∨ s.dict.changeover = true then .next s
  else
    let n := if seen then 0 else s.reli.missed + 1
    let s := { s with reli := { s.reli with missed := n } }
    if 10 ≤ n ∧ standbyUp s = true then .next { s with dict := { s.dict with changeover := true } } else .next s

/-! ## The black box (R425) -/

/-- BLACK_BOX_RECORD_WRITE: the oldest record of the queue goes into both mirrors. -/
def execBlackBoxRecordWrite (s : State) : Answer := .next (writeBox s 1)

end Sys2Proof.Machine
end

