-- ==== Sys2Proof/Machine/Crypto.lean ====
section
/-! DEFINITION. SHA-512 and RSASSA-PSS verification with the parameters of R429. -/
namespace Sys2Proof.Machine

/-! ## SHA-512 -/

def shaK0 : List Word64 :=
  [0x428A2F98D728AE22, 0x7137449123EF65CD, 0xB5C0FBCFEC4D3B2F, 0xE9B5DBA58189DBBC,
   0x3956C25BF348B538, 0x59F111F1B605D019, 0x923F82A4AF194F9B, 0xAB1C5ED5DA6D8118,
   0xD807AA98A3030242, 0x12835B0145706FBE, 0x243185BE4EE4B28C, 0x550C7DC3D5FFB4E2,
   0x72BE5D74F27B896F, 0x80DEB1FE3B1696B1, 0x9BDC06A725C71235, 0xC19BF174CF692694,
   0xE49B69C19EF14AD2, 0xEFBE4786384F25E3, 0x0FC19DC68B8CD5B5, 0x240CA1CC77AC9C65]
def shaK1 : List Word64 :=
  [0x2DE92C6F592B0275, 0x4A7484AA6EA6E483, 0x5CB0A9DCBD41FBD4, 0x76F988DA831153B5,
   0x983E5152EE66DFAB, 0xA831C66D2DB43210, 0xB00327C898FB213F, 0xBF597FC7BEEF0EE4,
   0xC6E00BF33DA88FC2, 0xD5A79147930AA725, 0x06CA6351E003826F, 0x142929670A0E6E70,
   0x27B70A8546D22FFC, 0x2E1B21385C26C926, 0x4D2C6DFC5AC42AED, 0x53380D139D95B3DF,
   0x650A73548BAF63DE, 0x766A0ABB3C77B2A8, 0x81C2C92E47EDAEE6, 0x92722C851482353B]
def shaK2 : List Word64 :=
  [0xA2BFE8A14CF10364, 0xA81A664BBC423001, 0xC24B8B70D0F89791, 0xC76C51A30654BE30,
   0xD192E819D6EF5218, 0xD69906245565A910, 0xF40E35855771202A, 0x106AA07032BBD1B8,
   0x19A4C116B8D2D0C8, 0x1E376C085141AB53, 0x2748774CDF8EEB99, 0x34B0BCB5E19B48A8,
   0x391C0CB3C5C95A63, 0x4ED8AA4AE3418ACB, 0x5B9CCA4F7763E373, 0x682E6FF3D6B2B8A3,
   0x748F82EE5DEFB2FC, 0x78A5636F43172F60, 0x84C87814A1F0AB72, 0x8CC702081A6439EC]
def shaK3 : List Word64 :=
  [0x90BEFFFA23631E28, 0xA4506CEBDE82BDE9, 0xBEF9A3F7B2C67915, 0xC67178F2E372532B,
   0xCA273ECEEA26619C, 0xD186B8C721C0C207, 0xEADA7DD6CDE0EB1E, 0xF57D4F7FEE6ED178,
   0x06F067AA72176FBA, 0x0A637DC5A2C898A6, 0x113F9804BEF90DAE, 0x1B710B35131C471B,
   0x28DB77F523047D84, 0x32CAAB7B40C72493, 0x3C9EBE0A15C9BEBC, 0x431D67C49C100D4C,
   0x4CC5D4BECB3E42B6, 0x597F299CFC657E2A, 0x5FCB6FAB3AD6FAEC, 0x6C44198C4A475817]

/-- The 80 round constants. -/
def shaK : List Word64 := shaK0 ++ shaK1 ++ shaK2 ++ shaK3

/-- The first hash value. -/
def shaStart : List Word64 :=
  [0x6A09E667F3BCC908, 0xBB67AE8584CAA73B, 0x3C6EF372FE94F82B, 0xA54FF53A5F1D36F1,
   0x510E527FADE682D1, 0x9B05688C2B3E6C1F, 0x1F83D9ABFB41BD6B, 0x5BE0CD19137E2179]

/-- The number that bytes spell, most significant first. -/
def beNat (b : List Byte) : Nat := b.foldl (fun n x => 256 * n + x.toNat) 0

/-- The n low bytes of v, most significant first. -/
def toBe (n v : Nat) : List Byte := (toLe n v).reverse

def rotr (x : Word64) (n : Nat) : Word64 := x.rotateRight n

/-- The message with its padding: a one bit, zeros, and the length in bits as 16 bytes. -/
def shaPad (b : List Byte) : List Byte :=
  b ++ (0x80 :: zeros ((239 - b.length % 128) % 128)) ++ toBe 16 (8 * b.length)

/-- The message schedule, newest word first. -/
def shaSchedule : Nat → List Word64 → List Word64
  | 0, w => w
  | n + 1, w =>
    let at_ := fun (i : Nat) => (w[i]?).getD 0
    let x := at_ 14
    let y := at_ 1
    let s0 := rotr x 1 ^^^ rotr x 8 ^^^ (x >>> 7)
    let s1 := rotr y 19 ^^^ rotr y 61 ^^^ (y >>> 6)
    shaSchedule n ((at_ 15 + s0 + at_ 6 + s1) :: w)

/-- The eight working variables. -/
structure ShaVars where
  a : Word64
  b : Word64
  c : Word64
  d : Word64
  e : Word64
  f : Word64
  g : Word64
  h : Word64
  deriving DecidableEq, Repr

def shaRound (v : ShaVars) (p : Word64 × Word64) : ShaVars :=
  let t1 := v.h + (rotr v.e 14 ^^^ rotr v.e 18 ^^^ rotr v.e 41) + ((v.e &&& v.f) ^^^ (~~~v.e &&& v.g)) + p.1 + p.2
  let t2 := (rotr v.a 28 ^^^ rotr v.a 34 ^^^ rotr v.a 39) + ((v.a &&& v.b) ^^^ (v.a &&& v.c) ^^^ (v.b &&& v.c))
  { a := t1 + t2, b := v.a, c := v.b, d := v.c, e := v.d + t1, f := v.e, g := v.f, h := v.g }

/-- One block of 128 bytes. -/
def shaBlock (h : List Word64) (b : List Byte) : List Word64 :=
  let w := (chunksOf 8 16 b).map (fun c => BitVec.ofNat 64 (beNat c))
  let ws := (shaSchedule 64 w.reverse).reverse
  let at_ := fun (i : Nat) => (h[i]?).getD 0
  let v := (shaK.zip ws).foldl shaRound
    { a := at_ 0, b := at_ 1, c := at_ 2, d := at_ 3, e := at_ 4, f := at_ 5, g := at_ 6, h := at_ 7 }
  [at_ 0 + v.a, at_ 1 + v.b, at_ 2 + v.c, at_ 3 + v.d, at_ 4 + v.e, at_ 5 + v.f, at_ 6 + v.g, at_ 7 + v.h]

/-- The 64-byte digest of a message. -/
def sha512 (b : List Byte) : List Byte :=
  let p := shaPad b
  ((chunksOf 128 (p.length / 128) p).foldl shaBlock shaStart).flatMap (fun x => toBe 8 x.toNat)

/-! ## RSASSA-PSS (R429) -/

/-- b to the power 2^n modulo m. -/
def squareMod (m : Nat) : Nat → Nat → Nat
  | 0, b => b
  | n + 1, b => squareMod m n (b * b % m)

/-- The public operation, with exponent 65 537. -/
def rsaPublic (m s : Nat) : Nat := squareMod m 16 s * s % m

/-- MGF1 with SHA-512: n bytes from a seed. -/
def mgf1 (seed : List Byte) (n : Nat) : List Byte :=
  ((upto (ceilDiv n 64)).flatMap (fun i => sha512 (seed ++ toBe 4 i))).take n

def xorBytes (a b : List Byte) : List Byte := (a.zip b).map (fun p => p.1 ^^^ p.2)

/-- EMSA-PSS verification of an encoded message of 4 095 bits against a message: hash and salt of 64 bytes. -/
def pssOk (em : List Byte) (msg : List Byte) : Bool :=
  let masked := em.take 447
  let h := (em.drop 447).take 64
  let db := xorBytes masked (mgf1 h 447)
  let db := match db with
    | x :: l => (x &&& 0x7F) :: l
    | [] => []
  let salt := db.drop 383
  decide (em.length = 512 ∧ em.drop 511 = [0xBC] ∧ ((em.head?).getD 0) &&& 0x80 = 0
    ∧ db.take 383 = zeros 382 ++ [0x01] ∧ h = sha512 (zeros 8 ++ sha512 msg ++ salt))

/-- Whether sig is a signature of msg under a modulus of exactly 4 096 bits. -/
def rsaVerify (modulus : Nat) (sig msg : List Byte) : Bool :=
  let s := beNat sig
  decide (2 ^ 4095 ≤ modulus ∧ modulus < 2 ^ 4096 ∧ sig.length = 512 ∧ s < modulus) &&
    pssOk (toBe 512 (rsaPublic modulus s)) msg

end Sys2Proof.Machine
end

