-- ==== Sys2Proof/Machine/Certs.lean ====
section
/-! DEFINITION. What the module signs under R429, and the DER X.509 v3 certificates of R438 and R440: DER itself and the layout of
a certificate are those of ITU-T X.690 and X.509, which the manual adopts and does not restate (log entry 85). -/
namespace Sys2Proof.Machine

/-! ## Signatures (R429) -/

/-- The modulus of a key of the module: exactly 4 096 bits. -/
def RsaKey.n (k : RsaKey) : Nat := 2 ^ 4095 + k.modulus % 2 ^ 4095

/-- b to the power e modulo m, for an exponent of so many bits. -/
def powMod (m : Nat) : Nat → Nat → Nat → Nat
  | 0, _, _ => 1
  | k + 1, b, e => let r := powMod m k (b * b % m) (e / 2); if e % 2 = 1 then r * b % m else r

/-- EMSA-PSS encoding in 4 095 bits with SHA-512, MGF1 with SHA-512 and a salt of 64 bytes. -/
def pssEncode (msg salt : List Byte) : List Byte :=
  let salt := padTo 64 salt
  let h := sha512 (zeros 8 ++ sha512 msg ++ salt)
  let masked := match xorBytes (zeros 382 ++ 0x01 :: salt) (mgf1 h 447) with
    | x :: l => (x &&& 0x7F) :: l
    | [] => []
  masked ++ h ++ [0xBC]

/-- The signature of a message by a key: 512 bytes. -/
def RsaKey.sign (k : RsaKey) (msg salt : List Byte) : List Byte :=
  toBe 512 (powMod k.n 4096 (beNat (pssEncode msg salt)) k.exponent)

/-! ## DER -/

/-- The length octets of a content of n bytes. -/
def derLen (n : Nat) : List Byte := if n < 128 then toBe 1 n else if n < 256 then 0x81 :: toBe 1 n else 0x82 :: toBe 2 n

def der (tag : Byte) (content : List Byte) : List Byte := tag :: derLen content.length ++ content

def derSeq (items : List (List Byte)) : List Byte := der 0x30 (items.foldl (· ++ ·) [])

/-- An INTEGER from the bytes of a positive number. -/
def derInt (b : List Byte) : List Byte := der 0x02 (0x00 :: b)

def derBits (b : List Byte) : List Byte := der 0x03 (0x00 :: b)

/-- The object identifiers used: id-RSASSA-PSS, id-mgf1, rsaEncryption, id-sha512, serialNumber, and Onbor's own extension. -/
def oidPss : List Byte := der 0x06 [0x2A, 0x86, 0x48, 0x86, 0xF7, 0x0D, 0x01, 0x01, 0x0A]
def oidMgf1 : List Byte := der 0x06 [0x2A, 0x86, 0x48, 0x86, 0xF7, 0x0D, 0x01, 0x01, 0x08]
def oidRsa : List Byte := der 0x06 [0x2A, 0x86, 0x48, 0x86, 0xF7, 0x0D, 0x01, 0x01, 0x01]
def oidSha512 : List Byte := der 0x06 [0x60, 0x86, 0x48, 0x01, 0x65, 0x03, 0x04, 0x02, 0x03]
def oidSerial : List Byte := der 0x06 [0x55, 0x04, 0x05]

/-- id-RSASSA-PSS with SHA-512, MGF1 with SHA-512 and a salt of 64 bytes. -/
def pssAlgorithm : List Byte :=
  let hash := derSeq [oidSha512]
  derSeq [oidPss, derSeq [der 0xA0 hash, der 0xA1 (derSeq [oidMgf1, hash]), der 0xA2 (der 0x02 [64])]]

/-- The public key of a modulus, with the exponent 65 537. -/
def keyInfo (modulus : Nat) : List Byte :=
  derSeq [derSeq [oidRsa, der 0x05 []], derBits (derSeq [derInt (toBe 512 modulus), der 0x02 [0x01, 0x00, 0x01]])]

def serial16 : List Byte := padTo 16 Config.serial

/-- A subject whose serialNumber is `OD 0001:02`. -/
def deviceName : List Byte := derSeq [der 0x31 (derSeq [oidSerial, der 0x13 serial16])]

/-- A field of a certificate that the manual leaves open, in at most so many bytes. -/
def certField (n size : Nat) : List Byte := (Config.certField n).take size

/-- What is in a certificate beside its signature: the number n picks the fields that the manual leaves open. -/
structure CertBody where
  n : Nat
  issuer : List Byte
  subject : List Byte
  notAfter : List Byte
  modulus : Nat
  extensions : List Byte
  deriving DecidableEq, Repr

/-- A certificate of version 3, signed by its issuer's key. -/
def certificate (b : CertBody) (k : RsaKey) (salt : List Byte) : List Byte :=
  let tbs := derSeq [der 0xA0 (der 0x02 [2]), derInt (certField (8 * b.n) 19), pssAlgorithm, b.issuer,
    derSeq [der 0x18 (padTo 15 (certField (8 * b.n + 1) 15)), der 0x18 b.notAfter], b.subject, keyInfo b.modulus,
    der 0xA3 (derSeq [b.extensions])]
  derSeq [tbs, pssAlgorithm, derBits (k.sign tbs salt)]

/-! ## The identity chain (R438, R442) -/

/-- 99991231235959Z. -/
def noExpiry : List Byte := [0x39, 0x39, 0x39, 0x39, 0x31, 0x32, 0x33, 0x31, 0x32, 0x33, 0x35, 0x39, 0x35, 0x39, 0x5A]

def identityKey : RsaKey := { modulus := Config.identityModulus, exponent := Config.privateExponent 0 }
def intermediateKey : RsaKey := { modulus := Config.intermediateModulus, exponent := Config.privateExponent 1 }
def rootKey : RsaKey := { modulus := Config.rootModulus, exponent := Config.privateExponent 2 }

/-- The name of one of Onbor's authorities. -/
def onborName (n : Nat) : List Byte := derSeq [certField (8 * n + 2) 128]

def deviceCert : List Byte :=
  certificate { n := 0, issuer := onborName 1, subject := deviceName, notAfter := noExpiry, modulus := identityKey.n,
                extensions := certField 3 256 } intermediateKey (certField 4 64)

def intermediateCert : List Byte :=
  certificate { n := 1, issuer := onborName 2, subject := onborName 1, notAfter := padTo 15 (certField 13 15),
                modulus := intermediateKey.n, extensions := certField 11 256 } rootKey (certField 12 64)

def rootCert : List Byte :=
  certificate { n := 2, issuer := onborName 2, subject := onborName 2, notAfter := padTo 15 (certField 21 15),
                modulus := rootKey.n, extensions := certField 19 256 } rootKey (certField 20 64)

/-- The chain of `OD 8030:01` and slot 0, leaf first; it is written at manufacture and never changes. -/
def identityChain : List Byte := deviceCert ++ intermediateCert ++ rootCert

/-- The self-signed certificate of a debug alias key, marked by Onbor's extension (step 8 of Table 15-7). -/
def aliasCert (k : RsaKey) : List Byte :=
  certificate { n := 3, issuer := deviceName, subject := deviceName, notAfter := noExpiry, modulus := k.n,
                extensions := derSeq [certField 27 128, der 0x04 [0x05, 0x00]] } k (certField 28 64)

/-- A certificate request for a key (R440). -/
def certRequest (k : RsaKey) (salt : List Byte) : List Byte :=
  let info := derSeq [der 0x02 [0], deviceName, keyInfo k.n, der 0xA0 []]
  derSeq [info, pssAlgorithm, derBits (k.sign info salt)]

/-! ## The key that a certificate names (R440) -/

/-- The first element of a run of DER: its tag, its content, and what follows it. -/
def derHead : List Byte → Option (Nat × List Byte × List Byte)
  | t :: l :: r =>
    let k := l.toNat
    let n := if k < 128 then k else beNat (r.take (k % 128))
    let r := if k < 128 then r else r.drop (k % 128)
    if r.length < n then none else some (t.toNat, r.take n, r.drop n)
  | _ => none

/-- The content of element number k of a run, where its tag is the one asked for. -/
def derItem (tag : Nat) : Nat → List Byte → Option (List Byte)
  | 0, b => (derHead b).bind (fun x => if x.1 = tag then some x.2.1 else none)
  | k + 1, b => (derHead b).bind (fun x => derItem tag k x.2.2)

/-- The modulus of the public key that a certificate of version 3 is for. -/
def certModulus (cert : List Byte) : Option Nat :=
  (derItem 0x30 0 cert).bind (fun c => (derItem 0x30 0 c).bind (fun tbs =>
    (derItem 0x30 6 tbs).bind (fun info => (derItem 0x03 1 info).bind (fun key =>
      (derItem 0x30 0 (key.drop 1)).bind (fun k => (derItem 0x02 0 k).map beNat)))))

end Sys2Proof.Machine
end

