-- ==== Sys2Proof/Machine/Security.lean ====
section
/-! DEFINITION. Signed firmware, floor and revocation, and the debug port (R424, R429 to R437, R442 to R445, R451): what
the security objects do; the answer of each is an abort code. -/
namespace Sys2Proof.Machine

/-! ## Image headers (Table 15-2) -/

def cut (b : List Byte) (off n : Nat) : List Byte := (b.drop off).take n
def cutLe (b : List Byte) (off n : Nat) : Nat := leNat (cut b off n)

def imgSvn (b : List Byte) : Nat := cutLe b 8 1
def imgKeyid (b : List Byte) : Nat := cutLe b 10 1 % 16
def imgLoader (b : List Byte) : Nat := cutLe b 12 4
def imgFirmware (b : List Byte) : Nat := cutLe b 16 4
def imgMicro (b : List Byte) : Nat := cutLe b 20 4
def imgVersion (b : List Byte) : Nat := cutLe b 4 4

/-- MAGIC, VER, reserved fields and lengths; the whole image is at most 8 MiB (check 0x10). -/
def imageShape (b : List Byte) : Bool :=
  decide (cutLe b 0 2 = 0x4946 ∧ cutLe b 2 2 = 1 ∧ imgSvn b ≤ 64 ∧ cutLe b 9 1 < 8 ∧ cutLe b 10 1 < 16
    ∧ cutLe b 11 1 = 0 ∧ cutLe b 24 8 = 0 ∧ cutLe b 224 32 = 0
    ∧ imgLoader b % 64 = 0 ∧ 64 ≤ imgLoader b ∧ imgLoader b ≤ 262144 ∧ imgFirmware b % 64 = 0 ∧ imgMicro b % 64 = 0
    ∧ b.length = 1792 + imgLoader b + imgFirmware b + imgMicro b ∧ b.length ≤ 8388608)

/-- The bit of PARTS that a part looks for. -/
def partBit : Variant → Nat
  | .gz940 => 0 | .gz936 => 1 | .gz932 => 2

/-- A key record (R430): purpose, KEYID, modulus. -/
def keyRecord (purpose keyid : Nat) (modulus : List Byte) : List Byte := toLe 1 purpose ++ toLe 1 keyid ++ modulus

/-- Whether a KEYID is revoked for a purpose: 0 image, 1 debug. -/
def revokedKey (s : State) (purpose keyid : Nat) : Bool := bitAt s.sec.revoked.toNat (16 * purpose + keyid)

/-- The section digests agree (check 0x16). -/
def sectionsOk (b : List Byte) : Bool :=
  let l := imgLoader b
  let f := imgFirmware b
  decide (sha512 (cut b 1792 l) = cut b 32 64 ∧ sha512 (cut b (1792 + l) f) = cut b 96 64
    ∧ sha512 (cut b (1792 + l + f) (imgMicro b)) = cut b 160 64)

/-- The first check of Table 15-3 that an image fails; 0 where it is accepted. -/
def imageCode (s : State) (b : List Byte) : Nat :=
  if !imageShape b then 0x10
  else if !bitAt (cutLe b 9 1) (partBit s.variant) then 0x11
  else if revokedKey s 0 (imgKeyid b) then 0x12
  else if !rsaVerify rootKey.n (cut b 768 512) (keyRecord 1 (imgKeyid b) (cut b 256 512)) then 0x13
  else if !rsaVerify (beNat (cut b 256 512)) (cut b 1280 512) (b.take 1280) then 0x14
  else if imgSvn b < s.sec.floor then 0x15
  else if !sectionsOk b then 0x16
  else 0

/-! ## Slots (R434) -/

/-- A slot of a Headland's boot flash: 0 Headland A, 1 Headland B. -/
def slotAt (s : State) (c n : Nat) : Slot :=
  if c = 0 then (if n = 0 then s.sec.slot0 else s.sec.slot1) else if n = 0 then s.sec.slotB0 else s.sec.slotB1

def setSlotAt (s : State) (c n : Nat) (x : Slot) : State :=
  { s with sec :=
    if c = 0 then (if n = 0 then { s.sec with slot0 := x } else { s.sec with slot1 := x })
    else if n = 0 then { s.sec with slotB0 := x } else { s.sec with slotB1 := x } }

/-- The slot that a Headland's selector names, and the other one. -/
def bootOf (s : State) (c : Nat) : Nat := if c = 0 then s.sec.bootA else s.sec.bootB
def otherNo (s : State) (c : Nat) : Nat := 1 - bootOf s c
def otherSlot (s : State) (c : Nat) : Slot := slotAt s c (otherNo s c)

/-- The active slot of the controller in charge, and the inactive one beside it. -/
def bootNow (s : State) : Nat := bootOf s s.reli.inCharge
def inactiveSlot (s : State) : Slot := otherSlot s s.reli.inCharge

/-- Writes the inactive slot of both Headlands. -/
def setInactive (s : State) (x : Slot) : State :=
  let t := setSlotAt s 0 (otherNo s 0) x
  setSlotAt t 1 (otherNo s 1) x

/-- A security event: subcode and data (R445). -/
def secEvent (s : State) (facts : List Nat) : State := boxAdd s (some 0xFF) 0x0040 facts

def activating (s : State) : Bool := decide (1 ≤ s.reli.activation ∧ s.reli.activation ≤ 4)

/-- The completing write of `OD 8020:01`: the inactive slot is marked empty in both Headlands and programmed. -/
def uploadImage (s : State) (image : List Byte) : State × Nat :=
  if s.sec.upload = 1 ∨ s.sec.upload = 2 ∨ activating s = true then (s, 0x0501)
  else
    let s := setInactive s { image := image, checked := false }
    ({ s with sec := { s.sec with upload := 1 } }, 0)

/-- IMAGE_CHECK_COMPLETE: the programmed copy is checked; in recovery an image that passes is booted at once (R435). -/
def execImageCheckComplete (s : State) : Answer :=
  if s.sec.upload ≠ 1 ∧ s.sec.upload ≠ 2 then .next s
  else
    let b := (inactiveSlot s).image
    let code := imageCode s b
    if code = 0 then
      let s := bump (setInactive s { image := b, checked := true }) 0x8080 1 1
      let s := { s with sec := { s.sec with upload := 3 } }
      if s.sec.bootMode = 2 then
        .next { s with board := { s.board with step := 4 } }
      else .next s
    else
      let s := bump (setInactive s Slot.reset) 0x8080 2 1
      .next (secEvent { s with sec := { s.sec with upload := code } } [2, code])

/-! ## Floor and revocation (R436, R437) -/

/-- Write of 1 to `OD 8010:02`. -/
def raiseFloor (s : State) : State × Nat :=
  if !bothUp s || decide (s.sec.runA.version ≠ s.sec.runB.version) then (s, 0x0205)
  else
    let old := s.sec.floor
    let n := (runningNow s).svn
    if n ≤ old then (s, 0)
    else
      let s := secEvent { s with sec := { s.sec with floor := n } } [3, old, n]
      let gone := (inactiveSlot s).checked && decide (imgSvn (inactiveSlot s).image < n)
      let s := [0, 1].foldl (fun s c =>
        let x := otherSlot s c
        if x.checked && decide (imgSvn x.image < n) then setSlotAt s c (otherNo s c) Slot.reset else s) s
      if gone then ({ s with sec := { s.sec with upload := 0 } }, 0)
      else (s, 0)

/-- Whether an image running on a controller in service is signed by a KEYID. -/
def keyRuns (s : State) (k : Nat) : Bool :=
  (s.reli.upA && decide (s.sec.runA.keyid = k)) || (s.reli.upB && decide (s.sec.runB.keyid = k))

/-- Write to `OD 8010:03`: reserved bits are checked with the value. One that names the KEYID of an image that runs is refused,
whatever its purpose. -/
def revokeKey (s : State) (v : Nat) : State × Nat :=
  let purpose := v / 128
  let k := v % 16
  if keyRuns s k then (s, 0x0205)
  else
    let s := { s with sec := { s.sec with revoked := s.sec.revoked ||| BitVec.ofNat 32 (2 ^ (16 * purpose + k)) } }
    (secEvent s [4, purpose, k], 0)

/-! ## The debug port (R442, R443, Tables 15-7 and 15-8) -/

/-- A new challenge of 32 bytes. -/
def newChallenge (s : State) : State :=
  let d := drawBytes s
  { d.2 with sec := { d.2.sec with challenge := some (padTo 32 d.1) } }

/-- The first check of step 3 that a token fails, 1 to 7; 0 where it passes. -/
def tokenCheck (s : State) (b : List Byte) : Nat :=
  let scope := cutLe b 5 1
  let k := cutLe b 6 1
  if b.length ≠ 1600 ∨ cutLe b 0 2 ≠ 0x5444 ∨ cutLe b 2 2 ≠ 1 ∨ cutLe b 4 1 ≠ 0 ∨ (scope ≠ 1 ∧ scope ≠ 2) ∨ 16 ≤ k
      ∨ cutLe b 7 1 ≠ 0 ∨ cutLe b 28 4 ≠ 0 then 1
  else if cut b 8 16 ≠ serial16 then 2
  else if cutLe b 24 4 ≠ s.reli.boot % 2 ^ 32 then 3
  else if s.sec.challenge ≠ some (cut b 32 32) then 4
  else if revokedKey s 1 k then 5
  else if !rsaVerify rootKey.n (cut b 576 512) (keyRecord 2 k (cut b 64 512)) then 6
  else if !rsaVerify (beNat (cut b 64 512)) (cut b 1088 512) (b.take 1088) then 7
  else 0

/-- A fresh RSA-4096 key. -/
def drawKey (s : State) : RsaKey × State :=
  let a := drawFree s
  let b := drawFree a.2
  ({ modulus := a.1, exponent := b.1 }, b.2)

/-- Step 4: the erasure is pending, admissions are held, and SPDM connections and sessions end. -/
def beginUnlock (s : State) (scope keyid : Nat) : State :=
  { s with sec := { s.sec with conns := [], sessions := [], erasePending := true, unlock := some (5, scope, keyid) } }

/-- Steps 5 to 8, one in each idle step of the block: the secrets are erased, the opening is counted, the port opens, and
the alias key is made. -/
def unlockStep (s : State) : State :=
  let x := s.sec
  if s.board.step < 6 ∨ s.power.trip = true then s
  else match x.unlock with
    | none => s
    | some (5, scope, k) => { s with sec := { x with chains := [], keys := [], unlock := some (6, scope, k) } }
    | some (6, scope, k) =>
      let s := { s with sec := { x with
        openCount := x.openCount + 1, lifecycle := 1, erasePending := false, unlock := some (7, scope, k) } }
      bump (secEvent s [6, scope, k]) 0x8080 5 1
    | some (7, scope, k) => { s with sec := { x with debugPort := scope, unlock := some (8, scope, k) } }
    | some _ =>
      let d := drawKey s
      { d.2 with sec := { d.2.sec with aliasKey := true, keys := [(0, d.1)], unlock := none } }

/-- Write of a token to `OD 8040:02`. -/
def unlock (s : State) (b : List Byte) : State × Nat :=
  if 32 ≤ s.sec.openCount then (bump (secEvent s [5, 8]) 0x8080 4 1, 0x0205)
  else if anyLive s || decide (8 ≤ s.sec.refusedTokens ∨ s.sec.debugPort ≠ 0) || s.sec.unlock.isSome then (s, 0x0205)
  else
    let c := tokenCheck s b
    let s := { s with sec := { s.sec with challenge := none } }
    if c ≠ 0 then
      let s := { s with sec := { s.sec with refusedTokens := s.sec.refusedTokens + 1 } }
      (bump (secEvent s [5, c]) 0x8080 4 1, 0x0302)
    else (beginUnlock s (cutLe b 5 1) (cutLe b 6 1), 0)

/-! ## The IEEE 1149.1 lands (R451) -/

/-- The state of the test access port after a rising TCK: 0 Test-Logic-Reset, 1 Run-Test/Idle, 2 to 8 the data column from
Select to Update, 9 to 15 the instruction column. -/
def tapNext (st : Nat) (tms : Bool) : Nat :=
  let p : Nat × Nat := match st with
    | 0 => (1, 0) | 1 => (1, 2) | 2 => (3, 9) | 3 => (4, 5) | 4 => (4, 5) | 5 => (6, 8) | 6 => (6, 7) | 7 => (4, 8)
    | 8 => (1, 2) | 9 => (10, 0) | 10 => (11, 12) | 11 => (11, 12) | 12 => (13, 15) | 13 => (13, 14) | 14 => (11, 15)
    | _ => (1, 2)
  if tms then p.2 else p.1

/-- BOUNDARY_SCAN: the lands are sampled; they drive the test access port only while the debug port is open. -/
def execBoundaryScan (tck tms tdi trstN : Bool) (s : State) : Answer :=
  let b := s.board
  if !b.aux then .next s
  else
    let tap := if s.sec.debugPort = 0 ∨ trstN = false then 0 else if tck && !b.scan.1 then tapNext b.tap tms else b.tap
    .next { s with board := { b with scan := (tck, tms, tdi, trstN), tap := tap } }

/-! ## Live update (R424, Table 14-4) -/

/-- Write of 1 to `OD 7830:01`: step 1 begins. -/
def activate (s : State) : State × Nat :=
  if activating s then (s, 0x0501)
  else if !bothUp s || !(inactiveSlot s).checked then (s, 0x0205)
  else
    let s := { s with reli := { s.reli with activation := 1 } }
    (if s.reli.inCharge = 0 then { s with dict := { s.dict with changeover := true } } else s, 0)

/-- An image is refused at boot, with its slot and code (R445). -/
def refuseBoot (s : State) (slot code : Nat) : State := secEvent (bump s 0x8080 2 1) [1, slot, code]

/-- A controller restarts from the other slot, verifies the image there and runs it; false where it runs the old one. -/
def restartNew (s : State) (c : Nat) (ok : Bool) : State × Bool :=
  let n := otherNo s c
  let code := imageCode s (slotAt s c n).image
  let s := setUp s c true
  if code ≠ 0 then (refuseBoot s n code, false)
  else if !ok then (s, false)
  else
    let r := Running.of (slotAt s c n).image
    if c = 0 then ({ s with sec := { s.sec with bootA := n, runA := r } }, true)
    else ({ s with sec := { s.sec with bootB := n, runB := r } }, true)

/-- The version that a live update moves to. -/
def newVersion (s : State) : Nat :=
  if s.reli.activation ≤ 2 then imgVersion (otherSlot s 0).image else s.sec.runA.version.toNat

def setActivation (s : State) (n : Nat) : State := { s with reli := { s.reli with activation := n } }

def setChangeover (s : State) (b : Bool) : State := { s with dict := { s.dict with changeover := b } }

/-- The changeover of step 1 or 3, where it has not come about yet. -/
def stepCharge (s : State) : State := if s.dict.changeover then takeCharge s 1 else s

/-- ACTIVATION_STEP_DONE: the step in progress ends with a record, and the next begins; a controller that fails to start
the new image at step 2 or 4 runs the old one, and the activation has reverted. -/
def execActivationStepDone (ok : Bool) (s : State) : Answer :=
  let t := boxAdd s (some 0xFF) 0x0031 [s.reli.activation, s.sec.runB.version.toNat, newVersion s]
  match s.reli.activation with
  | 1 => .next (setUp (setActivation (stepCharge t) 2) 0 false)
  | 2 =>
    let q := restartNew t 0 ok
    .next (if q.2 then setChangeover (setActivation q.1 3) true else setActivation q.1 5)
  | 3 => .next (setUp (setActivation (stepCharge t) 4) 1 false)
  | 4 =>
    let q := restartNew t 1 ok
    .next (setActivation q.1 (if q.2 then 0 else 5))
  | _ => .next s

/-- CONTROLLER_CHANGEOVER: the standby takes charge; a controller that failed restarts from its image. -/
def execControllerChangeover (s : State) : Answer :=
  if !s.dict.changeover then .next s
  else if activating s then .next (stepCharge s)
  else
    let t := setUp (takeCharge s 0) s.reli.inCharge false
    .next { t with reli := { t.reli with failedStarts := 0 } }

/-- CONTROLLER_RESTART: the failed controller returns to standby, or tries again; after three failed starts it stays off. -/
def execControllerRestart (ok : Bool) (s : State) : Answer :=
  if standbyUp s ∨ 3 ≤ s.reli.failedStarts ∨ activating s = true then .next s
  else if ok then
    let t := setUp s (1 - s.reli.inCharge) true
    .next { t with reli := { t.reli with failedStarts := 0 } }
  else
    let n := s.reli.failedStarts + 1
    let t := { s with reli := { s.reli with failedStarts := n } }
    .next (if n = 3 then bump t 0x7880 11 1 else t)

end Sys2Proof.Machine
end

