-- ==== Sys2Proof/Machine/Spdm.lean ====
section
/-! DEFINITION. The SPDM responder (R438 to R441, R444, Tables 15-5 and 15-6) and the MCTP control messages of the endpoint
(R361, R451). A message is given by the fields that the manual fixes; the envelope of DSP0274 and DSP0236 is left out. -/
namespace Sys2Proof.Machine

/-- SPDM error codes (DSP0274). -/
def errInvalid : Nat := 0x01
def errSession : Nat := 0x02
def errBusy : Nat := 0x03
def errUnexpected : Nat := 0x04
def errUnspecified : Nat := 0x05
def errDecrypt : Nat := 0x06
def errUnsupported : Nat := 0x07
def errLimit : Nat := 0x0A
def errVersion : Nat := 0x41

/-! ## Who answers -/

/-- The firmware runs: from step 6 of start-up on, and not in recovery. -/
def firmwareUp (s : State) : Bool := decide (6 ≤ s.board.step ∧ s.sec.bootMode ≠ 2)

/-- The I3C target has its dynamic address: the MCTP control messages reach the endpoint. -/
def addressed (s : State) : Bool := s.board.i3c.isSome

/-- MCTP traffic begins once the endpoint has a dynamic address and an EID (R451). -/
def mctpUp (s : State) : Bool := addressed s && decide (s.board.eid ≠ 0)

/-- A transport answers: DOE while the port's mailboxes answer (R360). -/
def transportUp (s : State) : SpdmTransport → Bool
  | .mctp => mctpUp s
  | .doe p => let st := (fnGet s (0x40 + p.val)).st; decide (st ≠ .absent ∧ st ≠ .faulted)

/-- Deep sleep, until the exit from it completes: the response follows (R392). -/
def asleep (s : State) : Bool := decide (s.power.st = .deepSleep)

def reply (s : State) (tr : SpdmTransport) (b : List Byte) : State := emit s (.spdm tr b)
def fail (s : State) (tr : SpdmTransport) (code : Nat) : State := emit s (.spdmError tr code)

/-! ## Connections -/

def connOf (s : State) (tr : SpdmTransport) : Option SpdmConn :=
  (s.sec.conns.find? (fun c => decide (c.1 = tr))).map (·.2)

def setConn (s : State) (tr : SpdmTransport) (c : SpdmConn) : State :=
  { s with sec := { s.sec with conns := s.sec.conns.filter (fun x => decide (x.1 ≠ tr)) ++ [(tr, c)] } }

/-- During a controller changeover the answer is Busy (R441), and while a debug unlock has taken the keys and not yet made the alias
key (log entry 53). -/
def unlessBusy (s : State) (tr : SpdmTransport) (act : State → State) : State :=
  if s.dict.changeover || s.sec.unlock.isSome then fail s tr errBusy else act s

/-- A request that needs the algorithms agreed. -/
def negotiated (s : State) (tr : SpdmTransport) (act : State → State) : State :=
  unlessBusy s tr (fun s => match connOf s tr with
    | some c => if c.algs then act s else fail s tr errUnexpected
    | none => fail s tr errUnexpected)

/-- GET_VERSION: 1.2 and 1.3; the connection begins again. -/
def doGetVersion (tr : SpdmTransport) (s : State) : State :=
  unlessBusy s tr (fun s => reply (setConn s tr { version := 0, caps := false, algs := false, kex := false }) tr [0x12, 0x13])

/-- GET_CAPABILITIES at one of those versions. -/
def doGetCapabilities (tr : SpdmTransport) (version : Byte) (s : State) : State :=
  unlessBusy s tr (fun s => match connOf s tr with
    | none => fail s tr errUnexpected
    | some c =>
      if version ≠ 0x12 ∧ version ≠ 0x13 then fail s tr errVersion
      else reply (setConn s tr { c with version := version.toNat, caps := true, algs := false, kex := false }) tr [version])

/-- NEGOTIATE_ALGORITHMS: the algorithms of Table 15-5 are chosen where they are offered. -/
def doNegotiate (tr : SpdmTransport) (o : AlgOffer) (s : State) : State :=
  unlessBusy s tr (fun s => match connOf s tr with
    | none => fail s tr errUnexpected
    | some c =>
      if !c.caps then fail s tr errUnexpected
      else if !o.rsapss4096 || !o.sha512 then fail s tr errInvalid
      else
        let kex := o.secp384r1 && o.aes256gcm
        let k := BitVec.ofNat 8 (boolNat kex)
        reply (setConn s tr { c with algs := true, kex := kex }) tr [1, 1, k, k])

/-! ## Certificates (R438, R440, R444) -/

def noKey : RsaKey := { modulus := 0, exponent := 0 }

/-- The chain a slot holds; slot 0 holds only the alias certificate while the debug port is open. -/
def chainOf (s : State) (slot : Nat) : Option (List Byte) :=
  if slot = 0 then some (if s.sec.aliasKey then aliasCert (kvGet noKey s.sec.keys 0) else identityChain)
  else if s.sec.aliasKey then none
  else kvFind s.sec.chains slot

/-- Slots in use as bits 1 to 3 (`OD 8030:02`). -/
def slotsInUse (s : State) : Nat :=
  (upto 4).foldl (fun n i => if i ≠ 0 ∧ (chainOf s i).isSome = true then n + 2 ^ i else n) 0

/-- A signature under R429 by a slot's key, with a fresh salt: slot 0 answers with the identity key, or with the alias key. -/
def signWith (s : State) (slot : Nat) (msg : List Byte) : List Byte × State :=
  let d := drawBytes s
  let k := if slot = 0 ∧ s.sec.aliasKey = false then identityKey else kvGet noKey s.sec.keys slot
  (k.sign msg d.1, d.2)

/-- GET_DIGESTS: the SHA-512 digest of each chain, slot by slot. -/
def doGetDigests (tr : SpdmTransport) (s : State) : State :=
  negotiated s tr (fun s => reply s tr ((upto 4).flatMap (fun i => match chainOf s i with
    | some c => sha512 c
    | none => [])))

/-- GET_CERTIFICATE: a portion of a chain. -/
def doGetCertificate (tr : SpdmTransport) (slot offset length : Nat) (s : State) : State :=
  negotiated s tr (fun s => match chainOf s slot with
    | some c => if c.length ≤ offset then fail s tr errInvalid else reply s tr (cut c offset length)
    | none => fail s tr errInvalid)

/-- CHALLENGE: the chain's digest, a nonce, and a signature over both nonces and the digest. -/
def doChallenge (tr : SpdmTransport) (slot : Nat) (nonce : List Byte) (s : State) : State :=
  negotiated s tr (fun s => match chainOf s slot with
    | none => fail s tr errInvalid
    | some c =>
      let d := drawBytes s
      let body := sha512 c ++ padTo 32 d.1
      let g := signWith d.2 slot (nonce ++ body)
      reply g.2 tr (body ++ g.1))

/-- GET_CSR: a fresh key for an operator slot, wrapped; its chain is cleared. MCTP only; no key can be wrapped while the
debug port is open. -/
def doGetCsr (tr : SpdmTransport) (slot : Nat) (s : State) : State :=
  if tr ≠ .mctp then fail s tr errUnsupported
  else negotiated s tr (fun s =>
    if slot = 0 ∨ 3 < slot then fail s tr errInvalid
    else if s.sec.aliasKey then fail s tr errUnspecified
    else
      let k := drawKey s
      let d := drawBytes k.2
      let x := d.2.sec
      reply { d.2 with sec := { x with chains := kvDrop x.chains slot, keys := kvPut x.keys slot k.1 } } tr (certRequest k.1 d.1))

/-- SET_CERTIFICATE: installs a chain whose last certificate is for the slot's key. MCTP only. -/
def doSetCertificate (tr : SpdmTransport) (slot : Nat) (chain last : List Byte) (s : State) : State :=
  if tr ≠ .mctp then fail s tr errUnsupported
  else negotiated s tr (fun s =>
    if slot = 0 ∨ 3 < slot ∨ (kvFind s.sec.keys slot).isNone = true ∨
        certModulus last ≠ (kvFind s.sec.keys slot).map RsaKey.n then fail s tr errInvalid
    else reply { s with sec := { s.sec with chains := kvPut s.sec.chains slot (chain ++ last) } } tr [BitVec.ofNat 8 slot])

/-! ## Measurements (R441, Table 15-6) -/

/-- The function whose microcode a block measures. -/
def blockFn : Nat → Nat
  | 4 => 0x60 | 5 => 0x20 | 6 => 0x30 | _ => 0x50

/-- A measurement block; none where it is absent. -/
def measure (s : State) (n : Nat) : Option (List Byte) :=
  let r := runningNow s
  match n with
  | 1 => some Config.bootRomDigest
  | 2 => some r.loader
  | 3 => some r.firmware
  | 8 => some (toLe 1 s.sec.floor ++ toLe 1 r.svn ++ toLe 4 s.sec.revoked.toNat)
  | 9 => some (toLe 1 s.sec.lifecycle ++ toLe 4 s.sec.openCount)
  | n =>
    if 4 ≤ n ∧ n ≤ 7 then
      (if (fnGet s (blockFn n)).st = .absent then none else some (kvGet [] s.sec.microcode (blockFn n)))
    else none

/-- GET_MEASUREMENTS: block 0 asks for their number, 0xFF for all; a signature covers the nonce and the blocks. -/
def doGetMeasurements (tr : SpdmTransport) (block : Nat) (signed : Bool) (nonce : List Byte) (s : State) : State :=
  negotiated s tr (fun s =>
    let all := ((upto 10).filterMap (fun n => (measure s n).map (fun b => (n, b))))
    let pick := if block = 0 ∨ block = 0xFF then all else all.filter (fun p => decide (p.1 = block))
    if pick.isEmpty then fail s tr errInvalid
    else
      let body := if block = 0 then toLe 1 all.length else pick.flatMap (fun p => toLe 1 p.1 ++ p.2)
      if signed then
        let g := signWith s 0 (nonce ++ body)
        reply g.2 tr (body ++ g.1)
      else reply s tr body)

/-! ## Secured sessions (Table 15-5) -/

/-- KEY_EXCHANGE: a session begins its handshake; at most four in all. -/
def doKeyExchange (tr : SpdmTransport) (slot : Nat) (s : State) : State :=
  negotiated s tr (fun s =>
    let agreed := match connOf s tr with | some c => c.kex | none => false
    if !agreed then fail s tr errUnexpected
    else if (chainOf s slot).isNone then fail s tr errInvalid
    else if 4 ≤ s.sec.sessions.length then fail s tr errLimit
    else
      let n := s.sec.nextSess
      let d := drawBytes { s with sec := { s.sec with sessions := s.sec.sessions ++ [(n, tr, false)], nextSess := n + 1 } }
      reply d.2 tr (toLe 4 n ++ d.1))

def sessOf (s : State) (tr : SpdmTransport) (n : Nat) : Option Bool :=
  (s.sec.sessions.find? (fun x => decide (x.1 = n ∧ x.2.1 = tr))).map (·.2.2)

def dropSess (s : State) (n : Nat) : State :=
  { s with sec := { s.sec with sessions := s.sec.sessions.filter (fun x => decide (x.1 ≠ n)) } }

/-- FINISH: the handshake ends; a MAC that does not verify ends the session. -/
def doFinish (tr : SpdmTransport) (n : Nat) (macOk : Bool) (s : State) : State :=
  negotiated s tr (fun s => match sessOf s tr n with
    | none => fail s tr errSession
    | some true => fail s tr errUnexpected
    | some false =>
      if macOk then
        reply { s with sec := { s.sec with sessions := s.sec.sessions.map (fun x =>
          if x.1 = n then (x.1, x.2.1, true) else x) } } tr (toLe 4 n)
      else fail (dropSess s n) tr errDecrypt)

/-- HEARTBEAT and END_SESSION act on a session that is established. -/
def doHeartbeat (tr : SpdmTransport) (n : Nat) (s : State) : State :=
  negotiated s tr (fun s => if sessOf s tr n = some true then reply s tr (toLe 4 n) else fail s tr errSession)

def doEndSession (tr : SpdmTransport) (n : Nat) (s : State) : State :=
  negotiated s tr (fun s => if sessOf s tr n = some true then reply (dropSess s n) tr (toLe 4 n) else fail s tr errSession)

/-! ## MCTP control messages (R361) -/

/-- Set Endpoint ID: the endpoint takes the ID and returns it with its completion. -/
def doSetEndpointId (eid : Byte) (s : State) : State :=
  if eid = 0 ∨ eid = 0xFF then emit s (.mctp [0x02])
  else emit { s with board := { s.board with eid := eid } } (.mctp [0x00, eid])

def doGetEndpointId (s : State) : State := emit s (.mctp [0x00, s.board.eid])

/-- The message types served: control 0x00, SPDM 0x05 and secured messages 0x06, and vendor defined 0x7F. -/
def messageTypes : List Byte := [0x00, 0x05, 0x06, 0x7F]

/-- Get MCTP Version Support: the number of versions of a served message type, which are open. -/
def doGetMctpVersionSupport (msgType : Byte) (s : State) : State :=
  if msgType = 0xFF ∨ messageTypes.elem msgType = true then
    let d := drawBytes s
    emit d.2 (.mctp (0x00 :: d.1))
  else emit s (.mctp [0x80])

def doGetMessageTypeSupport (s : State) : State := emit s (.mctp (0x00 :: messageTypes))

/-! ## The endpoint and the mailboxes (R361, R391, R392) -/

/-- What a message does on a transport. -/
def doMessage (tr : SpdmTransport) (s : State) : Message → State
  | .getVersion => doGetVersion tr s
  | .getCapabilities v => doGetCapabilities tr v s
  | .negotiateAlgorithms o => doNegotiate tr o s
  | .getDigests => doGetDigests tr s
  | .getCertificate n o l => doGetCertificate tr n o l s
  | .challenge n x => doChallenge tr n x s
  | .getMeasurements b g x => doGetMeasurements tr b g x s
  | .keyExchange n => doKeyExchange tr n s
  | .finish n m => doFinish tr n m s
  | .heartbeat n => doHeartbeat tr n s
  | .endSession n => doEndSession tr n s
  | .getCsr n => doGetCsr tr n s
  | .setCertificate n c k => doSetCertificate tr n c k s
  | .setEndpointId e => doSetEndpointId e s
  | .getEndpointId => doGetEndpointId s
  | .getMctpVersionSupport t => doGetMctpVersionSupport t s
  | .getMessageTypeSupport => doGetMessageTypeSupport s

/-- A message of MCTP control. -/
def Message.control : Message → Bool
  | .setEndpointId _ | .getEndpointId | .getMctpVersionSupport _ | .getMessageTypeSupport => true
  | _ => false

/-- A message arrives. One of the MCTP endpoint is wake event 4, and in Deep sleep it waits for the exit; one of a port's mailbox is
traffic of the port, and a mailbox that sleeps answers nothing. -/
def message (s : State) (tr : SpdmTransport) (m : Message) : Answer :=
  if !firmwareUp s || s.power.trip || !(if m.control then addressed s else transportUp s tr) then .next s
  else match tr with
    | .mctp =>
      let t := wake s 4
      if asleep s then .next { t with dict := { t.dict with deferred := t.dict.deferred ++ [.message m] } }
      else .next (doMessage tr t m)
    | .doe p =>
      let t := wake s (2 + p.val)
      if asleep s then .next t else .next (doMessage tr t m)

/-! ## The requests -/

def execGetVersion (tr : SpdmTransport) (s : State) : Answer := message s tr .getVersion

def execGetCapabilities (tr : SpdmTransport) (version : Byte) (s : State) : Answer :=
  message s tr (.getCapabilities version)

def execNegotiateAlgorithms (tr : SpdmTransport) (o : AlgOffer) (s : State) : Answer :=
  message s tr (.negotiateAlgorithms o)

def execGetDigests (tr : SpdmTransport) (s : State) : Answer := message s tr .getDigests

def execGetCertificate (tr : SpdmTransport) (slot offset length : Nat) (s : State) : Answer :=
  message s tr (.getCertificate slot offset length)

def execChallenge (tr : SpdmTransport) (slot : Nat) (nonce : List Byte) (s : State) : Answer :=
  message s tr (.challenge slot nonce)

def execGetMeasurements (tr : SpdmTransport) (block : Nat) (signed : Bool) (nonce : List Byte) (s : State) : Answer :=
  message s tr (.getMeasurements block signed nonce)

/-- The key shares are the transport's own concern: the session's keys are never readable (Table 15-1). -/
def execKeyExchange (tr : SpdmTransport) (slot : Nat) (_ : List Byte) (s : State) : Answer :=
  message s tr (.keyExchange slot)

def execFinish (tr : SpdmTransport) (sess : Nat) (macOk : Bool) (s : State) : Answer :=
  message s tr (.finish sess macOk)

def execHeartbeat (tr : SpdmTransport) (sess : Nat) (s : State) : Answer := message s tr (.heartbeat sess)

def execEndSession (tr : SpdmTransport) (sess : Nat) (s : State) : Answer := message s tr (.endSession sess)

def execGetCsr (tr : SpdmTransport) (slot : Nat) (s : State) : Answer := message s tr (.getCsr slot)

def execSetCertificate (tr : SpdmTransport) (slot : Nat) (chain last : List Byte) (s : State) : Answer :=
  message s tr (.setCertificate slot chain last)

def execSetEndpointId (eid : Byte) (s : State) : Answer := message s .mctp (.setEndpointId eid)

def execGetEndpointId (s : State) : Answer := message s .mctp .getEndpointId

def execGetMctpVersionSupport (msgType : Byte) (s : State) : Answer := message s .mctp (.getMctpVersionSupport msgType)

def execGetMessageTypeSupport (s : State) : Answer := message s .mctp .getMessageTypeSupport

/-- The static address that the straps give; the target answers it for address assignment only (R451). -/
def staticAddress (b : Board) : BitVec 7 := BitVec.ofNat 7 (0x38 + 2 * boolNat b.straps.1 + boolNat b.straps.2)

/-- DYNAMIC_ADDRESS_ASSIGNED: from step 2 of start-up the target takes its address; an assignment by static address that names another
one is none of its own (R451). -/
def execDynamicAddressAssigned (a : AddrAssign) (s : State) : Answer :=
  if s.board.aux && (match a.static with | some x => decide (x = staticAddress s.board) | none => true) then
    .next { s with board := { s.board with i3c := some a.addr } }
  else .next s

/-- I3C_ADDRESS_LOST: every out-of-band session closes (R366). -/
def execI3cAddressLost (s : State) : Answer :=
  .next (closeKind { s with board := { s.board with i3c := none } } 3)

end Sys2Proof.Machine
end

