-- ==== Sys2Proof/Machine/Table.lean ====
section
/-! DEFINITION. The dictionary's objects (R356 to R359, R383, R384 and the object tables of every chapter): which entries
exist, their types, access codes, defaults and attributes. -/
namespace Sys2Proof.Machine

/-- Types (Table 12-2). -/
inductive OdType where
  | b1 | u8 | u16 | u32 | u64 | s32 | f32 | str | blob | cnt64
  deriving DecidableEq, Repr

/-- Access codes (Table 12-3). -/
inductive Acc where
  | ro | rw | rws | rwc | wo | con
  deriving DecidableEq, Repr

def OdType.code : OdType → Nat
  | .b1 => 1 | .u8 => 2 | .u16 => 3 | .u32 => 4 | .u64 => 5 | .s32 => 6 | .f32 => 7 | .str => 8 | .blob => 9 | .cnt64 => 10

/-- Value bytes; for STR and BLOB the largest length. -/
def OdType.size : OdType → Nat
  | .b1 => 1 | .u8 => 1 | .u16 => 2 | .u32 => 4 | .u64 => 8 | .s32 => 4 | .f32 => 4 | .str => 64 | .blob => 16777216
  | .cnt64 => 8

/-- STR and BLOB values have a length of their own. -/
def OdType.long (t : OdType) : Bool := decide (t = .str ∨ t = .blob)

def Acc.code : Acc → Nat
  | .ro => 0 | .rw => 1 | .rws => 2 | .rwc => 3 | .wo => 4 | .con => 5

/-- Entries first to last of every index from lo to hi, of one type and access code. -/
structure OdRow where
  lo : Nat
  hi : Nat
  first : Nat
  last : Nat
  typ : OdType
  acc : Acc
  deriving DecidableEq, Repr

/-- Entries first to last of one index. -/
def ent (i f l : Nat) (t : OdType) (a : Acc) : OdRow := { lo := i, hi := i, first := f, last := l, typ := t, acc := a }

/-- Entries first to last of a run of indices. -/
def run (i j f l : Nat) (t : OdType) (a : Acc) : OdRow := { lo := i, hi := j, first := f, last := l, typ := t, acc := a }

/-- Identity, capabilities and jobs (Tables 01-6, 11-8, 12-9, 12-11, 12-12). -/
def odRows0 : List OdRow :=
  [ent 0x0001 1 1 .str .con, ent 0x0001 2 2 .str .con, ent 0x0001 3 3 .u32 .con, ent 0x0001 4 5 .u32 .ro, ent 0x0001 6 6 .u8 .con,
   ent 0x0001 7 7 .u16 .con, ent 0x0001 8 8 .u8 .ro,
   ent 0x0400 1 1 .u16 .ro, ent 0x0400 2 3 .u32 .ro, ent 0x0400 4 5 .u8 .ro, ent 0x0400 6 6 .u64 .ro,
   ent 0x0400 7 7 .b1 .ro, ent 0x0401 1 8 .u8 .ro, ent 0x0402 1 5 .f32 .ro, ent 0x0403 1 2 .u32 .con,
   ent 0x1000 1 1 .u64 .wo, ent 0x1000 2 2 .b1 .ro, ent 0x1000 3 4 .u8 .ro, ent 0x1000 5 5 .cnt64 .ro,
   run 0x1010 0x1013 1 1 .u32 .ro, run 0x1010 0x1013 2 3 .u8 .ro, run 0x1010 0x1013 4 4 .u16 .ro,
   run 0x1010 0x1013 5 6 .b1 .wo, ent 0x1020 1 1 .u64 .wo]

/-- The control object of the module, of a Field, of a port group ... (Table 12-9). -/
def controlRows (i j : Nat) : List OdRow :=
  [run i j 1 1 .u8 .ro, run i j 2 2 .u8 .wo, run i j 3 5 .b1 .ro, run i j 6 7 .u8 .ro]

def odRows1 : List OdRow :=
  controlRows 0x1100 0x1108 ++ controlRows 0x1110 0x1111 ++ controlRows 0x1120 0x1120 ++ controlRows 0x1130 0x1130 ++
  controlRows 0x1140 0x1141 ++ controlRows 0x1150 0x1150 ++ controlRows 0x1160 0x1160 ++
  [ent 0x1200 1 8 .u8 .ro, ent 0x1201 1 1 .u32 .rws, ent 0x1202 1 2 .u8 .wo, ent 0x1202 3 4 .b1 .ro,
   ent 0x1300 1 1 .u32 .ro, ent 0x1300 2 2 .u8 .ro, ent 0x1300 3 4 .u32 .ro, ent 0x1300 5 5 .u8 .ro,
   ent 0x1400 1 1 .u16 .ro, ent 0x1400 2 2 .u8 .ro]

/-- Fields, Tillers and numerics (Tables 02-5, 03-7, 04-17, 10-5). -/
def odRows2 : List OdRow :=
  [run 0x2100 0x2107 1 88 .u16 .ro, run 0x2110 0x2117 1 88 .u16 .ro,
   ent 0x2300 1 1 .b1 .ro, ent 0x2300 2 2 .u8 .ro, ent 0x2300 3 3 .u32 .ro, ent 0x2300 4 4 .blob .ro, ent 0x2300 5 5 .u8 .ro,
   ent 0x2400 1 1 .u8 .ro, ent 0x2400 2 2 .u16 .ro,
   run 0x2800 0x2C3F 1 1 .u16 .ro, run 0x2800 0x2C3F 2 4 .u32 .ro, run 0x2800 0x2C3F 5 5 .u32 .wo,
   ent 0x3000 1 1 .u64 .rws, ent 0x3000 2 2 .b1 .ro,
   run 0x3010 0x301F 1 1 .u32 .rws, run 0x3010 0x301F 2 2 .u8 .rws, run 0x3010 0x301F 3 3 .b1 .rws,
   run 0x3010 0x301F 4 5 .u8 .rws]

/-- Memory tiers, Windrows and streams (Tables 05-8, 07-16, 08-7). -/
def odRows3 : List OdRow :=
  [ent 0x4000 1 1 .u32 .con, ent 0x4000 2 2 .u16 .con, ent 0x4000 3 3 .u32 .con, ent 0x4000 4 4 .u16 .con,
   ent 0x4000 5 6 .u8 .con, ent 0x4010 1 1 .u16 .wo, ent 0x4010 2 2 .b1 .ro,
   ent 0x4100 1 2 .u32 .ro, ent 0x4100 3 3 .u8 .ro, ent 0x4100 4 4 .u32 .ro, ent 0x4100 5 5 .u8 .ro,
   ent 0x4100 6 6 .u64 .ro, ent 0x4100 7 7 .u32 .ro,
   ent 0x4200 1 1 .u32 .ro, ent 0x4200 2 2 .u32 .con, ent 0x4200 3 3 .u32 .ro, ent 0x4401 1 8 .u16 .ro,
   ent 0x4500 1 1 .u8 .ro, ent 0x4500 2 3 .u32 .ro, ent 0x4500 4 4 .u16 .ro, ent 0x4500 5 5 .u8 .ro,
   ent 0x4500 6 6 .u64 .ro, ent 0x4500 7 7 .u8 .wo,
   run 0x4600 0x4601 1 16 .u64 .ro, ent 0x4602 1 1 .u16 .ro,
   ent 0x4700 1 1 .u8 .ro, ent 0x4700 2 2 .b1 .ro,
   ent 0x4710 1 1 .u16 .ro, ent 0x4710 2 2 .u8 .ro, ent 0x4710 3 3 .u32 .ro, ent 0x4710 4 4 .u8 .ro,
   ent 0x4710 5 5 .u64 .ro, ent 0x4710 6 7 .u32 .ro, ent 0x4710 8 8 .u8 .ro, ent 0x4710 9 9 .u16 .ro,
   ent 0x4711 1 3 .u32 .wo, ent 0x4720 1 16 .u8 .ro]

/-- Riljo, Stook, Rotation and CXL (Tables 05-8, 09-10 to 11-10). -/
def odRows4 : List OdRow :=
  [ent 0x5000 1 2 .u16 .rwc, ent 0x5000 3 3 .u8 .rwc, ent 0x5000 4 4 .b1 .ro, ent 0x5000 5 5 .u8 .ro,
   ent 0x5001 1 14 .u8 .rws, ent 0x5002 1 1 .u16 .rws, ent 0x5003 1 2 .u32 .rws, ent 0x5010 1 1 .b1 .rws,
   ent 0x5010 2 3 .u8 .wo,
   run 0x5100 0x513F 1 1 .u8 .ro, run 0x5100 0x513F 2 2 .u16 .ro, run 0x5100 0x513F 3 6 .u8 .ro,
   run 0x5100 0x513F 7 7 .u32 .ro, ent 0x5300 1 1 .blob .ro,
   ent 0x5800 1 2 .u8 .ro, run 0x5810 0x581C 1 1 .u8 .ro, run 0x5810 0x581C 2 4 .u16 .ro, run 0x5810 0x581C 5 5 .u64 .ro,
   run 0x5810 0x581C 6 6 .u16 .ro, ent 0x5900 1 1 .u64 .ro, ent 0x5900 2 3 .f32 .ro, ent 0x5900 4 4 .b1 .ro,
   ent 0x5A00 1 4 .u8 .ro, ent 0x5A00 5 5 .u64 .ro,
   run 0x6000 0x6001 1 2 .u8 .ro, run 0x6000 0x6001 3 3 .b1 .ro, ent 0x6010 1 1 .u64 .con, ent 0x6020 1 1 .u32 .con,
   ent 0x6020 2 2 .u32 .ro, run 0x6030 0x6031 1 16 .u64 .rwc, ent 0x6032 1 16 .u8 .rwc]

/-- Power and reliability (Tables 13-9, 14-7). -/
def odRows5 : List OdRow :=
  [ent 0x7000 1 1 .u8 .ro, ent 0x7000 2 2 .u8 .wo, ent 0x7000 3 3 .u8 .ro, ent 0x7000 4 4 .u8 .rws, ent 0x7000 5 5 .u8 .ro,
   ent 0x7000 6 7 .u32 .rws, ent 0x7010 1 1 .u8 .rws, ent 0x7010 2 9 .u8 .ro, ent 0x7011 1 8 .u8 .ro,
   ent 0x7020 1 88 .s32 .ro, ent 0x7021 1 48 .s32 .ro, run 0x7030 0x7032 1 3 .s32 .rws,
   ent 0x7040 1 1 .b1 .ro, ent 0x7040 2 2 .u32 .rws, ent 0x7040 3 4 .b1 .ro, ent 0x7040 5 5 .u8 .ro,
   ent 0x7050 1 3 .u32 .ro, ent 0x7050 4 4 .cnt64 .ro, ent 0x7060 1 9 .cnt64 .ro,
   ent 0x7800 1 1 .u8 .rws, ent 0x7801 1 8 .u32 .ro, ent 0x7810 1 8 .u8 .ro, ent 0x7811 1 8 .u32 .ro,
   ent 0x7812 1 8 .u8 .ro, ent 0x7813 1 1 .u8 .rws, ent 0x7820 1 1 .u16 .ro, ent 0x7820 2 2 .blob .ro,
   ent 0x7830 1 1 .u8 .wo, ent 0x7830 2 2 .u8 .ro, ent 0x7880 1 12 .cnt64 .ro]

/-- Security and the black box (Tables 14-7, 15-9). -/
def odRows6 : List OdRow :=
  [ent 0x8000 1 3 .u8 .ro, ent 0x8000 4 4 .u32 .ro, ent 0x8010 1 1 .u8 .ro, ent 0x8010 2 3 .u8 .wo, ent 0x8010 4 4 .u32 .ro,
   ent 0x8020 1 1 .blob .wo, ent 0x8020 2 3 .u8 .ro, ent 0x8030 1 1 .blob .ro, ent 0x8030 2 2 .u8 .ro,
   ent 0x8040 1 1 .u8 .wo, ent 0x8040 2 2 .blob .wo, ent 0x8040 3 3 .u8 .ro, ent 0x8040 4 4 .blob .ro,
   ent 0x8040 5 5 .u8 .ro, ent 0x8080 1 5 .cnt64 .ro,
   ent 0x9000 1 1 .u64 .ro, ent 0x9000 2 2 .u32 .con, ent 0x9000 3 4 .cnt64 .ro, ent 0x9010 1 1 .u64 .rw,
   ent 0x9010 2 2 .blob .ro]

/-- Counters. -/
def odRows7 : List OdRow :=
  [ent 0xA100 1 9 .cnt64 .ro, ent 0xA200 1 9 .cnt64 .ro, ent 0xA210 1 7 .cnt64 .ro, ent 0xA220 1 5 .cnt64 .ro,
   ent 0xA230 1 2 .cnt64 .ro, ent 0xA240 1 9 .cnt64 .ro, ent 0xA250 1 7 .cnt64 .ro, ent 0xA260 1 5 .cnt64 .ro,
   ent 0xA270 1 2 .cnt64 .ro, run 0xA300 0xA30F 1 60 .cnt64 .ro, run 0xA310 0xA313 1 16 .cnt64 .ro,
   ent 0xA31F 1 1 .u8 .wo, ent 0xA31F 2 2 .b1 .ro, run 0xA320 0xA32F 1 60 .u64 .ro, ent 0xA330 1 1 .u16 .rw,
   run 0xA340 0xA34F 1 60 .cnt64 .ro, ent 0xA400 1 12 .cnt64 .ro, ent 0xA410 1 16 .cnt64 .ro, ent 0xA480 1 4 .cnt64 .ro,
   run 0xA500 0xA53F 1 10 .cnt64 .ro, ent 0xA540 1 8 .cnt64 .ro, ent 0xA580 1 9 .cnt64 .ro, ent 0xA590 1 13 .cnt64 .ro,
   ent 0xA5A0 1 3 .cnt64 .ro, ent 0xA600 1 6 .cnt64 .ro, run 0xA640 0xA641 1 6 .cnt64 .ro, ent 0xA700 1 12 .cnt64 .ro,
   ent 0xA740 1 12 .cnt64 .ro, run 0xA800 0xAC3F 1 5 .cnt64 .ro]

def odRows : List OdRow := odRows0 ++ odRows1 ++ odRows2 ++ odRows3 ++ odRows4 ++ odRows5 ++ odRows6 ++ odRows7

def odRowsOf (idx : Nat) : List OdRow := odRows.filter (fun r => decide (r.lo ≤ idx ∧ idx ≤ r.hi))

/-- The highest subindex of an index, which its subindex 00 holds (R13); none where no chapter allocates it. -/
def maxSub (idx : Nat) : Option Nat :=
  match odRowsOf idx with
  | [] => none
  | l => some (l.foldl (fun n r => max n r.last) 0)

/-- The type and access of an entry; subindex 00 is a constant U8. -/
def odEntry (idx sub : Nat) : Option (OdType × Acc) :=
  if sub = 0 then (if (maxSub idx).isSome then some (.u8, .con) else none)
  else ((odRowsOf idx).find? (fun r => decide (r.first ≤ sub ∧ sub ≤ r.last))).map (fun r => (r.typ, r.acc))

/-- Why an entry does not exist (R14, R356); 0 where it does. -/
def entryCode (idx sub : Nat) : Nat :=
  if 0xF000 ≤ idx then 0x0103
  else match maxSub idx with
    | none => 0x0101
    | some n => if n < sub then 0x0102 else 0

/-- Entries of which each session holds its own value (R367, R428). -/
def isPers (idx sub : Nat) : Bool := decide ((idx = 0xA330 ∧ sub = 1) ∨ (idx = 0x9010 ∧ sub = 1))

/-- Entries written only out of band (R368, R428, R434). -/
def isOob (idx sub : Nat) (a : Acc) : Bool :=
  decide (0x8000 ≤ idx ∧ idx ≤ 0x9FFF) && decide (a ≠ .ro ∧ a ≠ .con)
    && !decide ((idx = 0x9010 ∧ sub = 1) ∨ (idx = 0x8020 ∧ sub = 1))

/-! ## Defaults -/

/-- The default of an entry of the runs whose defaults differ from zero. -/
def defaultRun (v : Variant) (idx sub : Nat) : Nat :=
  if 0x1100 ≤ idx ∧ idx ≤ 0x1160 then
    (if sub = 1 ∧ (idx = 0x1100 ∨ fnPresent v (idx - 0x1100) = true) then 3 else 0)
  else if 0x2100 ≤ idx ∧ idx ≤ 0x2107 then (if sub ≤ 80 then 256 else 0)
  else if 0x5100 ≤ idx ∧ idx ≤ 0x513F then
    (match sub with
     | 1 => if v = .gz932 ∧ 0x5120 ≤ idx then 0 else 1
     | 2 => 0x7FFF
     | 3 => 0xFF
     | 4 => if idx < 0x511F then 0 else if idx = 0x511F then 2 else 1
     | 5 => 0xFF
     | _ => 0)
  else if 0x5810 ≤ idx ∧ idx ≤ 0x581C then (if sub = 1 then 0xFF else if sub = 3 ∨ sub = 4 then 0xFFFF else 0)
  else if 0x7810 = idx then 8
  else if 0x7811 = idx then 32768
  else if 0x7812 = idx then 64
  else settingDefault idx sub

/-- The default of an entry as its value reads: zero where the table gives none. -/
def odDefault (v : Variant) (idx sub : Nat) : Nat :=
  if sub = 0 then (maxSub idx).getD 0
  else match idx, sub with
    | 0x0001, 3 => Config.enterprise.toNat
    | 0x0001, 6 => Config.stepping.toNat
    | 0x0001, 7 => 1
    | 0x0400, 1 => 640
    | 0x0400, 2 => 163840
    | 0x0400, 3 => 81920
    | 0x0400, 4 => 64
    | 0x0400, 5 => 63
    | 0x0400, 6 => 541165879296
    | 0x0400, 7 => 1
    | 0x0401, _ => 80
    | 0x0402, 1 => 0x472C0831
    | 0x0402, 2 => 0x46AC0831
    | 0x0402, 3 => 0x462C0831
    | 0x0402, 4 => 0x45AC0831
    | 0x0402, 5 => 0x43AC0831
    | 0x0403, 1 => 16777216
    | 0x0403, 2 => 1048576
    | 0x1000, 4 => 0xFF
    | 0x2400, 1 => 0xFF
    | 0x4000, 1 => 16384
    | 0x4000, 2 => 64
    | 0x4000, 3 => 4096
    | 0x4000, 4 => 2048
    | 0x4000, 5 => 64
    | 0x4000, 6 => 32
    | 0x4010, 2 => 1
    | 0x4200, 2 => 65536
    | 0x6010, 1 => 541165879296
    | 0x6020, 1 => 8388608
    | 0x7000, 1 => 1
    | 0x7040, 5 => 0xFF
    | 0x9000, 2 => 131072
    | _, _ => defaultRun v idx sub

end Sys2Proof.Machine
end

