-- ==== Sys2Proof/Machine/Values.lean ====
section
/-! DEFINITION. What a read of each entry of the dictionary returns (R30, R63 to R66, R106, R147, R357 to R359, R371 and the
object tables). -/
namespace Sys2Proof.Machine

/-! ## Capabilities (R27, R30, Table 01-6) -/

def enabledIn (s : State) (f : Nat) : List Nat := ((upto 88).map (fun i => 256 * f + i)).filter (enabled s)

/-- Enabled Drill lanes of a Field. -/
def lanesIn (s : State) (f : Nat) : Nat := ((enabledIn s f).map (fun id => drillWidth (tilAt s id))).foldl (· + ·) 0

def sumFields (g : Nat → Nat) : Nat := foldUpto 8 0 (fun n f => n + g f)

/-- A point's Tiller clock in tenths of a GHz (Table 13-4). -/
def pointClock (p : Nat) : Nat := natAt [21, 18, 15, 12, 8, 4] p

/-- A peak rate in TOPS or TFLOPS as FP32: 2 × f × E × lanes over the Fields. -/
def peakRate (s : State) (e : Nat) (lanes : Nat → Nat) : Nat :=
  (rn32 (ratio false (sumFields (fun f => pointClock (pointOf s f) * e * lanes f)) 0 5000 0)).toNat

def portsInService (s : State) : Nat :=
  ((upto 64).filter (fun p =>
    let x := portAt s p
    if p = 31 then decide (x.st = 7) else decide (x.st ≠ 0 ∧ x.st ≠ 5 ∧ x.reason < 0x11))).length

def capability (s : State) (idx sub : Nat) : Nat :=
  let blade := fun (f : Nat) => 128 * (enabledIn s f).length
  match idx, sub with
  | 0x0400, 1 => sumFields (fun f => (enabledIn s f).length)
  | 0x0400, 2 => sumFields (lanesIn s)
  | 0x0400, 3 => sumFields blade
  | 0x0400, 4 => if s.variant = .gz932 then 32 else 64
  | 0x0400, 5 => portsInService s
  | 0x0400, 6 => windowBytes
  | 0x0400, 7 => boolNat (fnPresent s.variant 0x30)
  | 0x0401, n => (enabledIn s (n - 1)).length
  | 0x0402, 1 => peakRate s 64 (lanesIn s)
  | 0x0402, 2 => peakRate s 32 (lanesIn s)
  | 0x0402, 3 => peakRate s 16 (lanesIn s)
  | 0x0402, 4 => peakRate s 8 (lanesIn s)
  | _, _ => peakRate s 1 blade

/-! ## Groups of objects -/

def runningSlots (s : State) : List Nat := (upto 4).filter (fun i => jobLive (jobAt s i))

/-- The job that a "running job" object reports: the live one of the lowest slot. -/
def firstJob (s : State) : Job :=
  match runningSlots s with
  | i :: _ => jobAt s i
  | [] => Job.reset

def fnStCode : FnSt → Nat
  | .absent => 0 | .stopped => 1 | .starting => 2 | .running => 3 | .stopping => 4 | .faulted => 5

/-- A control object (Table 12-9). -/
def controlVal (s : State) (idx sub : Nat) : Nat :=
  let c := fnGet s (idx - 0x1100)
  match sub with
  | 1 => if idx = 0x1100 then 3 else fnStCode c.st
  | 3 => boolNat c.enable
  | 4 => boolNat c.stopRec
  | 5 => boolNat c.swapPending
  | 6 => c.lock
  | _ => c.reason

def jobVal (s : State) (slot sub : Nat) : Nat :=
  let j := jobAt s slot
  match sub with
  | 1 => j.man.job
  | 2 => j.st
  | 3 => j.reason
  | _ => j.man.span

def storeVal (s : State) (sub : Nat) : Nat := if sub = 3 then boolNat s.dict.storeDone else boolNat s.dict.stored.isSome

def awnVal (s : State) (sub : Nat) : Nat :=
  let a := s.awn
  match sub with
  | 1 => a.completed | 2 => a.status | 3 => a.frame | 4 => a.written | _ => a.reason

def stopVal (s : State) (id sub : Nat) : Nat :=
  match (tilAt s id).stop with
  | none => 0
  | some r => match sub with
    | 1 => 1 | 2 => r.thread | 3 => r.pc.toNat | _ => r.reason

def aftermathVal (s : State) (id sub : Nat) : Nat :=
  let m := (jobOf s (tilAt s id).job).man
  match m.aftt with
  | none => if sub = 1 then 0xFF else 0
  | some t => if sub = 1 then t else (sem s (65536 * (id / 256) + 256 * (id % 256) + m.afts)).count

def furrowVal (s : State) (idx sub : Nat) : Nat :=
  let x := furrow s ((idx - 0x2800) / 0x80) ((idx - 0x2800) % 0x80)
  match sub with
  | 1 => x.epoch.toNat | 2 => x.next.toNat | 3 => x.limit.toNat | _ => x.job

def sowingVal (s : State) (sub : Nat) : Nat :=
  let w := s.sowing
  match sub with
  | 1 => w.lp.toNat | 2 => w.next | 3 => w.flights.length | 4 => w.credit | 5 => w.ahead | 6 => w.ends | _ => w.lastRefused

def longestVal (s : State) (sub : Nat) : Nat :=
  match s.longest with
  | none => 0
  | some (c, a, b, t, n, k) => match sub with
    | 1 => c | 2 => a | 3 => b | 4 => t | 5 => n | _ => k

/-- Walk-protected regions of the live jobs, slot by slot. -/
def regionVal (s : State) (idx sub : Nat) : Nat :=
  let rs := (runningSlots s).flatMap (fun i => (jobAt s i).man.regions)
  match rs[sub - 1]? with
  | some r => if idx = 0x4600 then r.1 else r.2
  | none => 0

/-- A recorded fault is unresolved: its context is halted, or it has ended its job, whose slot is not freed yet (log entry
78). -/
def unresolved (r : Nat × Nat × Nat × StreamFault × Nat) : Bool := decide (r.2.2.2.2 = 1 ∨ r.2.2.2.2 = 4)

/-- `OD 4710`: the oldest fault still unresolved; with none, the last one recorded. -/
def streamVal (s : State) (sub : Nat) : Nat :=
  if sub = 9 then (haltedCtxs s none).length
  else match (s.streamFaults.filter unresolved ++ s.streamFaults.reverse).head? with
    | none => 0
    | some (t, c, j, f, o) => match sub with
      | 1 => t | 2 => c | 3 => j | 4 => f.kind | 5 => f.ja | 6 => f.elem | 7 => f.chunk | _ => o

def ctxVal (s : State) (id n : Nat) : Nat :=
  match (kvGet Ctx.reset (tilAt s id).ctxs n).st with
  | .idle => 0 | .running => 1 | .halted => 2

/-- Role of a port: 0 within the Acre, 1 of an express link, 2 spare (Table 09-9). -/
def portRole (p : Nat) : Nat := if p < 31 then 0 else if p = 31 then 2 else 1

/-- Entries of a port; the spare one takes the role of the port it stands for (R292). -/
def portVal (s : State) (p sub : Nat) : Nat :=
  let x := portAt s p
  match sub with
  | 1 => x.st
  | 2 => x.peer.toNat
  | 3 => x.peerPort.toNat
  | 4 => if p = 31 ∧ x.st = 7 then portRole x.sub.toNat else portRole p
  | 5 => x.sub.toNat
  | 6 => x.reason
  | _ => x.rtt

def groupVal (s : State) (gid sub : Nat) : Nat :=
  match groupAt s gid with
  | none => if sub = 1 then 0xFF else if sub = 3 ∨ sub = 4 then 0xFFFF else 0
  | some g => match sub with
    | 1 => g.cfg.kind | 2 => g.cfg.p | 3 => g.primary.getD 0xFFFF
    | 4 => if g.primary.isSome then 0xFFFF else g.gleans.getD 0xFFFF
    | 5 => g.lam | _ => g.rt

def rotVal (s : State) (sub : Nat) : Nat :=
  let r := s.rot
  match sub with
  | 1 => r.g | 2 => r.pos | 3 => r.mode | 4 => r.slots | _ => r.round

def powerVal (s : State) (sub : Nat) : Nat :=
  let p := s.power
  match sub with
  | 1 => powerCode p.st | 3 => p.step | _ => p.lastWake

def alertVal (s : State) (sub : Nat) : Nat :=
  match sub with
  | 1 => boolNat (alerted s) | 3 => boolNat (s.power.overcurrent || s.power.underVolt) | 4 => boolNat s.board.thermtrip | _ => s.power.tripSensor

def secVal (s : State) (idx sub : Nat) : Nat :=
  let x := s.sec
  match idx, sub with
  | 0x8000, 1 => x.lifecycle
  | 0x8000, 2 => bootNow s
  | 0x8000, 3 => x.bootMode
  | 0x8000, 4 => x.openCount
  | 0x8010, 1 => x.floor
  | 0x8010, 4 => x.revoked.toNat
  | 0x8020, 2 => x.upload
  | 0x8020, 3 => if (inactiveSlot s).checked then imgSvn (inactiveSlot s).image else 0
  | 0x8030, 2 => slotsInUse s
  | 0x8040, 3 => x.debugPort
  | _, _ => x.refusedTokens

/-- A per-Tiller count of the selected Tiller, by the index and subindex of its module count. -/
def tilCount (s : State) (id idx sub : Nat) : Nat := kvGet 0 (tilAt s id).counts (od idx sub)

/-- The value of an entry that is no setting and no free value. -/
def plainVal (s : State) (holder idx sub : Nat) : Nat :=
  let id := selected s holder
  if idx / 256 = 0x04 ∧ idx ≠ 0x0403 then capability s idx sub
  else if 0x1010 ≤ idx ∧ idx ≤ 0x1013 then jobVal s (idx - 0x1010) sub
  else if idx / 256 = 0x11 then controlVal s idx sub
  else if 0x2100 ≤ idx ∧ idx ≤ 0x2107 then
    (let t := 256 * (idx - 0x2100) + sub - 1; if enabled s t then drillWidth (tilAt s t) else 0)
  else if 0x2110 ≤ idx ∧ idx ≤ 0x2117 then (tilAt s (256 * (idx - 0x2110) + sub - 1)).bypass.toNat
  else if 0x2800 ≤ idx ∧ idx < 0x2C40 then furrowVal s idx sub
  else if 0x5100 ≤ idx ∧ idx ≤ 0x513F then portVal s (idx - 0x5100) sub
  else if 0x5810 ≤ idx ∧ idx ≤ 0x581C then groupVal s (idx - 0x5810) sub
  else if idx / 4096 = 8 ∧ idx ≠ 0x8080 then secVal s idx sub
  else if 0xA340 ≤ idx ∧ idx ≤ 0xA34F then tilCount s id (idx - 0x40) sub
  else if 0xA320 ≤ idx ∧ idx ≤ 0xA32F then kvGet 0 s.dict.snapshot (od (idx - 0x20) sub)
  else match idx, sub with
    | 0x0001, 4 => (runningNow s).version.toNat
    | 0x0001, 5 => if (inactiveSlot s).checked then imgVersion (inactiveSlot s).image else 0
    | 0x0001, 8 => s.reli.inCharge
    | 0x1000, 2 => boolNat s.admitHeld.isSome
    | 0x1000, 3 => s.admitResult
    | 0x1000, 4 => s.admitSlot
    | 0x1200, n => (sessionAt s n).kind
    | 0x1202, n => storeVal s n
    | 0x1300, n => awnVal s n
    | 0x1400, 1 => (firstJob s).man.stage.1
    | 0x1400, _ => (firstJob s).man.stage.2
    | 0x2300, n => stopVal s id n
    | 0x2400, n => aftermathVal s id n
    | 0x3000, _ => boolNat ((runningSlots s).any (fun i => decide ((jobAt s i).seed.toNat ≠ setting s 0x3000 1)))
    | 0x4010, _ => boolNat s.dict.invalidDone
    | 0x4100, n => sowingVal s n
    | 0x4200, 1 => s.bales.length
    | 0x4200, _ => s.baleMax
    | 0x4401, n => slotsUsed s (n - 1)
    | 0x4500, n => longestVal s n
    | 0x4600, n => regionVal s idx n
    | 0x4601, n => regionVal s idx n
    | 0x4602, _ => s.heldMax
    | 0x4700, 1 => boolNat (firstJob s).abortPolicy
    | 0x4700, _ => boolNat (firstJob s).forced
    | 0x4710, n => streamVal s n
    | 0x4720, n => ctxVal s id (n - 1)
    | 0x5000, 4 => boolNat s.links.formed
    | 0x5000, _ => (membersHeard s).length
    | 0x5800, 1 => s.stook.groups.length
    | 0x5800, _ => s.stook.commitState
    | 0x5900, 1 => s.stook.steps
    | 0x5900, 2 => s.stook.s.toNat
    | 0x5900, 3 => s.stook.scale.toNat
    | 0x5900, _ => boolNat s.stook.flag
    | 0x5A00, n => rotVal s n
    | 0x6000, 1 => s.cxl.port0.width
    | 0x6000, 2 => s.cxl.port0.rate
    | 0x6000, _ => boolNat s.cxl.port0.mem
    | 0x6001, 1 => s.cxl.port1.width
    | 0x6001, 2 => s.cxl.port1.rate
    | 0x6001, _ => boolNat s.cxl.port1.mem
    | 0x6020, _ => s.cxl.directory.length
    | 0x7000, n => powerVal s n
    | 0x7010, n => pointOf s (n - 2)
    | 0x7011, n => ceilingOf s (n - 1)
    | 0x7040, n => alertVal s n
    | 0x7050, _ => s.power.inputMv
    | 0x7801, n => (stackAt s (n - 1)).scrubPos
    | 0x7810, n => (sparesLeft s (n - 1)).length
    | 0x7811, n => (stackAt s (n - 1)).spareRows
    | 0x7812, n => (stackAt s (n - 1)).spareBanks
    | 0x7820, _ => s.reli.listed.length
    | 0x7830, _ => s.reli.activation
    | 0x9000, 1 => match s.reli.boxA.getLast? with
      | some r => r.seq
      | none => 0
    | 0xA31F, _ => boolNat s.dict.snapshotDone
    | 0xA240, n => tilCount s id 0xA200 n
    | 0xA250, n => tilCount s id 0xA210 n
    | 0xA260, n => tilCount s id 0xA220 n
    | 0xA270, n => tilCount s id 0xA230 n
    | 0xA740, n => tilCount s id 0xA700 n
    | _, _ => count s idx sub

/-! ## STR and BLOB values -/

/-- A character string's bytes. -/
def ascii (l : List Nat) : List Byte := l.map (BitVec.ofNat 8)

def partName : Variant → List Byte
  | .gz940 => ascii [0x47, 0x5A, 0x39, 0x34, 0x30]
  | .gz936 => ascii [0x47, 0x5A, 0x39, 0x33, 0x36]
  | .gz932 => ascii [0x47, 0x5A, 0x39, 0x33, 0x32]

/-- A record's DETAIL; that of a security event is laid out by R445. -/
def boxDetailBytes (r : BoxRec) : List Byte :=
  padTo 96 (if r.event = 0x0040 then r.facts.flatMap (toLe 1) else Config.boxDetail r.event r.facts)

/-- The 128 bytes of a record (Table 14-5). -/
def boxBytes (r : BoxRec) : List Byte :=
  let head := toLe 2 0x4B42 ++ toLe 2 1 ++ toLe 2 r.event ++ toLe 1 r.sev ++ toLe 1 r.func ++ toLe 8 r.seq ++ toLe 4 r.boot
    ++ toLe 8 r.taux
  let detail := boxDetailBytes r
  head ++ toLe 4 (crc32 (head ++ detail)) ++ detail

/-- The records, each from whichever mirror holds it with a good CRC (R427). -/
def goodRecords (s : State) : List BoxRec :=
  (s.reli.boxA.zip s.reli.boxB).filterMap (fun p => if p.1.good then some p.1 else if p.2.good then some p.2 else none)

/-- The record that a requester has asked for; length 0 where the ring does not hold it (R428), or where it is skipped. -/
def boxRead (s : State) (holder : Nat) : List Byte :=
  match (goodRecords s).find? (fun r => decide (r.seq = persVal s holder 0x9010 1)) with
  | some r => boxBytes r
  | none => []

/-- A record asked for that is bad in both mirrors is skipped and counted (R427). -/
def boxSkip (s : State) (holder : Nat) : State :=
  if (boxRead s holder).isEmpty ∧ s.reli.boxA.any (fun r => decide (r.seq = persVal s holder 0x9010 1)) = true then
    bump s 0x9000 3 1
  else s

/-- One entry of the global map: member and port of up to two links to an Acre; 0xFF for none (`OD 5300`). -/
def globalEntry (s : State) (acre : Nat) : List Byte :=
  let l := if acre = myId s / 32 ∨ myId s = 0x7FFF then [] else acreLinks (linkTable s) (myId s / 32) acre
  let one := fun (i : Nat) => match l[i]? with
    | some e => toLe 1 (e.mod % 32) ++ toLe 1 e.port
    | none => [0xFF, 0xFF]
  one 0 ++ one 1

def longVal (s : State) (holder idx sub : Nat) : List Byte :=
  match idx, sub with
  | 0x0001, 1 => partName s.variant
  | 0x0001, _ => serial16
  | 0x2300, _ => match (tilAt s (selected s holder)).stop with
    | some r => r.bytes
    | none => []
  | 0x5300, _ => (upto 768).flatMap (globalEntry s)
  | 0x7820, _ => s.reli.listed.flatMap (fun x => toLe 8 (64 * x))
  | 0x8030, _ => identityChain
  | 0x8040, _ => s.sec.challenge.getD []
  | 0x9010, _ => boxRead s holder
  | _, _ => []

/-! ## A read (Table 12-3) -/

/-- Values that the manual leaves to measurement: input power and current, the energy count, a sensor not yet sampled. -/
def measured (s : State) (idx sub : Nat) : Option (Nat × State) :=
  let draw := fun (s : State) => let d := drawFree s; (d.1 % 2 ^ 32, d.2)
  let sensor := if idx = 0x7020 then some (sub - 1) else if idx = 0x7021 then some (87 + sub) else none
  match sensor with
  | some n => match sampleOf s.power.sensor n with
    | some v => some (wrapInt 32 v, s)
    | none => some (draw s)
  | none =>
    if idx = 0x7050 ∧ (sub = 1 ∨ sub = 3) then some (draw s)
    else if idx = 0x7050 ∧ sub = 4 then
      let d := drawFree s
      let t := bump d.2 idx sub d.1
      some (count t idx sub % 2 ^ 64, t)
    else none

/-- The set that a READ selects (R371). -/
def setOf (s : State) (set : Nat) : KV Nat :=
  if set = 1 then s.dict.shadow else if set = 2 then s.dict.previous else s.dict.active

/-- Whether the function that owns an entry is one the variant lacks. -/
def ownerAbsent (s : State) (holder idx : Nat) : Bool :=
  let o := odOwner s holder idx
  decide (o ≠ 0 ∧ o ≠ 0xFF) && decide ((fnGet s o).st = .absent)

/-- The bytes that an entry reads as, with the state after the read. -/
def odRead (s : State) (holder set idx sub : Nat) : List Byte × State :=
  match odEntry idx sub with
  | none => ([], s)
  | some (t, a) =>
    let num := fun (n : Nat) => toLe t.size n
    if t.long then
      (if ownerAbsent s holder idx then [] else longVal s holder idx sub, if idx = 0x9010 then boxSkip s holder else s)
    else if sub = 0 ∨ a = .con ∨ ownerAbsent s holder idx = true then (num (odDefault s.variant idx sub), s)
    else if isPers idx sub then (num (persVal s holder idx sub), s)
    else if a = .rws then (num (setIn (setOf s set) idx sub), s)
    else if a = .rwc then (num (setIn s.dict.active idx sub), s)
    else match measured s idx sub with
      | some (v, s) => (num v, s)
      | none => (num (plainVal s holder idx sub), s)

/-- The attributes that DESCRIBE returns (Table 12-1). -/
def describeBytes (s : State) (holder idx sub : Nat) : List Byte :=
  match odEntry idx sub with
  | none => []
  | some (t, a) =>
    let d := if t.long then 0 else odDefault s.variant idx sub
    toLe 1 t.code ++ toLe 1 a.code ++ toLe 1 (odOwner s holder idx)
      ++ toLe 1 (boolNat (isOob idx sub a) + 2 * boolNat (isPers idx sub)) ++ toLe 4 t.size ++ toLe 8 d

end Sys2Proof.Machine
end

