-- ==== Sys2Proof/Machine/Rules.lean ====
section
/-! DEFINITION. What a value must be to be written (R10, R61, R66, R281, R358, R378, R382, R391, R400 and the object
tables), request and response frames (Tables 12-4 and 12-5), and which requests wake the module (R391). -/
namespace Sys2Proof.Machine

/-! ## The rules of the settings -/

/-- 0x0302 unless the value lies from lo to hi. -/
def within (lo hi v : Nat) : Nat := if lo ≤ v ∧ v ≤ hi then 0 else 0x0302

/-- The abort code of a setting's value by the entry's own rule (Tables 02-7 to 14-7, R61, R281, R294, R400). -/
def ownCode (var : Variant) (idx sub v : Nat) : Nat :=
  if 0x3010 ≤ idx ∧ idx ≤ 0x301F then
    (match sub with
     | 2 => if v = 1 ∨ v = 6 then 0 else 0x0302
     | 4 => within 0 1 v
     | 5 => within 0 1 v
     | _ => 0)
  else if 0x7030 ≤ idx ∧ idx ≤ 0x7032 then
    (if sext (settingDefault idx sub) 32 < sext v 32 then 0x0302 else 0)
  else match idx, sub with
    | 0x1201, _ => within 1000 600000 v
    | 0x5000, 1 => within 0 0x7FFF v
    | 0x5000, 2 => within 1 (if var = .gz932 then 1 else 768) v
    | 0x5000, _ => within 2 32 v
    | 0x5001, _ => within 1 255 v
    | 0x5002, _ => if v / 2 ^ 14 = 0 then 0 else 0x0303
    | 0x6030, _ => if v % 2097152 = 0 then 0 else 0x0302
    | 0x6031, _ => if v % 2097152 = 0 then 0 else 0x0302
    | 0x6032, _ => if v / 8 = 0 then 0 else 0x0303
    | 0x7000, 4 => if v / 64 ≠ 0 then 0x0303 else if v % 2 = 0 then 0x0302 else 0
    | 0x7000, 6 => within 1 3600000 v
    | 0x7010, _ => within 0 5 v
    | 0x7040, _ => within 1 10000 v
    | 0x7800, _ => within 1 168 v
    | 0x7813, _ => within 1 255 v
    | _, _ => 0

/-- Pairs of entries that a rule relates: the module ID and A (R281), and the thresholds of a class (R400). -/
def relations : List (Nat × Nat × Nat) :=
  [(0x5000, 1, 2), (0x7030, 1, 2), (0x7030, 2, 3), (0x7031, 1, 2), (0x7031, 2, 3), (0x7032, 1, 2), (0x7032, 2, 3)]

/-- Whether two related values break their rule. -/
def relationBad (r : Nat × Nat × Nat) (a b : Nat) : Bool :=
  if r.1 = 0x5000 then decide (a ≠ 0x7FFF ∧ b ≤ a / 32)
  else if r.2.1 = 1 then decide (sext b 32 < sext a 32)
  else decide (sext b 32 ≤ sext a 32)

/-- The abort code of a value for a setting; get reads the set it goes into. -/
def settingCode (var : Variant) (get : Nat → Nat → Nat) (idx sub v : Nat) : Nat :=
  let now := fun (k : Nat) => if k = sub then v else get idx k
  if ownCode var idx sub v ≠ 0 then ownCode var idx sub v
  else if relations.any (fun r => decide (r.1 = idx ∧ (r.2.1 = sub ∨ r.2.2 = sub)) && relationBad r (now r.2.1) (now r.2.2)) then
    0x0302
  else 0

/-- The type's own rule (Table 12-2): B1 is 0 or 1, and an F32 is a number. -/
def typeCode (t : OdType) (v : Nat) : Nat :=
  match t with
  | .b1 => within 0 1 v
  | .f32 => if field v 23 8 = 255 then 0x0302 else 0
  | _ => 0

/-! ## Commands (WO and selections) -/

/-- "Write 1" entries. -/
def oneOnly (idx sub : Nat) : Bool :=
  [od 0x1202 1, od 0x1202 2, od 0x4500 7, od 0xA31F 1, od 0x7830 1, od 0x8010 2, od 0x8040 1].elem (od idx sub)
    || (decide (0x1010 ≤ idx ∧ idx ≤ 0x1013) && decide (sub = 5 ∨ sub = 6))

/-- A command to a function's control object, or to the module's (R378). -/
def controlCode (idx v : Nat) : Nat :=
  if v = 0 ∨ 6 < v ∨ (idx = 0x1100 ∧ v ≤ 3) then 0x0302 else 0

/-- A stream command names a HALTED context (R261). -/
def streamCode (s : State) (sub v : Nat) : Nat :=
  if sub = 3 then (if (haltedCtxs s (some v)).isEmpty then 0x0302 else 0)
  else if v / 2 ^ 20 ≠ 0 then 0x0303
  else match ctxOf (v % 65536) (v / 65536) with
    | some c => if (ctxAt s c).st = .halted then 0 else 0x0302
    | none => 0x0302

/-- The abort code of a command's value. -/
def commandCode (s : State) (idx sub v : Nat) : Nat :=
  if oneOnly idx sub then within 1 1 v
  else if idx / 256 = 0x11 then controlCode idx v
  else if 0x1010 ≤ idx ∧ idx ≤ 0x1013 then 0
  else if 0x2800 ≤ idx ∧ idx < 0x2C40 then
    (if (furrow s ((idx - 0x2800) / 0x80) ((idx - 0x2800) % 0x80)).job = 0 then 0x0302 else 0)
  else match idx, sub with
    | 0x1020, _ => if v / 2 ^ 36 ≠ 0 then 0x0303 else if semJob s (field v 0 20) = 0 then 0x0302 else 0
    | 0x4711, n => streamCode s n v
    | 0x5010, n =>
      let x := portAt s v
      if 64 ≤ v ∨ x.st = 0 ∨ beyondAcre s v = true ∨ (n = 3 ∧ x.st ≠ 5) then 0x0302 else 0
    | 0x7000, _ => if (requestOf v).isNone then 0x0302 else 0
    | 0x8010, _ => if v / 16 % 8 ≠ 0 then 0x0303 else 0
    | 0xA330, _ => if v / 256 < 8 ∧ v % 256 < 88 then 0 else 0x0302
    | _, _ => 0

/-- The set that a write of a setting goes into, as a function of the entry. -/
def targetSet (s : State) (a : Acc) (idx sub : Nat) : Nat :=
  setIn (if a = .rws then s.dict.shadow else s.dict.active) idx sub

/-- Length, type and value (R467, check 8), of an entry that is neither STR nor BLOB. -/
def valueCode (s : State) (t : OdType) (a : Acc) (idx sub : Nat) (data : List Byte) : Nat :=
  let v := leNat data
  if data.length ≠ t.size then 0x0301
  else if typeCode t v ≠ 0 then typeCode t v
  else if a = .rws ∨ a = .rwc then settingCode s.variant (targetSet s a) idx sub v
  else commandCode s idx sub v

/-! ## Frames (R362) -/

def opRead : Nat := 0x01
def opWrite : Nat := 0x02
def opDescribe : Nat := 0x04
def opOpen : Nat := 0x08
def opClose : Nat := 0x09
def opKeepalive : Nat := 0x0A
def opBatch : Nat := 0x0C

def opListed (op : Nat) : Bool := [opRead, opWrite, opDescribe, opOpen, opClose, opKeepalive, opBatch].elem op

/-- A number of bytes rounded up to a multiple of 8. -/
def pad8 (n : Nat) : Nat := (n + 7) / 8 * 8

/-- A member's request frame, padded to 8 bytes (Table 12-6). -/
def requestBytes (r : Request) : List Byte :=
  padTo (pad8 (16 + r.data.length))
    (toLe 1 r.op.toNat ++ toLe 1 r.sid.toNat ++ toLe 2 r.tag.toNat ++ toLe 2 r.entry.index.toNat ++ toLe 1 r.entry.sub.toNat
      ++ toLe 1 (r.set.toNat + 4 * r.rsv.toNat) ++ toLe 4 r.offset.toNat ++ toLe 4 r.len.toNat ++ r.data)

/-- A response frame: the header of Table 12-5 and its LEN bytes of data. -/
def responseFrame (r : Response) : List Byte :=
  toLe 1 r.op.toNat ++ toLe 1 r.sid.toNat ++ toLe 2 r.tag.toNat ++ toLe 2 r.entry.index.toNat ++ toLe 1 r.entry.sub.toNat
    ++ toLe 1 r.typ ++ toLe 2 r.abort ++ zeros 2 ++ toLe 4 r.data.length ++ r.data

/-- A member's response frame, padded to 8 bytes (Table 12-6). -/
def responseBytes (r : Response) : List Byte := padTo (pad8 (16 + r.data.length)) (responseFrame r)

/-- The request whose frame starts a run of bytes; its data are those of its LEN that are there. -/
def requestOfBytes (b : List Byte) : Request :=
  { op := BitVec.ofNat 8 (cutLe b 0 1), sid := BitVec.ofNat 8 (cutLe b 1 1), tag := BitVec.ofNat 16 (cutLe b 2 2),
    entry := { index := BitVec.ofNat 16 (cutLe b 4 2), sub := BitVec.ofNat 8 (cutLe b 6 1) },
    set := BitVec.ofNat 2 (cutLe b 7 1), rsv := BitVec.ofNat 6 (cutLe b 7 1 / 4), offset := BitVec.ofNat 32 (cutLe b 8 4),
    len := BitVec.ofNat 32 (cutLe b 12 4), data := cut b 16 (cutLe b 12 4) }

/-- The members of a BATCH (Table 12-6): frames one after another, each padded to 8 bytes. -/
def members : Nat → List Byte → List Request
  | 0, _ => []
  | n + 1, b =>
    if b.length < 16 then []
    else
      let r := requestOfBytes b
      r :: members n (b.drop (pad8 (16 + r.data.length)))

/-- A BATCH's members; a frame has at least 16 bytes. -/
def batchOf (r : Request) : List Request := members (r.data.length / 16) (r.data.take r.len.toNat)

def isWrite (r : Request) : Bool := decide (r.op.toNat = opWrite)

/-! ## Wake events (Table 13-3) -/

/-- The event of a request: CXL traffic of its port, or a message of the MCTP endpoint. -/
def originEvent : Origin → Nat
  | .mailbox p => 2 + p.val
  | .outOfBand => 4

/-- An admission, or a command 1, 2 or 3 to a control object (event 6). -/
def wakeWrite (r : Request) : Bool :=
  let i := r.entry.index.toNat
  isWrite r && (decide (i = 0x1000 ∧ r.entry.sub = 1)
    || (decide (i / 256 = 0x11 ∧ i ≠ 0x1100 ∧ r.entry.sub = 2) && (odEntry i 2).isSome && decide (1 ≤ leNat r.data ∧ leNat r.data ≤ 3)))

/-- A request that is, or holds, a wake-class write. -/
def wakeClass (r : Request) : Bool :=
  wakeWrite r || (decide (r.op.toNat = opBatch) && (batchOf r).any wakeWrite)

end Sys2Proof.Machine
end

