-- ==== Sys2Proof/Machine/Dict.lean ====
section
/-! DEFINITION. How the Selty controller performs a request of the dictionary (R356 to R373, R376 to R382, R467): the order of
the checks, sessions and the record of requests, segments, and what each written entry does. -/
namespace Sys2Proof.Machine

/-! ## Sessions (R366, R367, R369) -/

/-- The kind of session that a transport opens: 1 and 2 the CXL ports, 3 out of band. -/
def originKind : Origin → Nat
  | .mailbox p => 1 + p.val
  | .outOfBand => 3

/-- Who holds the PERS values of a request: its session, or SID 0 of its transport. -/
def holderOf (o : Origin) (sid : Nat) : Nat :=
  if sid ≠ 0 then sid else match o with
    | .mailbox p => 9 + p.val
    | .outOfBand => 11

/-- Why a request may not act in the session it names; 0 where it may. -/
def sessionCode (s : State) (o : Origin) (sid : Nat) : Nat :=
  let x := sessionAt s sid
  if sid = 0 then 0x0401
  else if x.kind = 0 then (if s.dict.timedOut.elem sid then 0x0404 else 0x0401)
  else if x.kind ≠ originKind o then 0x0401
  else 0

/-- A request of an open session has arrived: its idle time starts again. -/
def touch (s : State) (o : Origin) (sid : Nat) : State :=
  if sessionCode s o sid = 0 then setSession s sid { sessionAt s sid with last := s.clocks.aux } else s

/-- The response of an earlier request of the session with this TAG, among its last 16. -/
def recorded (s : State) (o : Origin) (r : Request) : Option Response :=
  if sessionCode s o r.sid.toNat = 0 then
    ((sessionAt s r.sid.toNat).record.find? (fun p => decide (p.1.tag = r.tag))).map (·.2)
  else none

/-- The session keeps the header and the response of a request. -/
def keep (s : State) (o : Origin) (r : Request) (p : Response) : State :=
  let sid := r.sid.toNat
  if sessionCode s o sid = 0 then
    let x := sessionAt s sid
    let l := x.record ++ [({ r with data := [] }, p)]
    setSession s sid { x with record := l.drop (l.length - 16) }
  else s

/-- SESSION OPEN: the lowest free number of the transport's kind. -/
def openSession (s : State) (o : Origin) : Option (Nat × State) :=
  let nums := match o with
    | .mailbox _ => [1, 2, 3, 4]
    | .outOfBand => [5, 6, 7, 8]
  match nums.find? (fun n => decide ((sessionAt s n).kind = 0)) with
  | none => none
  | some n =>
    let t := { s with dict := { s.dict with timedOut := s.dict.timedOut.erase n } }
    some (n, bump (setSession t n { Session.reset with kind := originKind o, last := s.clocks.aux }) 0xA100 4 1)

/-! ## Segments (R364) -/

/-- Drops what a session has staged, unless it is of this entry. -/
def dropStaged (s : State) (sid : Nat) (e : Entry) : State :=
  let x := sessionAt s sid
  match x.staged with
  | some g => if g.1 = e then s else setSession s sid { x with staged := none }
  | none => s

def setStaged (s : State) (sid : Nat) (g : Option (Entry × Nat × List Byte)) : State :=
  setSession s sid { sessionAt s sid with staged := g }

/-- The length that the first bytes of a write name, where it is the first segment of a longer value; the first bytes of
an image (MAGIC and VER) name none. -/
def firstSegment (data : List Byte) : Option Nat :=
  let n := leNat (data.take 4)
  if 4 ≤ data.length ∧ 4080 < n ∧ n ≤ 16777216 ∧ n ≠ 0x14946 then some n else none

/-- What a write of a BLOB brings: its whole value, more segments to come, or a refusal. -/
inductive Segment where
  | whole (value : List Byte)
  | more
  | refused
  deriving DecidableEq, Repr

/-- Takes a write of a BLOB that is written in segments. -/
def takeSegment (s : State) (sid : Nat) (e : Entry) (off : Nat) (data : List Byte) : State × Segment :=
  if off = 0 then
    let s := setStaged s sid none
    match firstSegment data with
    | none => (s, .whole data)
    | some n =>
      let v := data.drop 4
      if n < v.length then (s, .refused) else (setStaged s sid (some (e, n, v)), .more)
  else match (sessionAt s sid).staged with
    | none => (s, .refused)
    | some (e', n, v) =>
      let w := v ++ data
      if e' ≠ e ∨ off ≠ v.length ∨ n < w.length then (s, .refused)
      else if w.length = n then (setStaged s sid none, .whole w)
      else (setStaged s sid (some (e, n, w)), .more)

/-! ## Settings -/

/-- A write of a hot setting goes into the owner's shadow set and locks it (R371 to R373). -/
def writeShadow (s : State) (sid idx sub v : Nat) : State × Nat :=
  match setHolder idx with
  | none => (s, 0)
  | some ctl =>
    let c := fnGet s ctl
    if c.lock ≠ 0 ∧ c.lock ≠ sid then (s, 0x0403)
    else if c.swapPending then (s, 0x0501)
    else
      let d := s.dict
      let s := { s with dict := { d with shadow := kvSet (settingDefault idx sub) d.shadow (od idx sub) v } }
      (fnSet s ctl { c with lock := sid }, 0)

/-- The owners of a cold setting (R376, R377, Table 12-13). -/
def coldOwners (idx : Nat) : List Nat := if idx = 0x5000 then [0x10, 0x11] else [0x60]

/-- A write of a cold setting: every owner that is present is STOPPED. -/
def writeCold (s : State) (idx sub v : Nat) : State × Nat :=
  if (coldOwners idx).all (fun o => let st := (fnGet s o).st; decide (st = .absent ∨ st = .stopped)) then
    let d := s.dict
    ({ s with dict := { d with active := kvSet (settingDefault idx sub) d.active (od idx sub) v } }, 0)
  else (s, 0x0203)

/-- A write of a value that each requester holds for itself. -/
def writePers (s : State) (holder idx sub v : Nat) : State × Nat :=
  let d := s.dict
  ({ s with dict := { d with pers := kvSet 0 d.pers (persKey holder idx sub) v } }, 0)

/-! ## The configuration store (R382) -/

def startStore (s : State) (what : Option (KV Nat)) : State × Nat :=
  if s.dict.storing.isSome then (s, 0x0501)
  else ({ s with dict := { s.dict with storing := some what, storeDone := false } }, 0)

/-! ## Commands -/

/-- A command to the control object of a function (R373, R378, R380); 0x11 holds no set (R377). -/
def control (s : State) (sid fn v : Nat) : State × Nat :=
  match v with
  | 1 => cmdStop s fn false
  | 2 => cmdStart s fn
  | 3 => cmdStop s fn true
  | 4 => if fn = 0x11 then (s, 0) else cmdSwap s fn sid
  | 5 => if fn = 0x11 then (s, 0) else cmdDiscard s fn sid
  | 6 => if fn = 0x11 then (s, 0) else cmdLoadPrevious s fn sid
  | _ => (s, 0x0302)

/-- A write of a Granary address to `OD 1000:01` (R345). -/
def admitCommand (s : State) (ga : Nat) : State × Nat :=
  if s.admitHeld.isSome then (s, 0x0501) else (tryAdmit s ga, 0)

/-- Abort and free (R350): a job that is not there to end, or a slot that holds no ended job, is refused. -/
def slotCommand (s : State) (slot sub : Nat) : State × Nat :=
  let st := (jobAt s slot).st
  if sub = 5 then (if jobLive (jobAt s slot) then (endJob s slot 6 0x30 true true, 0) else (s, 0x0302))
  else if 4 ≤ st ∧ st ≤ 6 then (freeJob s slot, 0)
  else (s, 0x0302)

/-- Write of a limit to a Furrow counter's `:05`: the write is answered, and the counter arms when it serves the request
(R134, log entry 70). -/
def armCommand (s : State) (idx v : Nat) : State × Nat :=
  let die := (idx - 0x2800) / 0x80
  if furUp s die then (dictArm s die ((idx - 0x2800) % 0x80) v, 0) else (s, 0x0205)

/-- Resume, abandon, and resume every HALTED context of a job (R251). -/
def streamCommand (s : State) (sub v : Nat) : State × Nat :=
  if sub = 3 then ((haltedCtxs s (some v)).foldl resumeCtx s, 0)
  else match ctxOf (v % 65536) (v / 65536) with
    | none => (s, 0x0302)
    | some c => (if sub = 1 then resumeCtx s c else abandonCtx s c, 0)

/-- Retires a port, or lets a retired one train again (R271). A port of a group that is not RUNNING waits DOWN. -/
def portCommand (s : State) (sub p : Nat) : State × Nat :=
  let x := portAt s p
  if sub = 2 then (if x.st = 5 then s else retire s p 0x14, 0)
  else if running s (portFn p) && !portsRest s then (startTraining s p, 0)
  else (changePort s p { x with st := 1 }, 0)

/-- The invalidation of a job's translations completes, once no host copy of the table may be newer (R215, R340). -/
def finishInvalidation (s : State) : State :=
  match s.dict.invalidating with
  | none => s
  | some job =>
    let m := (jobOf s job).man
    let q := snoopAll s [(m.ttb, 16 * m.ttn)] false
    if !q.2 then q.1
    else
      let s := reloadTable q.1 job
      { s with dict := { s.dict with invalidating := none, invalidDone := true } }

/-- Write to `OD 4010:01`: the invalidation of a job's translations begins; one under way completes at once, and where it must
wait for a host's copy the write is refused as busy (log entry 76). -/
def invalidate (s : State) (job : Nat) : State × Nat :=
  let s := finishInvalidation s
  if s.dict.invalidating.isSome then (s, 0x0501)
  else ({ s with dict := { s.dict with invalidating := some job, invalidDone := false } }, 0)

/-- Write of 1 to `OD A31F:01` (R64). -/
def startSnapshot (s : State) : State × Nat := 
  ({ s with dict := { s.dict with snapshotting := true, snapshotDone := false } }, 0)

/-- What a write of a value to a WO entry does. -/
def command (s : State) (sid idx sub v : Nat) : State × Nat :=
  if idx / 256 = 0x11 then control s sid (idx - 0x1100) v
  else if 0x1010 ≤ idx ∧ idx ≤ 0x1013 then slotCommand s (idx - 0x1010) sub
  else if 0x2800 ≤ idx ∧ idx < 0x2C40 then armCommand s idx v
  else match idx, sub with
    | 0x1000, _ => admitCommand s v
    | 0x1020, _ => (hostSig s v, 0)
    | 0x1202, 1 => startStore s (some s.dict.active)
    | 0x1202, _ => startStore s none
    | 0x4010, _ => invalidate s v
    | 0x4500, _ => ({ s with longest := none }, 0)
    | 0x4711, n => streamCommand s n v
    | 0x5010, n => portCommand s n v
    | 0x7000, _ => powerRequest s v
    | 0x7830, _ => activate s
    | 0x8010, 2 => raiseFloor s
    | 0x8010, _ => revokeKey s v
    | 0x8040, _ => (newChallenge s, 0)
    | 0xA31F, _ => startSnapshot s
    | _, _ => (s, 0x0302)

/-! ## The checks (R467) -/

/-- The header (R363). -/
def headerCode (r : Request) (nested : Bool) : Nat :=
  let op := r.op.toNat
  if r.rsv ≠ 0 ∨ opListed op = false ∨ 8 < r.sid.toNat ∨ 99 < r.entry.sub.toNat ∨ r.set = 3 ∨ (r.set ≠ 0 ∧ op ≠ opRead)
      ∨ 4080 < r.len.toNat ∨ r.data.length < r.len.toNat ∨ (op = opOpen ∧ r.sid ≠ 0) ∨ (nested = true ∧ op = opBatch) then
    0x0601
  else 0

/-- Whether an operation names an entry. -/
def entryOp (op : Nat) : Bool := decide (op = opRead ∨ op = opWrite ∨ op = opDescribe)

/-- Whether an operation needs a session (Table 12-6). -/
def sessionOp (r : Request) : Bool :=
  let op := r.op.toNat
  decide (op = opWrite ∨ op = opClose ∨ op = opKeepalive) || (decide (op = opBatch) && (batchOf r).any isWrite)

/-- Access code and SET (check 5). -/
def accessCode (op set : Nat) (a : Acc) : Nat :=
  if op = opWrite then (if a = .ro ∨ a = .con then 0x0201 else 0)
  else if op = opRead then (if a = .wo then 0x0202 else if set ≠ 0 ∧ a ≠ .rws then 0x0207 else 0)
  else 0

/-- The indices that answer in recovery (R435). -/
def recoveryIndex (idx : Nat) : Bool := [0x0001, 0x7000, 0x8000, 0x8020, 0x9010].elem idx

/-- An index that answers: in recovery any other is as one not allocated. -/
def indexServed (s : State) (idx : Nat) : Bool := decide (s.sec.bootMode ≠ 2) || recoveryIndex idx

/-- Checks 3 to 5 on a request with a good header; 0 where it may go on. -/
def requestCode (s : State) (o : Origin) (r : Request) : Nat :=
  let idx := r.entry.index.toNat
  let sub := r.entry.sub.toNat
  let missing := if entryOp r.op.toNat then (if indexServed s idx then entryCode idx sub else 0x0101) else 0
  let sess := if sessionOp r ∨ r.sid ≠ 0 then sessionCode s o r.sid.toNat else 0
  if missing ≠ 0 then missing
  else if sess ≠ 0 then sess
  else if entryOp r.op.toNat then
    (match odEntry idx sub with
     | some (_, a) => accessCode r.op.toNat r.set.toNat a
     | none => 0)
  else 0

/-! ## The operations (Table 12-6) -/

/-- READ: a value, or the segment of a STR or BLOB from OFFSET (R364). -/
def doRead (s : State) (holder : Nat) (r : Request) (t : OdType) : State × Nat × List Byte :=
  let q := odRead s holder r.set.toNat r.entry.index.toNat r.entry.sub.toNat
  if t.long then (q.2, 0, cut q.1 r.offset.toNat 4080)
  else if r.offset ≠ 0 then (s, 0x0601, [])
  else (q.2, 0, q.1)

/-- The write of a value that has passed checks 1 to 8. -/
def writeValue (s : State) (sid holder idx sub : Nat) (a : Acc) (v : Nat) : State × Nat :=
  if isPers idx sub then writePers s holder idx sub v
  else if a = .rws then writeShadow s sid idx sub v
  else if a = .rwc then writeCold s idx sub v
  else command s sid idx sub v

/-- WRITE of a BLOB: an image in segments, or a debug token. -/
def writeBlob (s : State) (r : Request) : State × Nat :=
  let sid := r.sid.toNat
  if r.entry.index = 0x8040 then (if r.offset ≠ 0 then (s, 0x0302) else unlock s r.data)
  else
    let q := takeSegment s sid r.entry r.offset.toNat (r.data.take r.len.toNat)
    match q.2 with
    | .refused => (q.1, 0x0302)
    | .more => (q.1, 0)
    | .whole b => uploadImage q.1 b

/-- WRITE: checks 6 to 9, in order. -/
def doWrite (s : State) (o : Origin) (holder : Nat) (r : Request) (t : OdType) (a : Acc) : State × Nat :=
  let idx := r.entry.index.toNat
  let sub := r.entry.sub.toNat
  let data := r.data.take r.len.toNat
  let s := dropStaged s r.sid.toNat r.entry
  if isOob idx sub a = true ∧ o ≠ .outOfBand then (s, 0x0206)
  else if ownerAbsent s holder idx then (s, 0x0204)
  else if t.long then writeBlob s { r with data := data }
  else if r.offset ≠ 0 then (s, 0x0601)
  else
    let c := valueCode s t a idx sub data
    if c ≠ 0 then (s, c) else writeValue s r.sid.toNat holder idx sub a (leNat data)

/-- An operation on an entry, or on a session, of a request that has passed checks 1 to 5: abort code and data. -/
def doOp (s : State) (o : Origin) (r : Request) : State × Nat × List Byte :=
  let op := r.op.toNat
  let holder := holderOf o r.sid.toNat
  let idx := r.entry.index.toNat
  let sub := r.entry.sub.toNat
  match odEntry idx sub with
  | some (t, a) =>
    if op = opRead then doRead s holder r t
    else if op = opWrite then
      let q := doWrite s o holder r t a
      (q.1, q.2, [])
    else if op = opDescribe then (s, 0, describeBytes s holder idx sub)
    else if op = opClose then (closeSession s r.sid.toNat, 0, [])
    else (s, 0, [])
  | none => if op = opClose then (closeSession s r.sid.toNat, 0, []) else (s, 0, [])

/-- The type of the entry that a request names; 0 where it does not exist. -/
def typeOf (s : State) (r : Request) : Nat :=
  if entryOp r.op.toNat && indexServed s r.entry.index.toNat then
    (match odEntry r.entry.index.toNat r.entry.sub.toNat with
     | some (t, _) => t.code
     | none => 0)
  else 0

def answerFrame (s : State) (r : Request) (sid : BitVec 8) (abort : Nat) (data : List Byte) : Response :=
  { op := r.op ||| 0x80, sid := sid, tag := r.tag, entry := r.entry, typ := typeOf s r, abort := abort, data := data }

/-- Counts an answer with an abort code (R385). -/
def countAbort (s : State) (abort : Nat) : State := if abort ≠ 0 then bump s 0xA100 2 1 else s

/-- Counts a request and its response (R385): a BATCH counts by its members, and a malformed request performs nothing. -/
def counted (s : State) (r : Request) (abort : Nat) : State :=
  countAbort (if r.op.toNat = opBatch ∨ abort = 0x0601 then s else bump s 0xA100 1 1) abort

/-- Performs a request that is no BATCH; a member of one is `nested`. -/
def performOne (s : State) (o : Origin) (r : Request) (nested : Bool) : State × Response :=
  let answer := fun (s : State) (sid : BitVec 8) (c : Nat) (d : List Byte) => (counted s r c, answerFrame s r sid c d)
  let c := headerCode r nested
  if c ≠ 0 then answer s r.sid c []
  else
    let s := if nested then touch s o r.sid.toNat else s
    let c := requestCode s o r
    if c ≠ 0 then answer s r.sid c []
    else if r.op.toNat = opOpen then
      (match openSession s o with
       | none => answer s r.sid 0x0402 []
       | some (n, s) => answer s (BitVec.ofNat 8 n) 0 [])
    else
      let q := doOp s o r
      answer q.1 r.sid q.2.1 (if q.2.1 = 0 then q.2.2 else [])

/-- Performs the members of a BATCH in order, up to the first that is refused; the frames of their responses. -/
def performMembers (o : Origin) : State → List Request → State × List Byte
  | s, [] => (s, [])
  | s, m :: l =>
    let q := performOne s o m true
    if q.2.abort ≠ 0 then (q.1, responseBytes q.2)
    else
      let t := performMembers o q.1 l
      (t.1, responseBytes q.2 ++ t.2)

/-- BATCH (R365). -/
def performBatch (s : State) (o : Origin) (r : Request) : State × Response :=
  let c := headerCode r false
  let c := if c ≠ 0 then c else requestCode s o r
  if c ≠ 0 then (counted s r c, answerFrame s r r.sid c [])
  else
    let q := performMembers o s (batchOf r)
    (counted q.1 r 0, answerFrame s r r.sid 0 (q.2.take 4080))

/-- A request is performed whole (R365): answered with 0x0503 during a changeover, or from the session's record. -/
def perform (s : State) (o : Origin) (r : Request) : State × Response :=
  if s.dict.changeover then (countAbort s 0x0503, answerFrame s r r.sid 0x0503 [])
  else match recorded s o r with
    | some p => (countAbort (bump s 0xA100 9 1) p.abort, p)
    | none =>
      let q := if r.op.toNat = opBatch then performBatch s o r else performOne s o r false
      (keep q.1 o r q.2, q.2)

/-! ## How a response leaves (R360, R361) -/

/-- Opcode of the mailbox command that carries a request, and the payload size that the mailbox reports (R360). -/
def mailboxOpcode : Nat := 0xC400
def mailboxPayload : Nat := 4096

/-- How the mailbox command completes. -/
inductive MailboxReturn where
  | success | invalidInput
  deriving DecidableEq, Repr

/-- A payload of n bytes whose header has a LEN: shorter than a header, or longer than LEN allows, it is Invalid Input; any
other produces a response frame (R360). -/
def mailboxReturn (n len : Nat) : MailboxReturn := if n < 16 ∨ 16 + len < n then .invalidInput else .success

/-- The return code of a request's command. -/
def mailboxCode (r : Request) : MailboxReturn := mailboxReturn (16 + r.data.length) r.len.toNat

/-- An MCTP message of type 0x7F: the enterprise number, then one frame (R361). -/
def mctpMessage (frame : List Byte) : List Byte := toLe 1 0x7F ++ (toLe 4 Config.enterprise.toNat).reverse ++ frame

/-- A message in packets with a 64-byte transmission unit (R361). -/
def mctpUnits (m : List Byte) : List (List Byte) := chunksOf 64 (ceilDiv m.length 64) m

/-- A response leaves: through the mailbox it is the frame, out of band the units of its message too. -/
def sendFrame (s : State) (o : Origin) (p : Response) : State :=
  match o with
  | .mailbox _ => emit s (.dict o p)
  | .outOfBand => emit (emit s (.packets (mctpUnits (mctpMessage (responseFrame p))))) (.dict o p)

/-- Performs a request and sends its response. -/
def serve (s : State) (o : Origin) (r : Request) : State :=
  let q := perform s o r
  sendFrame q.1 o q.2

/-! ## When the dictionary answers (R360, R392, R435, R465) -/

/-- A port's mailbox keeps answering in every state of its function but ABSENT and FAULTED (R360). -/
def portAnswers (s : State) (p : Fin 2) : Bool :=
  let st := (fnGet s (0x40 + p.val)).st
  decide (st ≠ .absent ∧ st ≠ .faulted)

/-- A request that a port in Deep sleep does not answer is traffic of the port all the same (event 2 or 3 of Table 13-3). -/
def sleepTraffic (s : State) : Origin → State
  | .mailbox p => if s.power.st = .deepSleep ∧ portAnswers s p = true then wake s (2 + p.val) else s
  | .outOfBand => s

/-- Whether a transport is answered: from step 6 of start-up, the endpoint once it has an address and an EID (R451); a mailbox while its port is neither ABSENT nor FAULTED. -/
def answers (s : State) (o : Origin) : Bool :=
  decide (6 ≤ s.board.step) && !s.power.trip && (match o with
    | .outOfBand => mctpUp s
    | .mailbox p => portAnswers s p && decide (s.sec.bootMode ≠ 2 ∧ s.power.st ≠ .deepSleep))

/-- Whether an earlier request of the same session waits for the exit. -/
def waitsBehind (s : State) (r : Request) : Bool :=
  decide (r.sid ≠ 0) && s.dict.deferred.any (fun d => match d with
    | .request _ q => decide (q.sid = r.sid)
    | .message _ => false)

/-- Whether a request waits for the exit: any in Deep sleep, a wake-class write in Sleep, and what follows it (R392). -/
def mustWait (s : State) (r : Request) : Bool :=
  match s.power.st with
  | .deepSleep => true
  | .sleep => wakeClass r || waitsBehind s r
  | _ => false

/-- A request arrives: its session's idle time begins again (R366), and it may wake the module. -/
def submit (s : State) (o : Origin) (r : Request) : State :=
  if !answers s o then sleepTraffic s o
  else
    let s := wake s (originEvent o)
    match o, mailboxCode r with
    | .mailbox p, .invalidInput => emit s (.mailboxInvalid p)
    | _, _ =>
      let s := touch s o r.sid.toNat
      if mustWait s r then
        let s := if wakeClass r then wake s 6 else s
        { s with dict := { s.dict with deferred := s.dict.deferred ++ [.request o r] } }
      else serve (if wakeClass r then wake s 6 else s) o r

/-- The session, or the transport of a request without one, that takes turns with the others (R365). -/
def turnKey : Deferred → Nat
  | .request o r => if r.sid ≠ 0 then r.sid.toNat else (match o with | .mailbox p => 256 + p.val | .outOfBand => 258)
  | .message _ => 258

/-- What waits, in turn: one from each session and transport in round-robin order, each one's own in order of arrival (R365). -/
def turns (l : List Deferred) : List Deferred :=
  let keys := dedup (l.map turnKey)
  (upto l.length).flatMap (fun k => keys.filterMap (fun q => (l.filter (fun d => decide (turnKey d = q)))[k]?))

/-- What waited for the exit is performed. -/
def serveDeferred (s : State) : State :=
  (turns s.dict.deferred).foldl (fun s d => match d with
    | .request o r => serve s o r
    | .message m => doMessage .mctp s m) { s with dict := { s.dict with deferred := [] } }

end Sys2Proof.Machine
end

