-- ==== Sys2Proof/Machine/Requests.lean ====
section
/-! DEFINITION. The commands that are requests of the dictionary, each the frame its row names, and what ends a longer action
that one of them began (R64, R215, R366, R382, R392). -/
namespace Sys2Proof.Machine

/-- The frame of a request with a header, an operation, an entry and data. -/
def frame (h : ReqHead) (op : Nat) (e : Entry) (set : BitVec 2) (offset : Nat) (data : List Byte) : Request :=
  { op := BitVec.ofNat 8 op, sid := h.sid, tag := h.tag, entry := e, set := set, rsv := h.rsv,
    offset := BitVec.ofNat 32 offset, len := BitVec.ofNat 32 data.length, data := data }

def entry (idx sub : Nat) : Entry := { index := BitVec.ofNat 16 idx, sub := BitVec.ofNat 8 sub }

/-- A frame that names no entry. -/
def plainFrame (h : ReqHead) (op : Nat) (data : List Byte) : Request := frame h op (entry 0 0) 0 0 data

/-- A WRITE of a value of n bytes. -/
def writeFrame (h : ReqHead) (idx sub n v : Nat) : Request := frame h opWrite (entry idx sub) 0 0 (toLe n v)

/-- A frame shorter than a header: a mailbox command completes with Invalid Input (R360); out of band it has no header to answer (log
entry 86). -/
def shortFrame (s : State) (o : Origin) : State :=
  if !answers s o then sleepTraffic s o
  else
    let s := wake s (originEvent o)
    match o with
    | .mailbox p => emit s (.mailboxInvalid p)
    | .outOfBand => s

/-- A frame arrives in the bytes that come: fewer than its LEN end its data, and any beyond are zeros. -/
def takeFrame (s : State) (h : ReqHead) (r : Request) : State :=
  match h.bytes with
  | none => submit s h.origin r
  | some n => if n < 16 then shortFrame s h.origin else submit s h.origin { r with data := padTo (n - 16) r.data }

/-- A WRITE arrives. -/
def submitWrite (h : ReqHead) (idx sub n v : Nat) (s : State) : Answer := .next (takeFrame s h (writeFrame h idx sub n v))

/-! ## Requests (Table 12-6) -/

def execRead (h : ReqHead) (e : Entry) (set : BitVec 2) (offset : Word32) (s : State) : Answer :=
  .next (takeFrame s h (frame h opRead e set offset.toNat []))

def execWrite (h : ReqHead) (e : Entry) (offset : Word32) (data : List Byte) (s : State) : Answer :=
  .next (takeFrame s h (frame h opWrite e 0 offset.toNat data))

def execDescribe (h : ReqHead) (e : Entry) (s : State) : Answer :=
  .next (takeFrame s h (frame h opDescribe e 0 0 []))

def execSessionOpen (h : ReqHead) (s : State) : Answer := .next (takeFrame s h (plainFrame h opOpen []))

def execSessionClose (h : ReqHead) (s : State) : Answer := .next (takeFrame s h (plainFrame h opClose []))

def execKeepalive (h : ReqHead) (s : State) : Answer := .next (takeFrame s h (plainFrame h opKeepalive []))

/-- BATCH: its data are the members' frames (R365). -/
def execBatch (h : ReqHead) (ms : List Request) (s : State) : Answer :=
  .next (takeFrame s h (plainFrame h opBatch (ms.flatMap requestBytes)))

/-- SESSION_IDLE_TIMEOUT: a session of which nothing has arrived for `OD 1201:01` ms closes, and is counted (R366). -/
def execSessionIdleTimeout (sid : Fin 8) (s : State) : Answer :=
  let n := sid.val + 1
  let x := sessionAt s n
  if x.kind ≠ 0 ∧ x.last + auxMs (setting s 0x1201 1) ≤ s.clocks.aux then
    let s := bump (closeSession s n) 0xA100 5 1
    .next { s with dict := { s.dict with timedOut := s.dict.timedOut ++ [n] } }
  else .next s

/-! ## Function control (Table 12-9) -/

/-- A command to the control object of a function. -/
def submitControl (h : ReqHead) (fn : BitVec 8) (v : Nat) (s : State) : Answer := submitWrite h (0x1100 + fn.toNat) 2 1 v s

def execStop (h : ReqHead) (fn : BitVec 8) (s : State) : Answer := submitControl h fn 1 s
def execStart (h : ReqHead) (fn : BitVec 8) (s : State) : Answer := submitControl h fn 2 s
def execForcedStop (h : ReqHead) (fn : BitVec 8) (s : State) : Answer := submitControl h fn 3 s
def execSwap (h : ReqHead) (fn : BitVec 8) (s : State) : Answer := submitControl h fn 4 s
def execDiscard (h : ReqHead) (fn : BitVec 8) (s : State) : Answer := submitControl h fn 5 s
def execLoadPrevious (h : ReqHead) (fn : BitVec 8) (s : State) : Answer := submitControl h fn 6 s

/-! ## Stored settings (R382) -/

def execStoreSettings (h : ReqHead) (s : State) : Answer := submitWrite h 0x1202 1 1 1 s
def execEraseSettings (h : ReqHead) (s : State) : Answer := submitWrite h 0x1202 2 1 1 s

/-- STORE_COMPLETE: the stored values are those in force when the store was accepted; an erase leaves none. -/
def execStoreComplete (s : State) : Answer :=
  match s.dict.storing with
  | none => .next s
  | some what => .next { s with dict := { s.dict with stored := what, storing := none, storeDone := true } }

/-! ## Jobs (R345, R350) -/

def execAdmitJob (h : ReqHead) (ga : Word64) (s : State) : Answer := submitWrite h 0x1000 1 8 ga.toNat s
def execAbort (h : ReqHead) (slot : Fin 4) (s : State) : Answer := submitWrite h (0x1010 + slot.val) 5 1 1 s
def execFreeSlot (h : ReqHead) (slot : Fin 4) (s : State) : Answer := submitWrite h (0x1010 + slot.val) 6 1 1 s
def execHostSig (h : ReqHead) (value : Word64) (s : State) : Answer := submitWrite h 0x1020 1 8 value.toNat s

/-! ## Counters, streams and memory -/

/-- COUNTER_ARM_WRITE: index is the counter's, 0x2800 to 0x2C3F (R134). -/
def execCounterArmWrite (h : ReqHead) (index : BitVec 16) (limit : Word32) (s : State) : Answer :=
  submitWrite h index.toNat 5 4 limit.toNat s

def execResume (h : ReqHead) (value : Word32) (s : State) : Answer := submitWrite h 0x4711 1 4 value.toNat s
def execAbandon (h : ReqHead) (value : Word32) (s : State) : Answer := submitWrite h 0x4711 2 4 value.toNat s
def execResumeJob (h : ReqHead) (job : Word32) (s : State) : Answer := submitWrite h 0x4711 3 4 job.toNat s

def execTranslationInvalidate (h : ReqHead) (job : BitVec 16) (s : State) : Answer := submitWrite h 0x4010 1 2 job.toNat s

/-- INVALIDATION_COMPLETE: every unit sees the table as it now stands (R215). -/
def execInvalidationComplete (s : State) : Answer := .next (finishInvalidation s)

def execClearLongestWait (h : ReqHead) (s : State) : Answer := submitWrite h 0x4500 7 1 1 s
def execSnapshot (h : ReqHead) (s : State) : Answer := submitWrite h 0xA31F 1 1 1 s

/-- The module Winnow counters, `OD A300` to `A30F`. -/
def winnowCounts (s : State) : KV Nat := s.counts.filter (fun p => decide (od 0xA300 0 ≤ p.1 ∧ p.1 < od 0xA310 0))

/-- SNAPSHOT_COMPLETE: every Winnow counter is copied at one instant (R64). -/
def execSnapshotComplete (s : State) : Answer :=
  if s.dict.snapshotting then
    .next { s with dict := { s.dict with snapshot := winnowCounts s, snapshotting := false, snapshotDone := true } }
  else .next s

/-! ## Ports (R271) -/

def execRetirePort (h : ReqHead) (n : Byte) (s : State) : Answer := submitWrite h 0x5010 2 1 n.toNat s
def execRetrainPort (h : ReqHead) (n : Byte) (s : State) : Answer := submitWrite h 0x5010 3 1 n.toNat s

/-! ## Power (R388, R392) -/

def execSleep (h : ReqHead) (s : State) : Answer := submitWrite h 0x7000 2 1 2 s
def execDeepSleep (h : ReqHead) (s : State) : Answer := submitWrite h 0x7000 2 1 3 s
def execOff (h : ReqHead) (s : State) : Answer := submitWrite h 0x7000 2 1 4 s

/-- WAKE_EXIT_COMPLETE: the exit under way completes: Idle, and what waited for it is performed. -/
def execWakeExitComplete (s : State) : Answer :=
  if s.power.exiting then .next (kickCxl (serveDeferred (exitDone s))) else .next s

/-! ## Firmware and security (R424, R434 to R437, R442, R443) -/

def execFirmwareActivate (h : ReqHead) (s : State) : Answer := submitWrite h 0x7830 1 1 1 s
def execRaiseFloor (h : ReqHead) (s : State) : Answer := submitWrite h 0x8010 2 1 1 s
def execRevoke (h : ReqHead) (value : Byte) (s : State) : Answer := submitWrite h 0x8010 3 1 value.toNat s
def execNewChallenge (h : ReqHead) (s : State) : Answer := submitWrite h 0x8040 1 1 1 s

/-- UNLOCK_TOKEN: a token is one write. -/
def execUnlockToken (h : ReqHead) (token : List Byte) (s : State) : Answer :=
  .next (takeFrame s h (frame h opWrite (entry 0x8040 2) 0 0 token))

/-- Value bytes that an upload's last segment brings: all of a short image; the first segment brings 4 076, each later one
4 080. -/
def lastSegment (n : Nat) : Nat := if n ≤ 4080 then n else (n - 4077) % 4080 + 1

/-- IMAGE_UPLOAD: the completing write; the session has staged the segments before it. -/
def execImageUpload (h : ReqHead) (image : List Byte) (s : State) : Answer :=
  let off := image.length - lastSegment image.length
  let e := entry 0x8020 1
  let r := frame h opWrite e 0 off (image.drop off)
  let s := if off ≠ 0 ∧ answers s h.origin = true ∧ sessionCode s h.origin h.sid.toNat = 0 ∧ (recorded s h.origin r).isNone = true then
      setStaged s h.sid.toNat (some (e, image.length, image.take off))
    else s
  .next (takeFrame s h r)

end Sys2Proof.Machine
end

