-- ==== Sys2Proof/Machine/Dispatch.lean ====
section
/-! DEFINITION. One arm per command of the table, each a direct call of its meaning. -/
namespace Sys2Proof.Machine
open Sys2Proof

/-- What a command does to the module: everything but taking it from the queue. -/
def exec (i : Instr) (s : State) : Host.Outcome State Fault Refusal :=
  match i with
  | .add t rd ra rb => Sys2Proof.Machine.execAdd t rd ra rb s
  | .sub t rd ra rb => Sys2Proof.Machine.execSub t rd ra rb s
  | .and_ t rd ra rb => Sys2Proof.Machine.execAnd t rd ra rb s
  | .or_ t rd ra rb => Sys2Proof.Machine.execOr t rd ra rb s
  | .xor_ t rd ra rb => Sys2Proof.Machine.execXor t rd ra rb s
  | .shl t rd ra rb => Sys2Proof.Machine.execShl t rd ra rb s
  | .shr t rd ra rb => Sys2Proof.Machine.execShr t rd ra rb s
  | .sar t rd ra rb => Sys2Proof.Machine.execSar t rd ra rb s
  | .mul t rd ra rb => Sys2Proof.Machine.execMul t rd ra rb s
  | .mulhu t rd ra rb => Sys2Proof.Machine.execMulhu t rd ra rb s
  | .divu t rd ra rb => Sys2Proof.Machine.execDivu t rd ra rb s
  | .remu t rd ra rb => Sys2Proof.Machine.execRemu t rd ra rb s
  | .minu t rd ra rb => Sys2Proof.Machine.execMinu t rd ra rb s
  | .maxu t rd ra rb => Sys2Proof.Machine.execMaxu t rd ra rb s
  | .slt t rd ra rb => Sys2Proof.Machine.execSlt t rd ra rb s
  | .sltu t rd ra rb => Sys2Proof.Machine.execSltu t rd ra rb s
  | .seq_ t rd ra rb => Sys2Proof.Machine.execSeq t rd ra rb s
  | .jr t rd ra rb => Sys2Proof.Machine.execJr t rd ra rb s
  | .fadd t rd ra rb => Sys2Proof.Machine.execFadd t rd ra rb s
  | .fsub t rd ra rb => Sys2Proof.Machine.execFsub t rd ra rb s
  | .fmul t rd ra rb => Sys2Proof.Machine.execFmul t rd ra rb s
  | .fmax t rd ra rb => Sys2Proof.Machine.execFmax t rd ra rb s
  | .fmin t rd ra rb => Sys2Proof.Machine.execFmin t rd ra rb s
  | .ftou t rd ra rb => Sys2Proof.Machine.execFtou t rd ra rb s
  | .utof t rd ra rb => Sys2Proof.Machine.execUtof t rd ra rb s
  | .addi t rd ra imm => Sys2Proof.Machine.execAddi t rd ra imm s
  | .andi t rd ra imm => Sys2Proof.Machine.execAndi t rd ra imm s
  | .ori t rd ra imm => Sys2Proof.Machine.execOri t rd ra imm s
  | .xori t rd ra imm => Sys2Proof.Machine.execXori t rd ra imm s
  | .shli t rd ra imm => Sys2Proof.Machine.execShli t rd ra imm s
  | .shri t rd ra imm => Sys2Proof.Machine.execShri t rd ra imm s
  | .sari t rd ra imm => Sys2Proof.Machine.execSari t rd ra imm s
  | .slti t rd ra imm => Sys2Proof.Machine.execSlti t rd ra imm s
  | .lup t rd imm => Sys2Proof.Machine.execLup t rd imm s
  | .ld t rd ra size off => Sys2Proof.Machine.execLd t rd ra size off s
  | .lds t rd ra size off => Sys2Proof.Machine.execLds t rd ra size off s
  | .st t rd ra size off => Sys2Proof.Machine.execSt t rd ra size off s
  | .branch t cond ra rb off => Sys2Proof.Machine.execBranch t cond ra rb off s
  | .jal t rd off => Sys2Proof.Machine.execJal t rd off s
  | .take t rd ra rb => Sys2Proof.Machine.execTake t rd ra rb s
  | .arm t rd ra rb => Sys2Proof.Machine.execArm t rd ra rb s
  | .sig t rd ra rb cnt => Sys2Proof.Machine.execSig t rd ra rb cnt s
  | .wait t rd ra rb cnt => Sys2Proof.Machine.execWait t rd ra rb cnt s
  | .trywait t rd ra rb cnt => Sys2Proof.Machine.execTrywait t rd ra rb cnt s
  | .fence t rd ra rb => Sys2Proof.Machine.execFence t rd ra rb s
  | .halt t rd ra rb => Sys2Proof.Machine.execHalt t rd ra rb s
  | .rdid t rd ra rb sel => Sys2Proof.Machine.execRdid t rd ra rb sel s
  | .mma t w => Sys2Proof.Machine.execMma t w s
  | .attf t w => Sys2Proof.Machine.execAttf t w s
  | .attb t w => Sys2Proof.Machine.execAttb t w s
  | .sopen t w => Sys2Proof.Machine.execSopen t w s
  | .sdrain t w => Sys2Proof.Machine.execSdrain t w s
  | .spass t w => Sys2Proof.Machine.execSpass t w s
  | .sheafDiscard t w => Sys2Proof.Machine.execSheafDiscard t w s
  | .beltCopy t w => Sys2Proof.Machine.execBeltCopy t w s
  | .beltAdd t w => Sys2Proof.Machine.execBeltAdd t w s
  | .beltSub t w => Sys2Proof.Machine.execBeltSub t w s
  | .beltMul t w => Sys2Proof.Machine.execBeltMul t w s
  | .beltMax t w => Sys2Proof.Machine.execBeltMax t w s
  | .beltMin t w => Sys2Proof.Machine.execBeltMin t w s
  | .axpy t w => Sys2Proof.Machine.execAxpy t w s
  | .scale t w => Sys2Proof.Machine.execScale t w s
  | .exp t w => Sys2Proof.Machine.execExp t w s
  | .log t w => Sys2Proof.Machine.execLog t w s
  | .recip t w => Sys2Proof.Machine.execRecip t w s
  | .rsqrt t w => Sys2Proof.Machine.execRsqrt t w s
  | .tanh t w => Sys2Proof.Machine.execTanh t w s
  | .sigmoid t w => Sys2Proof.Machine.execSigmoid t w s
  | .silu t w => Sys2Proof.Machine.execSilu t w s
  | .gelu t w => Sys2Proof.Machine.execGelu t w s
  | .relu t w => Sys2Proof.Machine.execRelu t w s
  | .swiglu t w => Sys2Proof.Machine.execSwiglu t w s
  | .select t w => Sys2Proof.Machine.execSelect t w s
  | .browSum t w => Sys2Proof.Machine.execBrowSum t w s
  | .browMax t w => Sys2Proof.Machine.execBrowMax t w s
  | .softmax t w => Sys2Proof.Machine.execSoftmax t w s
  | .lse t w => Sys2Proof.Machine.execLse t w s
  | .rmsnorm t w => Sys2Proof.Machine.execRmsnorm t w s
  | .layernorm t w => Sys2Proof.Machine.execLayernorm t w s
  | .topk t w => Sys2Proof.Machine.execTopk t w s
  | .bcvt t w => Sys2Proof.Machine.execBcvt t w s
  | .depthwiseConvolution t w => Sys2Proof.Machine.execDepthwiseConvolution t w s
  | .groupedConvolution t w => Sys2Proof.Machine.execGroupedConvolution t w s
  | .maxPooling t w => Sys2Proof.Machine.execMaxPooling t w s
  | .averagePooling t w => Sys2Proof.Machine.execAveragePooling t w s
  | .argmaxOverChannels t w => Sys2Proof.Machine.execArgmaxOverChannels t w s
  | .linear t w => Sys2Proof.Machine.execLinear t w s
  | .indexed t w => Sys2Proof.Machine.execIndexed t w s
  | .walk t w => Sys2Proof.Machine.execWalk t w s
  | .relayout t w => Sys2Proof.Machine.execRelayout t w s
  | .send t w => Sys2Proof.Machine.execSend t w s
  | .recv t w => Sys2Proof.Machine.execRecv t w s
  | .relay t w => Sys2Proof.Machine.execRelay t w s
  | .strmStop t w => Sys2Proof.Machine.execStrmStop t w s
  | .drillInstructionStart til => Sys2Proof.Machine.execDrillInstructionStart til s
  | .fillLineRequest til x => Sys2Proof.Machine.execFillLineRequest til x s
  | .stashBufferReady til => Sys2Proof.Machine.execStashBufferReady til s
  | .partialLands til => Sys2Proof.Machine.execPartialLands til s
  | .drainReadStart til id => Sys2Proof.Machine.execDrainReadStart til id s
  | .drainComplete til id => Sys2Proof.Machine.execDrainComplete til id s
  | .tileInstructionComplete til id => Sys2Proof.Machine.execTileInstructionComplete til id s
  | .furrowServe die num => Sys2Proof.Machine.execFurrowServe die num s
  | .counterArmWrite h index limit => Sys2Proof.Machine.execCounterArmWrite h index limit s
  | .signalArrival id => Sys2Proof.Machine.execSignalArrival id s
  | .waiterServed sem => Sys2Proof.Machine.execWaiterServed sem s
  | .streamUfTaken c => Sys2Proof.Machine.execStreamUfTaken c s
  | .streamDeTaken c => Sys2Proof.Machine.execStreamDeTaken c s
  | .chunkGrant c => Sys2Proof.Machine.execChunkGrant c s
  | .streamChunkRead c chunk => Sys2Proof.Machine.execStreamChunkRead c chunk s
  | .streamSourceReadDone c chunk => Sys2Proof.Machine.execStreamSourceReadDone c chunk s
  | .streamChunkWritten c => Sys2Proof.Machine.execStreamChunkWritten c s
  | .streamDone c => Sys2Proof.Machine.execStreamDone c s
  | .streamAutoResume c => Sys2Proof.Machine.execStreamAutoResume c s
  | .resume h value => Sys2Proof.Machine.execResume h value s
  | .abandon h value => Sys2Proof.Machine.execAbandon h value s
  | .resumeJob h job => Sys2Proof.Machine.execResumeJob h job s
  | .walkLatch c => Sys2Proof.Machine.execWalkLatch c s
  | .walkRelease c => Sys2Proof.Machine.execWalkRelease c s
  | .granaryRequestAdmitted r => Sys2Proof.Machine.execGranaryRequestAdmitted r s
  | .granarySectorAccess stack id e => Sys2Proof.Machine.execGranarySectorAccess stack id e s
  | .bankRefresh b => Sys2Proof.Machine.execBankRefresh b s
  | .translationInvalidate h job => Sys2Proof.Machine.execTranslationInvalidate h job s
  | .fetch => Sys2Proof.Machine.execFetch s
  | .writeback => Sys2Proof.Machine.execWriteback s
  | .evict => Sys2Proof.Machine.execEvict s
  | .copy => Sys2Proof.Machine.execCopy s
  | .bind => Sys2Proof.Machine.execBind s
  | .unpin => Sys2Proof.Machine.execUnpin s
  | .sowingWait => Sys2Proof.Machine.execSowingWait s
  | .sowingEnd => Sys2Proof.Machine.execSowingEnd s
  | .sowingCredit count => Sys2Proof.Machine.execSowingCredit count s
  | .layerAdvance count => Sys2Proof.Machine.execLayerAdvance count s
  | .baleMoveComplete ga data failed => Sys2Proof.Machine.execBaleMoveComplete ga data failed s
  | .baleWritebackDone ga failed => Sys2Proof.Machine.execBaleWritebackDone ga failed s
  | .deferredEviction ga => Sys2Proof.Machine.execDeferredEviction ga s
  | .copyComplete entry => Sys2Proof.Machine.execCopyComplete entry s
  | .clearLongestWait h => Sys2Proof.Machine.execClearLongestWait h s
  | .snapshot h => Sys2Proof.Machine.execSnapshot h s
  | .clipDescriptorPosted count => Sys2Proof.Machine.execClipDescriptorPosted count s
  | .outputSlotReleased count => Sys2Proof.Machine.execOutputSlotReleased count s
  | .awnDescriptorStart => Sys2Proof.Machine.execAwnDescriptorStart s
  | .awnOutputWrite => Sys2Proof.Machine.execAwnOutputWrite s
  | .awnDescriptorComplete => Sys2Proof.Machine.execAwnDescriptorComplete s
  | .blockCompleteSignal count => Sys2Proof.Machine.execBlockCompleteSignal count s
  | .roundFinishedSignal count => Sys2Proof.Machine.execRoundFinishedSignal count s
  | .rotationCreditGrant pos note => Sys2Proof.Machine.execRotationCreditGrant pos note s
  | .rotationBlockSend pos round => Sys2Proof.Machine.execRotationBlockSend pos round s
  | .rotationBlockComplete pos note data => Sys2Proof.Machine.execRotationBlockComplete pos note data s
  | .tilePost gid index count => Sys2Proof.Machine.execTilePost gid index count s
  | .layerCompleteMarker gid count => Sys2Proof.Machine.execLayerCompleteMarker gid count s
  | .stook port f m => Sys2Proof.Machine.execStook port f m s
  | .stookAdd gid tile => Sys2Proof.Machine.execStookAdd gid tile s
  | .gleanerDeadline gid => Sys2Proof.Machine.execGleanerDeadline gid s
  | .dsemSignal gid => Sys2Proof.Machine.execDsemSignal gid s
  | .normContribution count => Sys2Proof.Machine.execNormContribution count s
  | .normRoundComplete sv e => Sys2Proof.Machine.execNormRoundComplete sv e s
  | .commitVote count => Sys2Proof.Machine.execCommitVote count s
  | .commitRound1 yes => Sys2Proof.Machine.execCommitRound1 yes s
  | .commitRound2 yes => Sys2Proof.Machine.execCommitRound2 yes s
  | .rollbackQuiescent => Sys2Proof.Machine.execRollbackQuiescent s
  | .admitJob h ga => Sys2Proof.Machine.execAdmitJob h ga s
  | .admissionAndComplete slot => Sys2Proof.Machine.execAdmissionAndComplete slot s
  | .admissionAndTimeout slot => Sys2Proof.Machine.execAdmissionAndTimeout slot s
  | .progressLimitExpiry slot => Sys2Proof.Machine.execProgressLimitExpiry slot s
  | .jobEndNotice job => Sys2Proof.Machine.execJobEndNotice job s
  | .completionRecord slot => Sys2Proof.Machine.execCompletionRecord slot s
  | .abort h slot => Sys2Proof.Machine.execAbort h slot s
  | .freeSlot h slot => Sys2Proof.Machine.execFreeSlot h slot s
  | .hostSig h value => Sys2Proof.Machine.execHostSig h value s
  | .cxlMemRead port off e => Sys2Proof.Machine.execCxlMemRead port off e s
  | .cxlMemWrite port off data => Sys2Proof.Machine.execCxlMemWrite port off data s
  | .cxlIoAtomicop port off => Sys2Proof.Machine.execCxlIoAtomicop port off s
  | .perstAssert port => Sys2Proof.Machine.execPerstAssert port s
  | .perstRelease port => Sys2Proof.Machine.execPerstRelease port s
  | .cxlLinkUp port width rate => Sys2Proof.Machine.execCxlLinkUp port width rate s
  | .read h e set offset => Sys2Proof.Machine.execRead h e set offset s
  | .write h e offset data => Sys2Proof.Machine.execWrite h e offset data s
  | .describe h e => Sys2Proof.Machine.execDescribe h e s
  | .sessionOpen h => Sys2Proof.Machine.execSessionOpen h s
  | .sessionClose h => Sys2Proof.Machine.execSessionClose h s
  | .keepalive h => Sys2Proof.Machine.execKeepalive h s
  | .batch h members => Sys2Proof.Machine.execBatch h members s
  | .sessionIdleTimeout sid => Sys2Proof.Machine.execSessionIdleTimeout sid s
  | .setEndpointId eid => Sys2Proof.Machine.execSetEndpointId eid s
  | .getEndpointId => Sys2Proof.Machine.execGetEndpointId s
  | .getMctpVersionSupport msgType => Sys2Proof.Machine.execGetMctpVersionSupport msgType s
  | .getMessageTypeSupport => Sys2Proof.Machine.execGetMessageTypeSupport s
  | .stop h fn => Sys2Proof.Machine.execStop h fn s
  | .start h fn => Sys2Proof.Machine.execStart h fn s
  | .forcedStop h fn => Sys2Proof.Machine.execForcedStop h fn s
  | .swap h fn => Sys2Proof.Machine.execSwap h fn s
  | .discard h fn => Sys2Proof.Machine.execDiscard h fn s
  | .loadPrevious h fn => Sys2Proof.Machine.execLoadPrevious h fn s
  | .safePointSwap fn unit => Sys2Proof.Machine.execSafePointSwap fn unit s
  | .stoppingComplete fn => Sys2Proof.Machine.execStoppingComplete fn s
  | .startingComplete fn => Sys2Proof.Machine.execStartingComplete fn s
  | .functionFault fn reason place => Sys2Proof.Machine.execFunctionFault fn reason place s
  | .recoveryEnd fn test => Sys2Proof.Machine.execRecoveryEnd fn test s
  | .storeSettings h => Sys2Proof.Machine.execStoreSettings h s
  | .eraseSettings h => Sys2Proof.Machine.execEraseSettings h s
  | .storeComplete => Sys2Proof.Machine.execStoreComplete s
  | .idle port f => Sys2Proof.Machine.execIdle port f s
  | .link port f => Sys2Proof.Machine.execLink port f s
  | .training port f m => Sys2Proof.Machine.execTraining port f m s
  | .map port f m => Sys2Proof.Machine.execMap port f m s
  | .urgent port f m => Sys2Proof.Machine.execUrgent port f m s
  | .remoteRead port f => Sys2Proof.Machine.execRemoteRead port f s
  | .remoteWrite port f => Sys2Proof.Machine.execRemoteWrite port f s
  | .response port f => Sys2Proof.Machine.execResponse port f s
  | .replayNotice port f dst vc => Sys2Proof.Machine.execReplayNotice port f dst vc s
  | .ackTimeout port => Sys2Proof.Machine.execAckTimeout port s
  | .replayWindowEnd port => Sys2Proof.Machine.execReplayWindowEnd port s
  | .wavelengthLoss port lambda => Sys2Proof.Machine.execWavelengthLoss port lambda s
  | .retirePort h n => Sys2Proof.Machine.execRetirePort h n s
  | .retrainPort h n => Sys2Proof.Machine.execRetrainPort h n s
  | .trainingStepTimeout port => Sys2Proof.Machine.execTrainingStepTimeout port s
  | .trainingRetry port => Sys2Proof.Machine.execTrainingRetry port s
  | .transactionTimeout port tag => Sys2Proof.Machine.execTransactionTimeout port tag s
  | .flowRouteMove dst vc => Sys2Proof.Machine.execFlowRouteMove dst vc s
  | .spareReturn => Sys2Proof.Machine.execSpareReturn s
  | .hedgerowFlitReplay die x again => Sys2Proof.Machine.execHedgerowFlitReplay die x again s
  | .scrubSectorRead stack e => Sys2Proof.Machine.execScrubSectorRead stack e s
  | .rowRepairComplete b row => Sys2Proof.Machine.execRowRepairComplete b row s
  | .bankSpareComplete b => Sys2Proof.Machine.execBankSpareComplete b s
  | .seltyHeartbeat seen => Sys2Proof.Machine.execSeltyHeartbeat seen s
  | .controllerChangeover => Sys2Proof.Machine.execControllerChangeover s
  | .firmwareActivate h => Sys2Proof.Machine.execFirmwareActivate h s
  | .activationStepDone ok => Sys2Proof.Machine.execActivationStepDone ok s
  | .blackBoxRecordWrite => Sys2Proof.Machine.execBlackBoxRecordWrite s
  | .sleep h => Sys2Proof.Machine.execSleep h s
  | .deepSleep h => Sys2Proof.Machine.execDeepSleep h s
  | .off h => Sys2Proof.Machine.execOff h s
  | .wakeN => Sys2Proof.Machine.execWakeN s
  | .wakeTimerExpiry => Sys2Proof.Machine.execWakeTimerExpiry s
  | .wakeExitComplete => Sys2Proof.Machine.execWakeExitComplete s
  | .idleHoldExpiry => Sys2Proof.Machine.execIdleHoldExpiry s
  | .seltyControlPeriod => Sys2Proof.Machine.execSeltyControlPeriod s
  | .sensorSample n mdeg => Sys2Proof.Machine.execSensorSample n mdeg s
  | .pwralertAssert => Sys2Proof.Machine.execPwralertAssert s
  | .pwralertDeassert => Sys2Proof.Machine.execPwralertDeassert s
  | .releaseHoldExpiry => Sys2Proof.Machine.execReleaseHoldExpiry s
  | .drillGateRequest til => Sys2Proof.Machine.execDrillGateRequest til s
  | .drillGatingGrant til => Sys2Proof.Machine.execDrillGatingGrant til s
  | .drillStartGrant til => Sys2Proof.Machine.execDrillStartGrant til s
  | .drillRampEnd til => Sys2Proof.Machine.execDrillRampEnd til s
  | .inputUndervoltage mv => Sys2Proof.Machine.execInputUndervoltage mv s
  | .inputRecovered mv => Sys2Proof.Machine.execInputRecovered mv s
  | .inputPowerFailure mv => Sys2Proof.Machine.execInputPowerFailure mv s
  | .auxLost => Sys2Proof.Machine.execAuxLost s
  | .auxPowerOn => Sys2Proof.Machine.execAuxPowerOn s
  | .mainPowerGood mv => Sys2Proof.Machine.execMainPowerGood mv s
  | .imageUpload h image => Sys2Proof.Machine.execImageUpload h image s
  | .imageCheckComplete => Sys2Proof.Machine.execImageCheckComplete s
  | .raiseFloor h => Sys2Proof.Machine.execRaiseFloor h s
  | .revoke h value => Sys2Proof.Machine.execRevoke h value s
  | .newChallenge h => Sys2Proof.Machine.execNewChallenge h s
  | .unlockToken h token => Sys2Proof.Machine.execUnlockToken h token s
  | .getVersion tr => Sys2Proof.Machine.execGetVersion tr s
  | .getCapabilities tr version => Sys2Proof.Machine.execGetCapabilities tr version s
  | .negotiateAlgorithms tr o => Sys2Proof.Machine.execNegotiateAlgorithms tr o s
  | .getDigests tr => Sys2Proof.Machine.execGetDigests tr s
  | .getCertificate tr slot offset length => Sys2Proof.Machine.execGetCertificate tr slot offset length s
  | .challenge tr slot nonce => Sys2Proof.Machine.execChallenge tr slot nonce s
  | .getMeasurements tr block signed nonce => Sys2Proof.Machine.execGetMeasurements tr block signed nonce s
  | .keyExchange tr slot dhe => Sys2Proof.Machine.execKeyExchange tr slot dhe s
  | .finish tr sess macOk => Sys2Proof.Machine.execFinish tr sess macOk s
  | .heartbeat tr sess => Sys2Proof.Machine.execHeartbeat tr sess s
  | .endSession tr sess => Sys2Proof.Machine.execEndSession tr sess s
  | .getCsr tr slot => Sys2Proof.Machine.execGetCsr tr slot s
  | .setCertificate tr slot chain last => Sys2Proof.Machine.execSetCertificate tr slot chain last s
  | .snapshotComplete => Sys2Proof.Machine.execSnapshotComplete s
  | .invalidationComplete => Sys2Proof.Machine.execInvalidationComplete s
  | .furrowReplyArrival t => Sys2Proof.Machine.execFurrowReplyArrival t s
  | .bladeInstructionStart til => Sys2Proof.Machine.execBladeInstructionStart til s
  | .codewordLock port => Sys2Proof.Machine.execCodewordLock port s
  | .cxlLinkDown port => Sys2Proof.Machine.execCxlLinkDown port s
  | .exitFromL1 port => Sys2Proof.Machine.execExitFromL1 port s
  | .dynamicAddressAssigned a => Sys2Proof.Machine.execDynamicAddressAssigned a s
  | .i3cAddressLost => Sys2Proof.Machine.execI3cAddressLost s
  | .regulatorOvercurrent => Sys2Proof.Machine.execRegulatorOvercurrent s
  | .controllerRestart ok => Sys2Proof.Machine.execControllerRestart ok s
  | .referenceClockPresent port => Sys2Proof.Machine.execReferenceClockPresent port s
  | .backInvalidateResponse port line dirty => Sys2Proof.Machine.execBackInvalidateResponse port line dirty s
  | .unorderedIoPeerAccess port off write data => Sys2Proof.Machine.execUnorderedIoPeerAccess port off write data s
  | .boundaryScan tck tms tdi trstN => Sys2Proof.Machine.execBoundaryScan tck tms tdi trstN s

end Sys2Proof.Machine
end

