-- ==== Sys2Proof/Machine/Startup.lean ====
section
/-! DEFINITION. Start-up from auxiliary power (R382, R435, R463 to R465, Tables 15-4 and 16-11): the step that an idle step of
the block takes, from step 4 on. -/
namespace Sys2Proof.Machine

def setStep (s : State) (n : Nat) : State := { s with board := { s.board with step := n } }

/-! ## Step 5: the boot chain of each Headland (R435) -/

/-- A controller starts from a slot. -/
def runSlot (s : State) (c n : Nat) : State :=
  let r := Running.of (slotAt s c n).image
  let s := setUp s c true
  if c = 0 then { s with sec := { s.sec with bootA := n, runA := r } }
  else { s with sec := { s.sec with bootB := n, runB := r } }

/-- A Headland boots from its active slot, or else from the other one; true where it boots. -/
def bootHeadland (s : State) (c : Nat) : State × Bool :=
  let n := bootOf s c
  let k := imageCode s (slotAt s c n).image
  if k = 0 then (runSlot s c n, true)
  else
    let s := refuseBoot s n k
    let m := 1 - n
    let j := imageCode s (slotAt s c m).image
    if j = 0 then
      let s := bump s 0x8080 3 1
      (runSlot { s with sec := { s.sec with bootMode := 1 } } c m, true)
    else (setUp (refuseBoot s m j) c false, false)

/-- An erasure that a loss of power cut short is completed by the loader (R443). -/
def finishErasure (s : State) : State :=
  if s.sec.erasePending then
    secEvent { s with sec := { s.sec with chains := [], keys := [], erasePending := false } } [7]
  else s

/-- Steps 4 and 5: both Headlands boot; where neither does, the module enters recovery. A boot from recovery is no
power-on: any other closes the debug port. -/
def bootStep (s : State) : State :=
  let s := if s.sec.bootMode = 2 then s else closePort s
  let s := { s with
    reli := { s.reli with boot := if s.sec.bootMode = 2 then s.reli.boot else s.reli.boot + 1 },
    sec := { s.sec with bootMode := 0 }, board := { s.board with offEntered := false } }
  let a := bootHeadland (finishErasure s) 0
  let b := bootHeadland a.1 1
  let s := b.1
  let s := { s with reli := { s.reli with inCharge := if a.2 then 0 else if b.2 then 1 else 0 } }
  let s := { s with sec := { s.sec with upload := if (inactiveSlot s).checked then 3 else 0 } }
  setStep (if a.2 || b.2 then s else secEvent { s with sec := { s.sec with bootMode := 2 } } [8]) 5

/-! ## Step 6: the firmware starts and applies the stored settings (R382) -/

/-- Entries of a stored set that fail a check. -/
def storedBad (s : State) (m : KV Nat) : List Nat :=
  let own := (m.filter (fun p => decide (ownCode s.variant (p.1 / 256) (p.1 % 256) p.2 ≠ 0))).map (·.1)
  let pairs := relations.filter (fun r => relationBad r (setIn m r.1 r.2.1) (setIn m r.1 r.2.2))
  dedup (own ++ pairs.flatMap (fun r => [od r.1 r.2.1, od r.1 r.2.2]))

/-- The reset cause of a power-on: that of the last power-down recorded, or 3 where there is none. -/
def resetCause (s : State) : Nat :=
  match ((goodRecords s).filter (fun r => decide (r.event = 0x0002))).getLast? with
  | some r => r.facts.headD 3
  | none => 3

/-- Every function that the part has is STARTING; in recovery none leaves STOPPED, nor does a Field without a Tiller. -/
def startFunctions (s : State) : State :=
  fnIds.foldl (fun s f =>
    let c := fnGet s f
    if c.st = .absent then s
    else
      let go := mayStart s f
      fnSet (if go then applyCold s f else s) f
        { FnCtl.reset with st := if go then .starting else .stopped, since := s.clocks.aux }) s

/-- The Fields come up at the points that the settings and a PWRALERT_N held low give them (R394, R405). -/
def startPoints (s : State) : State :=
  { s with power := { s.power with point := foldUpto 8 [] (fun m f => kvSet 0 m f (targetPoint s f)) } }

/-- Stored values are applied together; an entry that a failed check involves takes its default. -/
def firmwareStep (s : State) : State :=
  let stored := s.dict.stored.getD []
  let bad := storedBad s stored
  let m := stored.filter (fun p => !bad.elem p.1)
  let s := { s with
    dict := { s.dict with active := m, shadow := m, previous := m, kept := none }, power := { s.power with st := .idle } }
  let facts := [resetCause s, s.sec.runA.version.toNat, s.sec.runB.version.toNat, boolNat s.dict.stored.isSome] ++ bad
  setStep (startFunctions (boxAdd (startPoints s) (some 0xFF) 0x0001 facts)) 6

/-! ## Steps 7 to 11 -/

/-- Step 7: rails, clocks and stacks come up, and the four units load their microcode. -/
def railsStep (s : State) : State :=
  let micro := (runningNow s).micro
  let units := [0x20, 0x30, 0x50, 0x60].filter (fun f => fnPresent s.variant f)
  setStep { s with sec := { s.sec with microcode := units.map (fun f => (f, micro)) } } 7

/-- Step 9: every port that has a peer within the Acre trains. -/
def trainStep (s : State) : State :=
  setStep (foldUpto 64 s (fun s p =>
    let st := (fnGet s (portFn p)).st
    if (portAt s p).st = 1 ∧ beyondAcre s p = false ∧ st = .starting then startTraining s p else s)) 9

/-- Step 10: every sector outside the reserved 1 GiB of a stack is written with zeros and valid check bytes (R354). -/
def zeroStep (s : State) : State :=
  let kept := s.granary.filter (fun c => !gaOk c.1 1)
  let outside := fun (x : Nat) => gaOk (64 * x) 64
  setStep { s with
    granary := kept,
    reli := { s.reli with bad := s.reli.bad.filter (fun x => !outside x), listed := s.reli.listed.filter (fun x => !outside x) } } 10

/-- Step 11: every function is RUNNING, or STOPPING where a stop was recorded; the module is Idle and MODRDY is high. -/
def runStep (s : State) : State :=
  let open_ := fun (x : CxlPort) => { x with retry := false }
  let s := setStep { s with
    cxl := { s.cxl with port0 := open_ s.cxl.port0, port1 := open_ s.cxl.port1 },
    power := { s.power with idleSince := s.clocks.aux }, board := { s.board with modrdy := some true } } 11
  fnIds.foldl (fun s f => if (fnGet s f).st = .starting ∧ startHeld s f = false then reachRunning s f else s) s

/-- The next step of start-up, where one follows by itself. -/
def startupStep (s : State) : State :=
  if s.power.trip then s
  else match s.board.step with
    | 4 => bootStep s
    | 5 => firmwareStep s
    | 6 => if s.sec.bootMode = 2 then s else railsStep s
    | 7 => setStep s 8
    | 8 => trainStep s
    | 9 => zeroStep s
    | 10 => runStep s
    | _ => s

end Sys2Proof.Machine
end

