-- ==== Sys2Proof/Machine/Idle.lean ====
section
/-! DEFINITION. What an idle step of the block does (log entry 3): time passes, and every unit does what it may do without a
command. -/
namespace Sys2Proof.Machine

/-! ## Clocks (R12, R458) -/

/-- Cycles of the Tiller clock of a Field, and of a port's recovered clock, in this idle step. -/
def tcDelta (s : State) (f : Nat) : Nat := if tcOn s then Config.clockAdvance s.clocks.ticks (4 + f) else 0

def portDelta (s : State) (p : Nat) : Nat :=
  let st := (portAt s p).st
  if st = 3 ∨ st = 4 ∨ st = 6 ∨ st = 7 then Config.clockAdvance s.clocks.ticks (16 + p) else 0

/-- Every clock that runs moves on. -/
def advanceClocks (s : State) : State :=
  let c := s.clocks
  let by_ := fun (on : Bool) (d n : Nat) => if on then n + Config.clockAdvance c.ticks d else n
  { s with clocks :=
    { aux := by_ s.board.aux 0 c.aux,
      selty := foldUpto 2 c.selty (fun m h => kvMod 0 m h (by_ (decide (6 ≤ s.board.step ∧ s.power.st ≠ .deepSleep)) (1 + h))),
      hedgerow := by_ (fabricOn s) 3 c.hedgerow,
      granary := foldUpto 8 c.granary (fun m k => kvMod 0 m k (by_ (fabricOn s) (80 + k))),
      tc := foldUpto 8 c.tc (fun m f => kvMod 0 m f (· + tcDelta s f)),
      port := foldUpto 64 c.port (fun m p => kvMod 0 m p (· + portDelta s p)),
      transmit := foldUpto 64 c.transmit (fun m p => kvMod 0 m p (by_ (portDelta s p != 0) (88 + p))),
      phy := foldUpto 2 c.phy (fun m p => kvMod 0 m p (by_ (s.board.aux && (cxlPort s p).refclk) (152 + p))),
      ticks := c.ticks + 1 } }

/-! ## Waits that are counted (R231, R277, R288) -/

/-- A port counts the clocks in which a flit waits for credit, and those in which a request waits for one of its 4 096
transactions to end. -/
def chargePort (s : State) (p : Nat) : State :=
  let n := portDelta s p
  let x := portAt s p
  let s := if carries x && !x.egress.isEmpty then bump s (0xA500 + p) 9 n else s
  let waits := s.links.limitWait.any (fun q => decide (q.1 = p))
    || s.links.trans.any (fun x => x.parked && decide (flowEgress s x.dst x.vc = some p))
  if 4096 ≤ outstandingAt s p ∧ waits = true then bump s 0xA540 7 n else s

/-- What the clocks of this idle step charge to those that wait. -/
def chargeWaits (s : State) : State :=
  let s := foldUpto 8 s (fun s f => chargeField s f (tcDelta s f))
  foldUpto 64 s chargePort

/-! ## What the units do by themselves -/

/-- The programming of an uploaded image is done, and its check begins (R434). -/
def programImage (s : State) : State := if s.sec.upload = 1 then { s with sec := { s.sec with upload := 2 } } else s

/-- Memory: held stores, blocks, bales, BINDs and demand faults that may go on (R177, R222, R227, R229). -/
def kickMemory (s : State) : State :=
  let s := kickRot (awnLoad (awnFlush (performHeld (releaseSignals s))))
  kickRelays (kickFaults (kickBinds (s.bales.foldl (fun s b => kickBale s b.ga) s)))

/-- A swap of the job engine's set that waits for an admission to end (Table 12-8). -/
def kickSwap (s : State) : State :=
  if (fnGet s 0x60).st = .running ∧ s.admitHeld.isNone = true then switchUnit s 0x60 0 else s

/-- Jobs: completion, admission, the job engine's writes, reductions and committed state. -/
def kickJobs (s : State) : State :=
  let s := foldUpto 4 s (fun s i => tryComplete s (jobAt s i).man.job)
  let s := kickFree (kickSwap (kickAdmit s))
  giveQuiescent (repairCommitted (kickTree (kickStook (kickTasks s))))

/-- A port sends what can leave it, and a LINK flit where an ACK or a credit is due and nothing else carried it (R269, R277). -/
def kickPort (s : State) (p : Nat) : State :=
  let s := pump s p
  let x := portAt s p
  if x.ackDue || x.returns.any (fun c => decide (0 < c.2)) then sendLink s p false else s

/-- Links: flits and requests that waited go on; the spare trains. -/
def kickLinks (s : State) : State := foldUpto 64 (trainSpare (kickParked (kickUrgent (kickUnrouted (failUnrouted s))))) kickPort

/-- Functions whose stopping condition now holds are STOPPED. -/
def kickFunctions (s : State) : State := fnIds.foldl tryStopped s

/-- Threads whose next word no row lists are refused it (R112), in round-robin order after the one that issued last (R109). -/
def kickThreads (s : State) : State :=
  s.tillers.foldl (fun s p => match tilOf p.1 with
    | some t => foldUpto 8 s (fun s i =>
        refuseUnlisted s { til := t, n := ⟨(p.2.turn + 1 + i) % 8, Nat.mod_lt _ (by decide)⟩ })
    | none => s) s

/-- An idle step of the block. -/
def idleStep (s : State) : State :=
  let s := advanceClocks (chargeWaits s)
  let s := unlockStep (programImage (entryStep (startupStep s)))
  if !clocksOn s then s else kickFunctions (kickLinks (kickHome (kickCxl (serveInbox (kickJobs (kickMemory (kickThreads s)))))))

end Sys2Proof.Machine
end

