-- ==== Sys2Proof/Safety.lean ====
section
/-! DEFINITION. The terms in which the statements speak: when a command can act, what a step leaves alone, and the
properties of a state that every step keeps. -/
namespace Sys2Proof.Machine

/-! ## What an instruction of a thread leaves alone -/

/-- Everything of the module but its Tillers, its jobs, its counts and the draws of free values is as before. -/
def SameModule (s s' : State) : Prop :=
  s' = { s with tillers := s'.tillers, jobs := s'.jobs, counts := s'.counts, free := s'.free }

/-- A job has at most made progress (R347), and no module count but that of the wait at issue (R105, R322) has moved. -/
def OnlyProgress (s s' : State) : Prop :=
  (∀ slot, jobAt s' slot = { jobAt s slot with progress := (jobAt s' slot).progress }) ∧
  ∀ k, k ≠ od 0xA210 4 → k ≠ od 0xA230 2 → kvGet 0 s'.counts k = kvGet 0 s.counts k

/-- Every other Tiller is as before, and of this one all but its threads, its counts and which thread issued last, this one
where any other (R109). -/
def SameTillers (s s' : State) (t : Thr) : Prop :=
  (∀ id, id ≠ tilKey t.til → tilAt s' id = tilAt s id) ∧
  til s' t.til = { til s t.til with
    threads := (til s' t.til).threads, counts := (til s' t.til).counts, turn := (til s' t.til).turn } ∧
  ((til s' t.til).turn = (til s t.til).turn ∨ (til s' t.til).turn = t.n.val)

/-- Every other thread of the Tiller is as before. -/
def SameThreads (s s' : State) (t : Thr) : Prop :=
  ∀ n, n ≠ t.n.val → thr (til s' t.til) n = thr (til s t.til) n

/-- The frame of a scalar instruction that acts on its own thread alone: `free` is how many free values it draws. -/
def ScalarFrame (s s' : State) (t : Thr) (free : Nat) : Prop :=
  SameModule s s' ∧ OnlyProgress s s' ∧ SameTillers s s' t ∧ SameThreads s s' t ∧ s'.free = s.free + free

/-- The thread can issue (its Field RUNNING with its clock, itself ready, its turn come, none of these registers still being
written) and the n bytes at its pc lie, aligned, in the program store (R107, R109, R110, R123). -/
def CanRun (s : State) (t : Thr) (regs : List Reg) (n : Nat) : Prop :=
  canIssue s t regs = true ∧ pcOk (thread s t) n = true

/-- Register rd holds v (x0 reads as zero and takes no value, R107) and every other register what it held. -/
def Wrote (s s' : State) (t : Thr) (rd : Reg) (v : Word64) : Prop :=
  reg (thread s' t) rd = (if rd = 0 then 0 else v) ∧ ∀ r, r ≠ rd → reg (thread s' t) r = reg (thread s t) r

/-- The thread is ready at this pc. -/
def ReadyAt (s' : State) (t : Thr) (pc : Word64) : Prop := (thread s' t).st = .ready ∧ (thread s' t).pc = pc

/-! ## The memory of the module -/

/-- The Granary is in canonical form: addresses strictly rising, no listed byte equal to what an unlisted address reads as. -/
def GranaryOk (s : State) : Prop := Memory.wf s.granary = true

end Sys2Proof.Machine
end

