-- ==== Sys2Proof/WellFormed.lean ====
section
/-! DEFINITION. The commands as the tables allow them: each check names what it finds wrong. A command that fails its check
still has a meaning, which does nothing, refuses it or cuts it short as the rule of its row says. -/
namespace Sys2Proof

/-- What is wrong with an ill-formed command. -/
inductive Malformed where
  /-- the four words are not those of the row: marker 0x1F, opcode, and the field that picks the row (Tables 04-3 to 04-12) -/
  | tileWord
  /-- no such Furrow counter: 0 to 127 of a Field, 0 to 63 of Headland A (R130) -/
  | counterName
  /-- a semaphore name is 20 bits, its bits 7:6 zero (R137) -/
  | semaphoreName
  /-- a request is of one sector, and writes bytes that lie in it (R204, R207) -/
  | sectorSpan
  /-- a bale begins at a multiple of 4096 bytes (R220) -/
  | baleAddress
  /-- index 63 of a group's unit is the layer-complete marker (Table 04-18) -/
  | unitIndex
  /-- an access lies in one 64-byte line of the host's window (R339, R340, R342) -/
  | lineSpan
  /-- a bank has 16 384 rows (Table 07-3) -/
  | rowNumber
  /-- a frame carries at most 4080 bytes of data, a BLOB at most 16 777 216 (R363, R364) -/
  | valueLength
  /-- an SPDM nonce is 32 bytes (R439) -/
  | nonceLength
  /-- a key share on secp384r1 is 96 bytes (Table 15-5) -/
  | keyShare
  /-- a flit carries five sectors of 64 bytes; a MAP flit names ports 0 to 63 (R266, R275) -/
  | flit
  deriving DecidableEq, Repr

def needs (ok : Bool) (what : Malformed) : Option Malformed := if ok then none else some what

/-- Bits hi to lo of a tile instruction's words. -/
def wordField (w : Word128) (hi lo : Nat) : Nat := w.toNat / 2 ^ lo % 2 ^ (hi + 1 - lo)

/-- Word 0 holds the tile marker and the row's opcode (Table 04-3). -/
def tileWord (op : Nat) (w : Word128) : Option Malformed :=
  needs (decide (wordField w 31 27 = 0x1F ∧ wordField w 26 22 = op)) .tileWord

/-- And a field of the words picks the row among those of the opcode. -/
def tileAct (op hi lo v : Nat) (w : Word128) : Option Malformed :=
  needs (decide (wordField w 31 27 = 0x1F ∧ wordField w 26 22 = op ∧ wordField w hi lo = v)) .tileWord

/-- Bytes of the host's window of device memory: 504 GiB (R339). -/
def windowSize : Nat := 504 * 2 ^ 30

def flitFits (f : Flit) : Bool := decide (f.payload.length = 320)

/-- The check of a command: none where it is as its table allows. -/
def Instr.malformed : Instr → Option Malformed
  | .add _ _ _ _ => none
  | .sub _ _ _ _ => none
  | .and_ _ _ _ _ => none
  | .or_ _ _ _ _ => none
  | .xor_ _ _ _ _ => none
  | .shl _ _ _ _ => none
  | .shr _ _ _ _ => none
  | .sar _ _ _ _ => none
  | .mul _ _ _ _ => none
  | .mulhu _ _ _ _ => none
  | .divu _ _ _ _ => none
  | .remu _ _ _ _ => none
  | .minu _ _ _ _ => none
  | .maxu _ _ _ _ => none
  | .slt _ _ _ _ => none
  | .sltu _ _ _ _ => none
  | .seq_ _ _ _ _ => none
  | .jr _ _ _ _ => none
  | .fadd _ _ _ _ => none
  | .fsub _ _ _ _ => none
  | .fmul _ _ _ _ => none
  | .fmax _ _ _ _ => none
  | .fmin _ _ _ _ => none
  | .ftou _ _ _ _ => none
  | .utof _ _ _ _ => none
  | .addi _ _ _ _ => none
  | .andi _ _ _ _ => none
  | .ori _ _ _ _ => none
  | .xori _ _ _ _ => none
  | .shli _ _ _ _ => none
  | .shri _ _ _ _ => none
  | .sari _ _ _ _ => none
  | .slti _ _ _ _ => none
  | .lup _ _ _ => none
  | .ld _ _ _ _ _ => none
  | .lds _ _ _ _ _ => none
  | .st _ _ _ _ _ => none
  | .branch _ _ _ _ _ => none
  | .jal _ _ _ => none
  | .take _ _ _ _ => none
  | .arm _ _ _ _ => none
  | .sig _ _ _ _ _ => none
  | .wait _ _ _ _ _ => none
  | .trywait _ _ _ _ _ => none
  | .fence _ _ _ _ => none
  | .halt _ _ _ _ => none
  | .rdid _ _ _ _ _ => none
  | .mma _ w => tileWord 0 w
  | .attf _ w => tileWord 1 w
  | .attb _ w => tileWord 2 w
  | .sopen _ w => tileWord 4 w
  | .sdrain _ w => tileWord 5 w
  | .spass _ w => tileAct 6 44 43 0 w
  | .sheafDiscard _ w => tileAct 6 44 43 1 w
  | .beltCopy _ w => tileAct 8 61 56 0 w
  | .beltAdd _ w => tileAct 8 61 56 1 w
  | .beltSub _ w => tileAct 8 61 56 2 w
  | .beltMul _ w => tileAct 8 61 56 3 w
  | .beltMax _ w => tileAct 8 61 56 4 w
  | .beltMin _ w => tileAct 8 61 56 5 w
  | .axpy _ w => tileAct 8 61 56 6 w
  | .scale _ w => tileAct 8 61 56 7 w
  | .exp _ w => tileAct 8 61 56 8 w
  | .log _ w => tileAct 8 61 56 9 w
  | .recip _ w => tileAct 8 61 56 10 w
  | .rsqrt _ w => tileAct 8 61 56 11 w
  | .tanh _ w => tileAct 8 61 56 12 w
  | .sigmoid _ w => tileAct 8 61 56 13 w
  | .silu _ w => tileAct 8 61 56 14 w
  | .gelu _ w => tileAct 8 61 56 15 w
  | .relu _ w => tileAct 8 61 56 16 w
  | .swiglu _ w => tileAct 8 61 56 17 w
  | .select _ w => tileAct 8 61 56 18 w
  | .browSum _ w => tileAct 9 61 56 0 w
  | .browMax _ w => tileAct 9 61 56 1 w
  | .softmax _ w => tileAct 9 61 56 2 w
  | .lse _ w => tileAct 9 61 56 3 w
  | .rmsnorm _ w => tileAct 9 61 56 4 w
  | .layernorm _ w => tileAct 9 61 56 5 w
  | .topk _ w => tileAct 9 61 56 6 w
  | .bcvt _ w => tileWord 10 w
  | .depthwiseConvolution _ w => tileWord 11 w
  | .groupedConvolution _ w => tileWord 11 w
  | .maxPooling _ w => tileWord 11 w
  | .averagePooling _ w => tileWord 11 w
  | .argmaxOverChannels _ w => tileWord 11 w
  | .linear _ w => tileAct 12 38 37 0 w
  | .indexed _ w => tileAct 12 38 37 0 w
  | .walk _ w => tileAct 12 38 37 0 w
  | .relayout _ w => tileAct 12 38 37 0 w
  | .send _ w => tileAct 12 38 37 0 w
  | .recv _ w => tileAct 12 38 37 0 w
  | .relay _ w => tileAct 12 38 37 0 w
  | .strmStop _ w => tileAct 12 38 37 1 w
  | .drillInstructionStart _ => none
  | .fillLineRequest _ _ => none
  | .stashBufferReady _ => none
  | .partialLands _ => none
  | .drainReadStart _ _ => none
  | .drainComplete _ _ => none
  | .tileInstructionComplete _ _ => none
  | .furrowServe die num =>
    needs (decide (die < 8 ∧ num < 128 ∨ die = 8 ∧ num < 64)) .counterName
  | .counterArmWrite _ index _ =>
    needs (decide (0x2800 ≤ index.toNat ∧ index.toNat ≤ 0x2C3F)) .counterName
  | .signalArrival _ => none
  | .waiterServed sem =>
    needs (decide (sem < 2 ^ 20 ∧ sem / 64 % 4 = 0)) .semaphoreName
  | .streamUfTaken _ => none
  | .streamDeTaken _ => none
  | .chunkGrant _ => none
  | .streamChunkRead _ _ => none
  | .streamSourceReadDone _ _ => none
  | .streamChunkWritten _ => none
  | .streamDone _ => none
  | .streamAutoResume _ => none
  | .resume _ _ => none
  | .abandon _ _ => none
  | .resumeJob _ _ => none
  | .walkLatch _ => none
  | .walkRelease _ => none
  | .granaryRequestAdmitted r =>
    needs (decide (r.sector < 2 ^ 33 ∧ (if r.write then r.data ≠ [] ∧ r.first + r.data.length ≤ 64 else r.data = []))) .sectorSpan
  | .granarySectorAccess _ _ _ => none
  | .bankRefresh _ => none
  | .translationInvalidate _ _ => none
  | .fetch => none
  | .writeback => none
  | .evict => none
  | .copy => none
  | .bind => none
  | .unpin => none
  | .sowingWait => none
  | .sowingEnd => none
  | .sowingCredit _ => none
  | .layerAdvance _ => none
  | .baleMoveComplete ga _ _ =>
    needs (decide (ga % 4096 = 0)) .baleAddress
  | .baleWritebackDone ga _ =>
    needs (decide (ga % 4096 = 0)) .baleAddress
  | .deferredEviction ga =>
    needs (decide (ga % 4096 = 0)) .baleAddress
  | .copyComplete _ => none
  | .clearLongestWait _ => none
  | .snapshot _ => none
  | .clipDescriptorPosted _ => none
  | .outputSlotReleased _ => none
  | .awnDescriptorStart => none
  | .awnOutputWrite => none
  | .awnDescriptorComplete => none
  | .blockCompleteSignal _ => none
  | .roundFinishedSignal _ => none
  | .rotationCreditGrant _ m => needs (m.flits.all flitFits) .flit
  | .rotationBlockSend _ _ => none
  | .rotationBlockComplete _ m _ => needs (m.flits.all flitFits) .flit
  | .tilePost _ index _ =>
    needs (decide (index ≠ 63)) .unitIndex
  | .layerCompleteMarker _ _ => none
  | .stook _ f _ => needs (flitFits f) .flit
  | .stookAdd _ _ => none
  | .gleanerDeadline _ => none
  | .dsemSignal _ => none
  | .normContribution _ => none
  | .normRoundComplete _ _ => none
  | .commitVote _ => none
  | .commitRound1 _ => none
  | .commitRound2 _ => none
  | .rollbackQuiescent => none
  | .admitJob _ _ => none
  | .admissionAndComplete _ => none
  | .admissionAndTimeout _ => none
  | .progressLimitExpiry _ => none
  | .jobEndNotice _ => none
  | .completionRecord _ => none
  | .abort _ _ => none
  | .freeSlot _ _ => none
  | .hostSig _ _ => none
  | .cxlMemRead _ a _ =>
    needs (decide (a % 64 = 0 ∧ a < windowSize)) .lineSpan
  | .cxlMemWrite _ a data =>
    needs (decide (a < windowSize ∧ data ≠ [] ∧ a % 64 + data.length ≤ 64)) .lineSpan
  | .cxlIoAtomicop _ _ => none
  | .perstAssert _ => none
  | .perstRelease _ => none
  | .cxlLinkUp _ _ _ => none
  | .read _ _ _ _ => none
  | .write _ _ _ data =>
    needs (decide (data.length ≤ 4080)) .valueLength
  | .describe _ _ => none
  | .sessionOpen _ => none
  | .sessionClose _ => none
  | .keepalive _ => none
  | .batch _ members =>
    needs (members.all (fun r => decide (r.data.length = r.len.toNat ∧ r.len.toNat ≤ 4080))) .valueLength
  | .sessionIdleTimeout _ => none
  | .setEndpointId _ => none
  | .getEndpointId => none
  | .getMctpVersionSupport _ => none
  | .getMessageTypeSupport => none
  | .stop _ _ => none
  | .start _ _ => none
  | .forcedStop _ _ => none
  | .swap _ _ => none
  | .discard _ _ => none
  | .loadPrevious _ _ => none
  | .safePointSwap _ _ => none
  | .stoppingComplete _ => none
  | .startingComplete _ => none
  | .functionFault _ _ _ => none
  | .recoveryEnd _ _ => none
  | .storeSettings _ => none
  | .eraseSettings _ => none
  | .storeComplete => none
  | .idle _ f => needs (flitFits f) .flit
  | .link _ f => needs (flitFits f) .flit
  | .training _ f _ => needs (flitFits f) .flit
  | .map _ f m =>
    needs (flitFits f && m.ports.all (fun p => decide (p.1 < 64))) .flit
  | .urgent _ f _ => needs (flitFits f) .flit
  | .remoteRead _ f => needs (flitFits f) .flit
  | .remoteWrite _ f => needs (flitFits f) .flit
  | .response _ f => needs (flitFits f) .flit
  | .replayNotice _ f _ _ => needs (flitFits f) .flit
  | .ackTimeout _ => none
  | .replayWindowEnd _ => none
  | .wavelengthLoss _ _ => none
  | .retirePort _ _ => none
  | .retrainPort _ _ => none
  | .trainingStepTimeout _ => none
  | .trainingRetry _ => none
  | .transactionTimeout _ _ => none
  | .flowRouteMove _ _ => none
  | .spareReturn => none
  | .hedgerowFlitReplay _ _ _ => none
  | .scrubSectorRead _ _ => none
  | .rowRepairComplete _ row =>
    needs (decide (row < 16384)) .rowNumber
  | .bankSpareComplete _ => none
  | .seltyHeartbeat _ => none
  | .controllerChangeover => none
  | .firmwareActivate _ => none
  | .activationStepDone _ => none
  | .blackBoxRecordWrite => none
  | .sleep _ => none
  | .deepSleep _ => none
  | .off _ => none
  | .wakeN => none
  | .wakeTimerExpiry => none
  | .wakeExitComplete => none
  | .idleHoldExpiry => none
  | .seltyControlPeriod => none
  | .sensorSample _ _ => none
  | .pwralertAssert => none
  | .pwralertDeassert => none
  | .releaseHoldExpiry => none
  | .drillGateRequest _ => none
  | .drillGatingGrant _ => none
  | .drillStartGrant _ => none
  | .drillRampEnd _ => none
  | .inputUndervoltage _ => none
  | .inputRecovered _ => none
  | .inputPowerFailure _ => none
  | .auxLost => none
  | .auxPowerOn => none
  | .mainPowerGood _ => none
  | .imageUpload _ image =>
    needs (decide (image.length ≤ 16777216)) .valueLength
  | .imageCheckComplete => none
  | .raiseFloor _ => none
  | .revoke _ _ => none
  | .newChallenge _ => none
  | .unlockToken _ token =>
    needs (decide (token.length ≤ 4080)) .valueLength
  | .getVersion _ => none
  | .getCapabilities _ _ => none
  | .negotiateAlgorithms _ _ => none
  | .getDigests _ => none
  | .getCertificate _ _ _ _ => none
  | .challenge _ _ nonce =>
    needs (decide (nonce.length = 32)) .nonceLength
  | .getMeasurements _ _ signed nonce =>
    needs (!signed || decide (nonce.length = 32)) .nonceLength
  | .keyExchange _ _ dhe =>
    needs (decide (dhe.length = 96)) .keyShare
  | .finish _ _ _ => none
  | .heartbeat _ _ => none
  | .endSession _ _ => none
  | .getCsr _ _ => none
  | .setCertificate _ _ _ _ => none
  | .snapshotComplete => none
  | .invalidationComplete => none
  | .furrowReplyArrival _ => none
  | .bladeInstructionStart _ => none
  | .codewordLock _ => none
  | .cxlLinkDown _ => none
  | .exitFromL1 _ => none
  | .dynamicAddressAssigned _ => none
  | .i3cAddressLost => none
  | .regulatorOvercurrent => none
  | .controllerRestart _ => none
  | .referenceClockPresent _ => none
  | .backInvalidateResponse _ _ dirty =>
    needs (decide (dirty = [] ∨ dirty.length = 64)) .lineSpan
  | .unorderedIoPeerAccess _ a wr data =>
    needs (decide (a < windowSize ∧ if wr then data ≠ [] ∧ a % 64 + data.length ≤ 64 else data = [])) .lineSpan
  | .boundaryScan _ _ _ _ => none

/-- A command is well-formed where its check finds nothing. -/
def Instr.wf (i : Instr) : Bool := i.malformed.isNone

end Sys2Proof
end

