-- ==== Sys2Proof/Certificates/Slice0/Obligations.lean ====
section
/-! DEFINITION. The statements about the block: what each command does where it can act, what it leaves alone, and what
every step keeps. -/
open Sys2Proof Sys2Proof.Machine

namespace Sys2Proof.Machine

/-- The register operations of major code 0x00 on 64-bit integers, with the result Table 04-2 gives each. -/
def aluRows : List ((Thr → Reg → Reg → Reg → Instr) × (Word64 → Word64 → Word64)) :=
  [(.add, fun a b => a + b), (.sub, fun a b => a - b), (.and_, fun a b => a &&& b), (.or_, fun a b => a ||| b),
   (.xor_, fun a b => a ^^^ b), (.shl, fun a b => a <<< (b.toNat % 64)), (.shr, fun a b => a >>> (b.toNat % 64)),
   (.sar, fun a b => a.sshiftRight (b.toNat % 64)), (.mul, fun a b => a * b),
   (.mulhu, fun a b => BitVec.ofNat 64 (a.toNat * b.toNat / 2 ^ 64)),
   (.divu, fun a b => if b = 0 then BitVec.allOnes 64 else BitVec.ofNat 64 (a.toNat / b.toNat)),
   (.remu, fun a b => if b = 0 then a else BitVec.ofNat 64 (a.toNat % b.toNat)),
   (.minu, fun a b => if a.toNat ≤ b.toNat then a else b), (.maxu, fun a b => if a.toNat ≤ b.toNat then b else a),
   (.slt, fun a b => if a.toInt < b.toInt then 1 else 0), (.sltu, fun a b => if a.toNat < b.toNat then 1 else 0),
   (.seq_, fun a b => if a = b then 1 else 0)]

/-- The operations with a 17-bit immediate, and the immediate shifts (an 8-bit field whose bits 7:6 are zero). -/
def immRows : List ((Thr → Reg → Reg → BitVec 17 → Instr) × (Word64 → BitVec 17 → Word64)) :=
  [(.addi, fun a i => a + i.signExtend 64), (.andi, fun a i => a &&& i.setWidth 64), (.ori, fun a i => a ||| i.setWidth 64),
   (.xori, fun a i => a ^^^ i.setWidth 64), (.slti, fun a i => if a.toInt < i.toInt then 1 else 0)]

def shiftRows : List ((Thr → Reg → Reg → BitVec 8 → Instr) × (Word64 → Nat → Word64)) :=
  [(.shli, fun a n => a <<< n), (.shri, fun a n => a >>> n), (.sari, fun a n => a.sshiftRight n)]

end Sys2Proof.Machine

/-- ADD, SUB, AND, OR, XOR, SHL, SHR, SAR, MUL, MULHU, DIVU, REMU, MINU, MAXU, SLT, SLTU and SEQ complete whenever the thread
can issue: rd takes the result of Table 04-2, the pc moves past the word, and nothing else changes. So do ADDI, ANDI, ORI,
XORI, SLTI, SHLI, SHRI, SARI and LUP; a shift whose reserved immediate bits are not zero is refused with reason 0x02. -/
def Obligations.IntegerOperationsWriteTheirResult : Prop :=
  (∀ p ∈ aluRows, ∀ (t : Thr) (rd ra rb : Reg) (s : State), CanRun s t [rd, ra, rb] 4 →
    ∃ s', exec (p.1 t rd ra rb) s = .next s' ∧
      Wrote s s' t rd (p.2 (reg (thread s t) ra) (reg (thread s t) rb)) ∧
      ReadyAt s' t ((thread s t).pc + 4) ∧ ScalarFrame s s' t 0) ∧
  (∀ p ∈ immRows, ∀ (t : Thr) (rd ra : Reg) (imm : BitVec 17) (s : State), CanRun s t [rd, ra] 4 →
    ∃ s', exec (p.1 t rd ra imm) s = .next s' ∧ Wrote s s' t rd (p.2 (reg (thread s t) ra) imm) ∧
      ReadyAt s' t ((thread s t).pc + 4) ∧ ScalarFrame s s' t 0) ∧
  (∀ p ∈ shiftRows, ∀ (t : Thr) (rd ra : Reg) (imm : BitVec 8) (s : State), CanRun s t [rd, ra] 4 →
    (imm.toNat < 64 →
      ∃ s', exec (p.1 t rd ra imm) s = .next s' ∧ Wrote s s' t rd (p.2 (reg (thread s t) ra) imm.toNat) ∧
        ReadyAt s' t ((thread s t).pc + 4) ∧ ScalarFrame s s' t 0) ∧
    (64 ≤ imm.toNat → ∃ word s', exec (p.1 t rd ra imm) s = .next s' ∧ s' = refuseScalar s t word 0x02)) ∧
  ∀ (t : Thr) (rd : Reg) (imm : BitVec 22) (s : State), CanRun s t [rd] 4 →
    ∃ s', exec (.lup t rd imm) s = .next s' ∧ Wrote s s' t rd (imm.signExtend 64 <<< 17) ∧
      ReadyAt s' t ((thread s t).pc + 4) ∧ ScalarFrame s s' t 0

namespace Sys2Proof.Machine

/-- The FP32 operations of two operands (R34 and on give their results). -/
def fpRows : List ((Thr → Reg → Reg → Reg → Instr) × (Word32 → Word32 → Word32)) :=
  [(.fadd, fadd), (.fsub, fsub), (.fmul, fmul), (.fmax, fmax), (.fmin, fmin)]

end Sys2Proof.Machine

/-- FADD, FSUB, FMUL, FMAX, FMIN and UTOF leave their FP32 result in bits 31:0 of rd; bits 63:32, of which the manual says
nothing, are a free value. FTOU writes its 64-bit result. FTOU and UTOF have rb = x0. -/
def Obligations.FloatOperationsWriteTheirResult : Prop :=
  (∀ p ∈ fpRows, ∀ (t : Thr) (rd ra rb : Reg) (s : State), CanRun s t [rd, ra, rb] 4 →
    ∃ s' v, exec (p.1 t rd ra rb) s = .next s' ∧ Wrote s s' t rd v ∧
      lo32 v = p.2 (lo32 (reg (thread s t) ra)) (lo32 (reg (thread s t) rb)) ∧
      ReadyAt s' t ((thread s t).pc + 4) ∧ ScalarFrame s s' t 1) ∧
  (∀ (t : Thr) (rd ra : Reg) (s : State), CanRun s t [rd, ra, 0] 4 →
    (∃ s' v, exec (.utof t rd ra 0) s = .next s' ∧ Wrote s s' t rd v ∧ lo32 v = fofNat (reg (thread s t) ra).toNat ∧
      ReadyAt s' t ((thread s t).pc + 4) ∧ ScalarFrame s s' t 1) ∧
    (∃ s', exec (.ftou t rd ra 0) s = .next s' ∧ Wrote s s' t rd (ftou64 (lo32 (reg (thread s t) ra))) ∧
      ReadyAt s' t ((thread s t).pc + 4) ∧ ScalarFrame s s' t 0))

namespace Sys2Proof.Machine

/-- The Hopper address of a load or store: the base register plus the sign-extended offset, modulo 2^64. -/
def hopperAddress (s : State) (t : Thr) (ra : Reg) (off : BitVec 15) : Nat :=
  (reg (thread s t) ra + off.signExtend 64).toNat

end Sys2Proof.Machine

/-- LD zero-extends and LDS sign-extends the 1, 2, 4 or 8 little-endian bytes at an aligned address of the Tiller's own
Hopper; a misaligned address, or one outside the Hopper, is refused with reason 0x05. -/
def Obligations.LoadsReadTheHopper : Prop :=
  ∀ (t : Thr) (rd ra : Reg) (size : BitVec 2) (off : BitVec 15) (s : State), CanRun s t [rd, ra] 4 →
    (hopperAddress s t ra off % 2 ^ size.toNat = 0 ∧ hopperAddress s t ra off + 2 ^ size.toNat ≤ 8388608 →
      (∃ s', exec (.ld t rd ra size off) s = .next s' ∧
        Wrote s s' t rd (BitVec.ofNat 64 (leNat (readBytes (til s t.til).hopper (hopperAddress s t ra off) (2 ^ size.toNat)))) ∧
        ReadyAt s' t ((thread s t).pc + 4) ∧ ScalarFrame s s' t 0) ∧
      (∃ s', exec (.lds t rd ra size off) s = .next s' ∧
        Wrote s s' t rd (BitVec.ofInt 64 (sext
          (leNat (readBytes (til s t.til).hopper (hopperAddress s t ra off) (2 ^ size.toNat))) (8 * 2 ^ size.toNat))) ∧
        ReadyAt s' t ((thread s t).pc + 4) ∧ ScalarFrame s s' t 0)) ∧
    (¬ (hopperAddress s t ra off % 2 ^ size.toNat = 0 ∧ hopperAddress s t ra off + 2 ^ size.toNat ≤ 8388608) →
      (∃ word, exec (.ld t rd ra size off) s = .next (refuseScalar (settle s (tilKey t.til) t.n.val) t word 0x05)) ∧
      (∃ word, exec (.lds t rd ra size off) s = .next (refuseScalar (settle s (tilKey t.til) t.n.val) t word 0x05)) ∧
      (∃ word, exec (.st t rd ra size off) s = .next (refuseScalar (settle s (tilKey t.til) t.n.val) t word 0x05)))

/-- ST writes the low 1, 2, 4 or 8 bytes of rd, little-endian, at an aligned address of the Tiller's own Hopper, and leaves
every other byte of the Hopper, every register and everything outside the thread's Tiller as it was. -/
def Obligations.StoreWritesItsBytesOnly : Prop :=
  ∀ (t : Thr) (rd ra : Reg) (size : BitVec 2) (off : BitVec 15) (s : State), CanRun s t [rd, ra] 4 →
    hopperAddress s t ra off % 2 ^ size.toNat = 0 → hopperAddress s t ra off + 2 ^ size.toNat ≤ 8388608 →
    ∃ s', exec (.st t rd ra size off) s = .next s' ∧
      readBytes (til s' t.til).hopper (hopperAddress s t ra off) (2 ^ size.toNat) =
        toLe (2 ^ size.toNat) (reg (thread s t) rd).toNat ∧
      (∀ a, a < hopperAddress s t ra off ∨ hopperAddress s t ra off + 2 ^ size.toNat ≤ a →
        byteAt (til s' t.til).hopper a = byteAt (til s t.til).hopper a) ∧
      (∀ r, reg (thread s' t) r = reg (thread s t) r) ∧ ReadyAt s' t ((thread s t).pc + 4) ∧
      SameModule s s' ∧ OnlyProgress s s' ∧ SameThreads s s' t ∧ s'.free = s.free ∧
      (∀ id, id ≠ tilKey t.til → tilAt s' id = tilAt s id) ∧
      til s' t.til = { til s t.til with hopper := (til s' t.til).hopper, threads := (til s' t.til).threads,
                                        counts := (til s' t.til).counts, turn := t.n.val }

namespace Sys2Proof.Machine

/-- Whether a branch is taken: condition codes 0 EQ, 1 NE, 2 LT, 3 GE, 4 LTU, 5 GEU on two registers. -/
def taken (cond : BitVec 3) (a b : Word64) : Prop :=
  (cond = 0 ∧ a = b) ∨ (cond = 1 ∧ a ≠ b) ∨ (cond = 2 ∧ a.toInt < b.toInt) ∨ (cond = 3 ∧ ¬ a.toInt < b.toInt) ∨
  (cond = 4 ∧ a.toNat < b.toNat) ∨ (cond = 5 ∧ ¬ a.toNat < b.toNat)

end Sys2Proof.Machine

/-- BRANCH, JAL and JR complete: a taken branch and JAL go to the instruction's own address plus four times the sign-extended
offset, JR to ra; JAL and JR link the next instruction's address in rd. Condition codes 6 and 7 are refused with reason 0x01. -/
def Obligations.BranchesAndJumpsMoveThePc : Prop :=
  (∀ (t : Thr) (cond : BitVec 3) (ra rb : Reg) (off : BitVec 14) (s : State), CanRun s t [ra, rb] 4 →
    (cond.toNat ≤ 5 → ∃ s', exec (.branch t cond ra rb off) s = .next s' ∧
      (taken cond (reg (thread s t) ra) (reg (thread s t) rb) → ReadyAt s' t ((thread s t).pc + (off.signExtend 64 <<< 2))) ∧
      (¬ taken cond (reg (thread s t) ra) (reg (thread s t) rb) → ReadyAt s' t ((thread s t).pc + 4)) ∧
      (∀ r, reg (thread s' t) r = reg (thread s t) r) ∧ ScalarFrame s s' t 0) ∧
    (6 ≤ cond.toNat → ∃ word, exec (.branch t cond ra rb off) s = .next (refuseScalar s t word 0x01))) ∧
  (∀ (t : Thr) (rd : Reg) (off : BitVec 22) (s : State), CanRun s t [rd] 4 →
    ∃ s', exec (.jal t rd off) s = .next s' ∧ Wrote s s' t rd ((thread s t).pc + 4) ∧
      ReadyAt s' t ((thread s t).pc + (off.signExtend 64 <<< 2)) ∧ ScalarFrame s s' t 0) ∧
  (∀ (t : Thr) (rd ra : Reg) (s : State), CanRun s t [rd, ra, 0] 4 →
    ∃ s', exec (.jr t rd ra 0) s = .next s' ∧ Wrote s s' t rd ((thread s t).pc + 4) ∧
      ReadyAt s' t (reg (thread s t) ra) ∧ ScalarFrame s s' t 0)

namespace Sys2Proof.Machine

/-- What RDID reads: the thread number, the Tiller ID, the Drill's width, the argument address, the thread's age in tc. -/
def identity (s : State) (t : Thr) : IdSel → Nat
  | .thread => t.n.val
  | .tiller => 256 * t.til.field.val + t.til.slot.val
  | .width => drillWidth (til s t.til)
  | .argptr => (jobOf s (til s t.til).job).man.ahop
  | .tc => tcNow s t.til.field.val - (thread s t).startTc

/-- Another named thread of the thread's job has not halted, or the job does not run. -/
def othersRun (s : State) (t : Thr) : Prop :=
  (jobOf s (til s t.til).job).st ≠ 2 ∨
  ∃ id ∈ jobTils s (til s t.til).job, ∃ e ∈ (jobOf s (til s t.til).job).man.entries,
    (thr (tilAt s id) e.1).st ≠ .halted ∧ ¬ (id = tilKey t.til ∧ e.1 = t.n.val)

end Sys2Proof.Machine

/-- FENCE goes on at once where no tile instruction of the thread is incomplete and otherwise waits past its own word;
RDID writes the value it names; HALT ends the thread, and touches nothing else while another named thread runs. -/
def Obligations.FenceHaltAndRdidComplete : Prop :=
  (∀ (t : Thr) (s : State), CanRun s t [0, 0, 0] 4 →
    ∃ s', exec (.fence t 0 0 0) s = .next s' ∧ (thread s' t).pc = (thread s t).pc + 4 ∧
      (thread s' t).st = (if (til s t.til).flights.any (fun f => decide (f.thread = t.n.val))
        then .waitFence (tcNow s t.til.field.val) else .ready) ∧
      (∀ r, reg (thread s' t) r = reg (thread s t) r) ∧ ScalarFrame s s' t 0) ∧
  (∀ (t : Thr) (rd : Reg) (sel : IdSel) (s : State), CanRun s t [rd, 0, 0] 4 →
    ∃ s', exec (.rdid t rd 0 0 sel) s = .next s' ∧ Wrote s s' t rd (BitVec.ofNat 64 (identity s t sel)) ∧
      ReadyAt s' t ((thread s t).pc + 4) ∧ ScalarFrame s s' t 0) ∧
  (∀ (t : Thr) (s : State), CanRun s t [0, 0, 0] 4 → othersRun s t →
    ∃ s', exec (.halt t 0 0 0) s = .next s' ∧ (thread s' t).st = .halted ∧ (thread s' t).pc = (thread s t).pc + 4 ∧
      (∀ r, reg (thread s' t) r = reg (thread s t) r) ∧ ScalarFrame s s' t 0)

namespace Sys2Proof.Machine

/-! ## Furrow counters and semaphores -/

/-- The module but its Tillers, jobs, counts and Furrow requests is as before. -/
def SameButRequests (s s' : State) : Prop :=
  s' = { s with tillers := s'.tillers, jobs := s'.jobs, counts := s'.counts, furrowQ := s'.furrowQ }

/-- A thread may send a request to a counter: the counter is its job's, and a request to another die finds fewer than 3
urgent messages of its Tiller in flight (R130, R142). -/
def MayAsk (s : State) (t : Thr) (die num : Nat) : Prop :=
  (furrow s die num).job = (til s t.til).job ∧ (til s t.til).job ≠ 0 ∧
  (die = t.til.field.val ∨ urgentCount s t.til < 3)

/-- The request has been put at the counter in order of arrival, and the thread waits for the reply into rd. -/
def Asked (s s' : State) (t : Thr) (rd : Reg) (die num : Nat) (arm : Option Word32) (epoch : BitVec 16) : Prop :=
  s'.furrowQ = enqueue s.furrowQ { die := die, num := num, thr := some t, arm := arm, epoch := epoch,
                                   stamp := furClock s die, port := furPort s t.til die } ∧
  (thread s' t).st = .waitFurrow rd ∧ (thread s' t).pc = (thread s t).pc + 4 ∧
  (∀ r, reg (thread s' t) r = reg (thread s t) r) ∧ SameButRequests s s' ∧ SameTillers s s' t ∧ SameThreads s s' t

end Sys2Proof.Machine

/-- TAKE and ARM send their request and make the thread wait for the reply: TAKE names the counter in bits 15:0 of ra and the
epoch it expects in bits 31:16, ARM the counter in ra and the limit in bits 31:0 of rb. -/
def Obligations.TakeAndArmAskTheCounter : Prop :=
  (∀ (t : Thr) (rd ra : Reg) (s : State) (die num : Nat), CanRun s t [rd, ra, 0] 4 →
    (reg (thread s t) ra).toNat < 2 ^ 32 → furName ((reg (thread s t) ra).toNat % 2 ^ 16) = some (die, num) →
    MayAsk s t die num →
    ∃ s', exec (.take t rd ra 0) s = .next s' ∧
      Asked s s' t rd die num none (BitVec.ofNat 16 ((reg (thread s t) ra).toNat / 2 ^ 16))) ∧
  (∀ (t : Thr) (rd ra rb : Reg) (s : State) (die num : Nat), CanRun s t [rd, ra, rb] 4 →
    (reg (thread s t) ra).toNat < 2 ^ 16 → (reg (thread s t) rb).toNat < 2 ^ 32 →
    furName (reg (thread s t) ra).toNat = some (die, num) → MayAsk s t die num →
    ∃ s', exec (.arm t rd ra rb) s = .next s' ∧
      Asked s s' t rd die num (some (BitVec.ofNat 32 (reg (thread s t) rb).toNat)) 0)

namespace Sys2Proof.Machine

/-- The counter after a TAKE, and the reply, in the four cases of Table 04-14. -/
def takeReply (s : State) (die num : Nat) (expected : BitVec 16) : Furrow × Nat :=
  let x := furrow s die num
  if furUp s die = false then (x, 2 ^ 61 + 0xFFFFFFFF)
  else if expected ≠ x.epoch then (x, 2 ^ 63 + x.epoch.toNat * 2 ^ 32 + 0xFFFFFFFF)
  else if x.next.toNat < x.limit.toNat then ({ x with next := x.next + 1 }, x.epoch.toNat * 2 ^ 32 + x.next.toNat)
  else (x, 2 ^ 62 + x.epoch.toNat * 2 ^ 32 + 0xFFFFFFFF)

/-- The counter after an ARM and the reply: a new epoch where the counter's die answers, nothing armed where it does not. -/
def armReply (s : State) (die num : Nat) (limit : Word32) : Furrow × Nat :=
  let x := furrow s die num
  if furUp s die = true then ({ x with epoch := x.epoch + 1, next := 0, limit := limit }, (x.epoch + 1).toNat)
  else (x, 2 ^ 61)

end Sys2Proof.Machine

/-- FURROW_SERVE serves the oldest request of the counter: the counter and the reply are those of Table 04-14, every other
counter is as before, and the request is gone; the reply to a thread of another die is on its way to it, and urgent signals that
waited for its place may go. A reply that reaches its waiting thread writes rd and makes it ready: FURROW_REPLY_ARRIVAL from
another die, FURROW_SERVE from the thread's own. A request of the dictionary arms the counter in its turn and has no reply. -/
def Obligations.CounterServesItsOldestRequest : Prop :=
  (∀ (s : State) (die num : Nat) (r : FurrowReq) (t : Thr), die < 9 → num < 128 →
      s.furrowQ.find? (fun q => decide (q.die = die ∧ q.num = num)) = some r → r.thr = some t → t.til.field.val ≠ die →
      ∃ u, exec (.furrowServe die num) s = .next (releaseSignals u) ∧
        (let a := match r.arm with
          | some limit => armReply s die num limit
          | none => takeReply s die num r.epoch
         furrow u die num = a.1 ∧ u.furrowReplies = s.furrowReplies ++ [(t, BitVec.ofNat 64 a.2)]) ∧
        (∀ d n, d < 9 → n < 128 → ¬ (d = die ∧ n = num) → furrow u d n = furrow s d n) ∧
        u.furrowQ = s.furrowQ.erase r ∧
        u = { s with furrowQ := u.furrowQ, furrows := u.furrows, furrowReplies := u.furrowReplies, counts := u.counts }) ∧
  (∀ (s : State) (t : Thr) (rd : Reg) (p : Thr × Word64), (thread s t).st = .waitFurrow rd →
    s.furrowReplies.find? (fun q => decide (q.1 = t)) = some p →
    ∃ s', exec (.furrowReplyArrival t) s = .next s' ∧ Wrote s s' t rd p.2 ∧ ReadyAt s' t (thread s t).pc ∧
      SameTillers s s' t ∧ SameThreads s s' t ∧
      s' = { s with tillers := s'.tillers, furrowReplies := s.furrowReplies.erase p }) ∧
  (∀ (s : State) (die num : Nat) (r : FurrowReq) (t : Thr) (rd : Reg), die < 9 → num < 128 →
    s.furrowQ.find? (fun q => decide (q.die = die ∧ q.num = num)) = some r → r.thr = some t → t.til.field.val = die →
    r.arm = none → (thread s t).st = .waitFurrow rd →
    ∃ s', exec (.furrowServe die num) s = .next s' ∧
      Wrote s s' t rd (BitVec.ofNat 64 (takeReply s die num r.epoch).2) ∧ ReadyAt s' t (thread s t).pc ∧
      furrow s' die num = (takeReply s die num r.epoch).1) ∧
  (∀ (s : State) (die num : Nat) (r : FurrowReq) (limit : Word32), die < 9 → num < 128 →
    s.furrowQ.find? (fun q => decide (q.die = die ∧ q.num = num)) = some r → r.thr = none → r.arm = some limit →
    ∃ s', exec (.furrowServe die num) s = .next s' ∧ furrow s' die num = (armReply s die num limit).1 ∧
      s'.furrowQ = s.furrowQ.erase r ∧ s'.furrowReplies = s.furrowReplies ∧ s'.tillers = s.tillers)

namespace Sys2Proof.Machine

/-- A semaphore name with no bit outside its fields (R137). -/
def nameOk (v : Nat) : Prop := v < 2 ^ 20 ∧ v / 64 % 4 = 0

end Sys2Proof.Machine

/-- SIG sends count cnt + 1 to the semaphore named by ra: the signal is in flight behind the thread's earlier tile
instructions, and the thread goes on. -/
def Obligations.SigSendsItsSignal : Prop :=
  ∀ (t : Thr) (ra : Reg) (cnt : BitVec 10) (s : State), CanRun s t [0, ra, 0] 4 → nameOk (reg (thread s t) ra).toNat →
    sigAllowed s (til s t.til).job (reg (thread s t) ra).toNat = true → urgentCount s t.til < 3 →
    ∃ s' word, exec (.sig t 0 ra 0 cnt) s = .next s' ∧
      s'.signals = s.signals ++ [⟨s.nextSignal, .thread t ((thread s t).pc.setWidth 32) word, (reg (thread s t) ra).toNat,
        cnt.toNat + 1, (til s t.til).nextId, (til s t.til).job⟩] ∧
      ReadyAt s' t ((thread s t).pc + 4) ∧ (∀ r, reg (thread s' t) r = reg (thread s t) r) ∧ SameTillers s s' t ∧
      SameThreads s s' t ∧
      { s' with signals := s.signals, nextSignal := s.nextSignal } =
        { s with tillers := s'.tillers, jobs := s'.jobs, counts := s'.counts } ∧ s'.nextSignal = s.nextSignal + 1

namespace Sys2Proof.Machine

/-- Every other semaphore, and everything else but Tillers, jobs and counts, is as before. -/
def OnlySem (s s' : State) (name : Nat) : Prop :=
  (∀ n, n ≠ name → sem s' n = sem s n) ∧
  s' = { s with tillers := s'.tillers, jobs := s'.jobs, counts := s'.counts, sems := s'.sems }

end Sys2Proof.Machine

/-- WAIT on a semaphore of the thread's own Tiller takes its count at once where no waiter waits and the semaphore covers it,
and otherwise waits behind those that began before; TRYWAIT never waits and tells in rd whether it took the count. -/
def Obligations.WaitAndTrywaitTakeTheirCount : Prop :=
  ∀ (t : Thr) (rd ra : Reg) (cnt : BitVec 10) (s : State) (name : Nat), name = (reg (thread s t) ra).toNat → nameOk name →
    semTil name = some (tilKey t.til) →
    (CanRun s t [0, ra, 0] 4 → ∃ s', exec (.wait t 0 ra 0 cnt) s = .next s' ∧
      (thread s' t).pc = (thread s t).pc + 4 ∧ OnlySem s s' name ∧ SameTillers s s' t ∧ SameThreads s s' t ∧
      (∀ r, reg (thread s' t) r = reg (thread s t) r) ∧
      if (sem s name).waiters = [] ∧ cnt.toNat + 1 ≤ (sem s name).count then
        (thread s' t).st = .ready ∧ sem s' name = { sem s name with count := (sem s name).count - (cnt.toNat + 1) }
      else
        (thread s' t).st = .waitSem name (cnt.toNat + 1) (tcNow s t.til.field.val) ∧
        sem s' name = { sem s name with waiters := (sem s name).waiters ++ [.thread t (cnt.toNat + 1)] }) ∧
    (CanRun s t [rd, ra, 0] 4 → ∃ s', exec (.trywait t rd ra 0 cnt) s = .next s' ∧ ReadyAt s' t ((thread s t).pc + 4) ∧
      OnlySem s s' name ∧ SameTillers s s' t ∧ SameThreads s s' t ∧
      if (sem s name).waiters = [] ∧ cnt.toNat + 1 ≤ (sem s name).count then
        Wrote s s' t rd 1 ∧ sem s' name = { sem s name with count := (sem s name).count - (cnt.toNat + 1) }
      else Wrote s s' t rd 0 ∧ sem s' name = sem s name)

/-- SIGNAL_ARRIVAL adds a signal's count to a Tiller's semaphore; a signal leaves flight only once the thread's earlier tile
instructions are complete, and urgent signals that waited for its place may go; an addition beyond 65 535 leaves the
semaphore at 65 535 and is counted. WAITER_SERVED gives the oldest waiting thread its count as soon as the semaphore covers
it, and wakes it; while the semaphore does not cover the oldest waiter, nobody is served. -/
def Obligations.SignalsArriveAndTheOldestWaiterIsServed : Prop :=
  (∀ (s : State) (id : Nat) (g : Signal), s.signals.find? (fun o => decide (o.id = id)) = some g → g.sem / 65536 ≠ 8 →
    (sendable s g = false → exec (.signalArrival id) s = .next s) ∧
    (sendable s g = true → (sem s g.sem).count + g.count ≤ 65535 →
      ∃ s', exec (.signalArrival id) s = .next s' ∧
        sem s' g.sem = { sem s g.sem with count := (sem s g.sem).count + g.count } ∧ (∀ n, n ≠ g.sem → sem s' n = sem s n) ∧
        s' = { releaseSignals { s with signals := s.signals.filter (fun o => decide (o.id ≠ id)) } with sems := s'.sems }) ∧
    (sendable s g = true → 65535 < (sem s g.sem).count + g.count → g.src = .host →
      slotOf s g.job = none →
      ∃ s', exec (.signalArrival id) s = .next s' ∧ (sem s' g.sem).count = 65535 ∧
        count s' 0xA210 6 = count s 0xA210 6 + 1)) ∧
  (∀ (s : State) (name n since : Nat) (t : Thr) (rest : List Waiter), (sem s name).waiters = .thread t n :: rest →
    ((sem s name).count < n → exec (.waiterServed name) s = .next s) ∧
    (n ≤ (sem s name).count → (thread s t).st = .waitSem name n since →
      ∃ s', exec (.waiterServed name) s = .next s' ∧
        sem s' name = { sem s name with count := (sem s name).count - n, waiters := rest } ∧
        (∀ m, m ≠ name → sem s' m = sem s m) ∧ ReadyAt s' t (thread s t).pc ∧
        (∀ r, reg (thread s' t) r = reg (thread s t) r) ∧ SameTillers s s' t ∧ SameThreads s s' t ∧
        s' = { s with tillers := s'.tillers, counts := s'.counts, sems := s'.sems, longest := s'.longest }))

namespace Sys2Proof.Machine

/-! ## Tile instructions -/

/-- A tile word of this opcode can issue from the thread: the thread can run at a 16-byte-aligned pc, the word is a tile
instruction of the opcode, and R105 leaves room for one more. -/
def TileReady (s : State) (t : Thr) (w : Word128) (op : Nat) (regs : List Reg) : Prop :=
  CanRun s t regs 16 ∧ bits w 31 27 = 0x1F ∧ bits w 26 22 = op ∧ tileRoom (til s t.til) t.n.val = true

/-- The instruction is accepted (R105, R123): it is in flight, queued, behind those issued before, with the Hopper ranges it
reads and writes; the thread is past its four words; no register, byte of Hopper or other thread has changed. -/
def Accepted (s s' : State) (t : Thr) (w : Word128) (op : TileOp) (reads writes : List (Nat × Nat)) : Prop :=
  (til s' t.til).flights = (til s t.til).flights ++
    [⟨(til s t.til).nextId, t.n.val, (thread s t).pc.setWidth 32, w, op, reads, writes, .queued, tcNow s t.til.field.val⟩] ∧
  (til s' t.til).nextId = (til s t.til).nextId + 1 ∧ ReadyAt s' t ((thread s t).pc + 16) ∧
  (∀ r, reg (thread s' t) r = reg (thread s t) r) ∧ SameThreads s s' t ∧ (til s' t.til).hopper = (til s t.til).hopper ∧
  (∀ id, id ≠ tilKey t.til → tilAt s' id = tilAt s id) ∧ SameModule s s'

/-- The operands of a Blade instruction are in order: source a, source b with its rows where there is one, and the
destination lie aligned in the Hopper, no earlier instruction of the thread still writes a source's header, and the headers pass
for rows × cols (R114, R123, R216, R219). -/
def BladeFits (s : State) (t : Thr) (sa : Nat) (sb : Option (Nat × Nat)) (rows cols dst len : Nat) : Prop :=
  addrCheck dst = none ∧ regionCheck dst len = none ∧ addrCheck sa = none ∧
  tileCheck (til s t.til) sa 0 rows cols anyFmt = none ∧
  (∀ b ∈ sb, addrCheck b.1 = none ∧ tileCheck (til s t.til) b.1 0 b.2 cols anyFmt = none) ∧
  hazard (til s t.til) t.n.val ((sa, 64) :: sb.toList.map (fun b => (b.1, 64))) [] = false

/-- Rows and columns of a Blade word: immediates, or the fields of its extent register (R119). -/
def bladeRows (s : State) (t : Thr) (w : Word128) : Nat := natAt (bladeExtents (thread s t) w).2 0 + 1
def bladeCols (s : State) (t : Thr) (w : Word128) : Nat := natAt (bladeExtents (thread s t) w).2 1 + 1
def bladeA (s : State) (t : Thr) (w : Word128) : Nat := addrOf (thread s t) (bits w 127 106)
def bladeB (s : State) (t : Thr) (w : Word128) : Nat := addrOf (thread s t) (bits w 105 84)
def bladeDst (s : State) (t : Thr) (w : Word128) : Nat := addrOf (thread s t) (bits w 83 62)
def bladeScalar (s : State) (t : Thr) (w : Word128) : Word32 := lo32 (reg (thread s t) (regField w 38 34))

/-- The rows of BELT with their function codes (Table 04-12), and of BROW. -/
def beltRowsOfTable : List ((Thr → Word128 → Instr) × BeltFn × Nat) :=
  [(.beltCopy, .copy, 0), (.beltAdd, .add, 1), (.beltSub, .sub, 2), (.beltMul, .mul, 3), (.beltMax, .max, 4),
   (.beltMin, .min, 5), (.axpy, .axpy, 6), (.scale, .scale, 7), (.exp, .exp, 8), (.log, .log, 9), (.recip, .recip, 10),
   (.rsqrt, .rsqrt, 11), (.tanh, .tanh, 12), (.sigmoid, .sigmoid, 13), (.silu, .silu, 14), (.gelu, .gelu, 15),
   (.relu, .relu, 16), (.swiglu, .swiglu, 17), (.select, .select, 18)]

def browRowsOfTable : List ((Thr → Word128 → Instr) × BrowFn × Nat) :=
  [(.browSum, .sum, 0), (.browMax, .max, 1), (.softmax, .softmax, 2), (.lse, .lse, 3), (.rmsnorm, .rmsnorm, 4),
   (.layernorm, .layernorm, 5), (.topk, .topk, 6)]

end Sys2Proof.Machine

/-- Every BELT and BROW function is accepted with its operands as they stand at issue, wherever its word sets no reserved
bit, its operands are in order, and, for TOPK, a row has room for k indices and k values. -/
def Obligations.BladeFunctionsAreAccepted : Prop :=
  (∀ p ∈ beltRowsOfTable, ∀ (t : Thr) (w : Word128) (s : State), TileReady s t w 0x08 (bladeRegs w) →
    bits w 61 56 = p.2.2 → bladeDecode w true (beltHasB p.2.1) false = none → (bladeExtents (thread s t) w).1 = none →
    BladeFits s t (bladeA s t w) (if beltHasB p.2.1 then some (bladeB s t w, bladeRows s t w) else none)
      (bladeRows s t w) (bladeCols s t w) (bladeDst s t w) (outSize 0 (bladeRows s t w) (bladeCols s t w)) →
    ∃ s', exec (p.1 t w) s = .next s' ∧
      Accepted s s' t w (.belt p.2.1 (bladeA s t w) (bladeB s t w) (bladeDst s t w) (bladeRows s t w) (bladeCols s t w)
          (bladeScalar s t w))
        (tileRange (til s t.til) (bladeA s t w) ::
          (if beltHasB p.2.1 then [tileRange (til s t.til) (bladeB s t w)] else []))
        [(bladeDst s t w, outSize 0 (bladeRows s t w) (bladeCols s t w))]) ∧
  (∀ p ∈ browRowsOfTable, ∀ (t : Thr) (w : Word128) (s : State), TileReady s t w 0x09 (bladeRegs w) →
    bits w 61 56 = p.2.2 → bladeDecode w true (browHasB p.2.1) (p.2.1 == .topk) = none →
    (bladeExtents (thread s t) w).1 = none → (p.2.1 = .topk → 2 * (bits w 16 12 + 1) ≤ bladeCols s t w) →
    BladeFits s t (bladeA s t w) (if browHasB p.2.1 then some (bladeB s t w, 1) else none)
      (bladeRows s t w) (bladeCols s t w) (bladeDst s t w) (outSize 0 (bladeRows s t w) (bladeCols s t w)) →
    ∃ s', exec (p.1 t w) s = .next s' ∧
      Accepted s s' t w (.brow p.2.1 (bladeA s t w) (bladeB s t w) (bladeDst s t w) (bladeRows s t w) (bladeCols s t w)
          (bits w 16 12 + 1) (bladeScalar s t w))
        (tileRange (til s t.til) (bladeA s t w) ::
          (if browHasB p.2.1 then [tileRange (til s t.til) (bladeB s t w)] else []))
        [(bladeDst s t w, outSize 0 (bladeRows s t w) (bladeCols s t w))])

namespace Sys2Proof.Machine

/-- The extents of a BCVT word, and the conversion it asks for. -/
def bcvtExtents (s : State) (t : Thr) (w : Word128) : Check × List Nat :=
  extents (thread s t) (regField w 83 79) [(bits w 62 56, 0, 7), (bits w 55 46, 7, 10)]

def bcvtConv (s : State) (t : Thr) (w : Word128) : Conv :=
  ⟨bits w 45 42, bits w 41 38, bits w 37 36, sext (bits w 21 14) 8, lo32 (reg (thread s t) (regField w 13 9)), bits w 78 63⟩

end Sys2Proof.Machine

/-- BCVT and the five BCONV operations are accepted: BCVT with the 64 × ROOM bytes that its destination may use, a BCONV as
the operation that its descriptor in the Hopper names. -/
def Obligations.ConversionsAndConvolutionsAreAccepted : Prop :=
  (∀ (t : Thr) (w : Word128) (s : State) (rows cols : Nat),
    TileReady s t w 0x0A [regField w 127 123, regField w 105 101, regField w 83 79, regField w 13 9, regField w 8 4] →
    bcvtDecode w = none → (bcvtExtents s t w).1 = none → rows = natAt (bcvtExtents s t w).2 0 + 1 →
    cols = natAt (bcvtExtents s t w).2 1 + 1 → outSize (bits w 45 42) rows cols ≤ 64 * bits w 78 63 →
    BladeFits s t (bladeA s t w) none rows cols (bladeB s t w) (64 * bits w 78 63) →
    ∃ s', exec (.bcvt t w) s = .next s' ∧
      Accepted s s' t w (.bcvt (bladeA s t w) (bladeB s t w) rows cols (bcvtConv s t w) (regField w 8 4))
        [tileRange (til s t.til) (bladeA s t w)] [(bladeB s t w, 64 * bits w 78 63)]) ∧
  (∀ p ∈ ([(.depthwiseConvolution, 0), (.groupedConvolution, 1), (.maxPooling, 2), (.averagePooling, 3),
      (.argmaxOverChannels, 4)] : List ((Thr → Word128 → Instr) × Nat)),
    ∀ (t : Thr) (w : Word128) (s : State) (rows len : Nat),
      TileReady s t w 0x0B [regField w 127 123, regField w 105 101, regField w 83 79] →
      onlyBits w.toNat [(127, 106), (105, 84), (83, 62), (55, 49), (31, 22)] = true →
      addrCheck (bladeA s t w) = none → addrCheck (bladeB s t w) = none → addrCheck (bladeDst s t w) = none →
      rows = bits w 55 49 + 1 → (convDesc (til s t.til) (bladeA s t w)).op = p.2 →
      convEarly (til s t.til) (bladeA s t w) (bladeDst s t w) rows = none →
      convOperands (til s t.til) (convDesc (til s t.til) (bladeA s t w)) (bladeB s t w) rows = none →
      len = outSize 0 rows (convDesc (til s t.til) (bladeA s t w)).outCols →
      hazard (til s t.til) t.n.val [(bladeA s t w, 64)] [] = false →
      hazard (til s t.til) t.n.val ((bladeB s t w, 64) ::
        (if p.2 < 2 then [((convDesc (til s t.til) (bladeA s t w)).wa, 64)] else [])) [] = false →
      ∃ s', exec (p.1 t w) s = .next s' ∧
        Accepted s s' t w (.bconv (bladeA s t w) (bladeB s t w) (bladeDst s t w) rows)
          (convReads (til s t.til) (bladeA s t w) (bladeB s t w)) [(bladeDst s t w, len)])

namespace Sys2Proof.Machine

/-- The instruction has reached its Drill's queue too; a gated Drill now waits for its start grant (R396). -/
def AtDrill (s s' : State) (t : Thr) : Prop :=
  (til s' t.til).drillQueue = (til s t.til).drillQueue ++ [(til s t.til).nextId] ∧
  ((til s t.til).gate = .gated → (til s' t.til).gate = .waitGrant (tcNow s t.til.field.val)) ∧
  ((til s t.til).gate = .running → (til s' t.til).gate = .running)

end Sys2Proof.Machine

/-- MMA, ATTF and ATTB are accepted and reach the Drill's queue where the Drill has room, their operands and Sheaves pass
their checks, and no earlier instruction of the thread still writes a header or descriptor read at issue. -/
def Obligations.DrillInstructionsAreAccepted : Prop :=
  (∀ (t : Thr) (w : Word128) (s : State) (a : MmaWord),
    TileReady s t w 0x00 [regField w 127 123, regField w 105 101, regField w 83 79, regField w 43 39] →
    mmaDecode w = none → a = mmaWord (thread s t) w → mmaEarly (til s t.til) t.n.val a = none → drillRoom s t = true →
    mmaOperands (til s t.til) a = none → hazard (til s t.til) t.n.val [(a.wt, 64), (a.act, 64)] [] = false →
    ∃ s', exec (.mma t w) s = .next s' ∧
      Accepted s s' t w (.mma a.wt a.act a.m a.n a.k a.sh a.hold a.key)
        [tileRange (til s t.til) a.wt, tileRange (til s t.til) a.act] [] ∧ AtDrill s s' t) ∧
  (∀ p ∈ ([(.attf, false), (.attb, true)] : List ((Thr → Word128 → Instr) × Bool)),
    ∀ (t : Thr) (w : Word128) (s : State) (a : AttWord),
      TileReady s t w (if p.2 then 0x02 else 0x01) [regField w 127 123, regField w 105 101, regField w 100 96] →
      onlyBits w.toNat (attBits p.2) = true → a = attWord (thread s t) w → attEarly p.2 (til s t.til) t.n.val a = none →
      drillRoom s t = true → attDescCheck (til s t.til) a.ds a.q a.v p.2 = none →
      firstOf ((attRoles (attDesc (til s t.til) a.ds) a.q a.v p.2).map (roleCheck (til s t.til) a.dim)) = none →
      hazard (til s t.til) t.n.val [(a.ds, 64)] [] = false →
      hazard (til s t.til) t.n.val ((attRoles (attDesc (til s t.til) a.ds) a.q a.v p.2).map (fun r => (r.addr, 64))) [] =
        false →
      (p.2 = false → mayFinalize (til s t.til) a.s2 = false ∧ finalizedRow (til s t.til) a.s2 a.q = false) →
      ∃ s', exec (p.1 t w) s = .next s' ∧
        Accepted s s' t w (attOp p.2 a) (attReads p.2 (til s t.til) a)
          [((attDesc (til s t.til) a.ds).scr, scratchBytes)] ∧ AtDrill s s' t)

namespace Sys2Proof.Machine

/-- The other Sheaves of the Tiller are as before. -/
def SameSheaves (s s' : State) (t : Tid) (sh : Nat) : Prop :=
  ∀ k, k ≠ sh → sheafOf (til s' t) k = sheafOf (til s t) k

end Sys2Proof.Machine

/-- SOPEN opens a Sheaf that is not open, for its thread: zeroed at once, or loaded from a tile that the load waits for.
SPASS hands an open Sheaf of the thread to another thread. SHEAF_DISCARD closes it and frees it when it completes. -/
def Obligations.SheafOpenPassAndDiscard : Prop :=
  (∀ (t : Thr) (w : Word128) (s : State), TileReady s t w 0x04 [regField w 127 123] → sopenDecode w = none →
    sheafOf (til s t.til) (bits w 47 45) = none →
    (bits w 42 41 = 0 → ∃ s', exec (.sopen t w) s = .next s' ∧
      sheafOf (til s' t.til) (bits w 47 45) = some ⟨sopenMode (bits w 44 43), t.n.val, [], false⟩ ∧
      SameSheaves s s' t.til (bits w 47 45) ∧ ReadyAt s' t ((thread s t).pc + 16) ∧
      (til s' t.til).flights = (til s t.til).flights ∧ (∀ r, reg (thread s' t) r = reg (thread s t) r) ∧
      SameThreads s s' t ∧ (til s' t.til).hopper = (til s t.til).hopper ∧ SameModule s s') ∧
    (∀ a, bits w 42 41 ≠ 0 → a = addrOf (thread s t) (bits w 127 106) → addrCheck a = none →
      bits w 54 48 + 1 ≤ modeRows (sopenMode (bits w 44 43)) → drainRoom (til s t.til) = true →
      loadCheck (til s t.til) a (bits w 54 48 + 1) (bits w 42 41) = none →
      hazard (til s t.til) t.n.val [(a, 64)] [] = false →
      ∃ s', exec (.sopen t w) s = .next s' ∧
        Accepted s s' t w (.sload a (bits w 54 48 + 1) (bits w 47 45) (bits w 42 41)) [tileRange (til s t.til) a] [] ∧
        sheafOf (til s' t.til) (bits w 47 45) = some ⟨sopenMode (bits w 44 43), t.n.val, [], false⟩ ∧
        SameSheaves s s' t.til (bits w 47 45))) ∧
  (∀ (t : Thr) (w : Word128) (s : State) (x : Sheaf), TileReady s t w 0x06 [] → spassDecode w = none →
    sheafOf (til s t.til) (bits w 47 45) = some x → x.owner = t.n.val → x.closing = false →
    (bits w 44 43 = 0 → ∃ s', exec (.spass t w) s = .next s' ∧
      sheafOf (til s' t.til) (bits w 47 45) = some { x with owner := bits w 42 40 } ∧
      SameSheaves s s' t.til (bits w 47 45) ∧ ReadyAt s' t ((thread s t).pc + 16) ∧
      (til s' t.til).flights = (til s t.til).flights ∧ SameThreads s s' t ∧ SameModule s s') ∧
    (bits w 44 43 = 1 → ∃ s', exec (.sheafDiscard t w) s = .next s' ∧
      Accepted s s' t w (.discard (bits w 47 45)) [] [] ∧
      sheafOf (til s' t.til) (bits w 47 45) = some { x with closing := true } ∧ SameSheaves s s' t.til (bits w 47 45)))

/-- An instruction into a Sheaf that is not open, is closing, or belongs to another thread is refused with reason 0x06: an
open of an open Sheaf too (R91). The refusal is counted in `OD A200:09` and not in `OD A210:01`. A tile word
with a bit set that its table assigns to nothing is refused with reason 0x02. A refusal of any other reason is counted in
`OD A210:01` alone, and whatever the reason the thread that issued the instruction stops. -/
def Obligations.BadTileWordsAndSheavesAreRefused : Prop :=
  ∀ (t : Thr) (w : Word128) (s : State),
    (TileReady s t w 0x06 [] → spassDecode w = none → bits w 44 43 = 0 → ownCheck (til s t.til) t.n.val (bits w 47 45) ≠ none →
      exec (.spass t w) s = .next (refuseTile s t w 0x06)) ∧
    (TileReady s t w 0x04 [regField w 127 123] → sopenDecode w = none →
      (∃ x, sheafOf (til s t.til) (bits w 47 45) = some x ∧ x.closing = false) →
      exec (.sopen t w) s = .next (refuseTile s t w 0x06)) ∧
    (∀ sh, (ownCheck (til s t.til) t.n.val sh = none ↔
      ∃ x, sheafOf (til s t.til) sh = some x ∧ x.owner = t.n.val ∧ x.closing = false)) ∧
    (∀ reason, count (refuseTile s t w reason) 0xA200 9 = count s 0xA200 9 + (if reason = 0x06 then 1 else 0) ∧
      count (refuseTile s t w reason) 0xA210 1 = count s 0xA210 1 + (if reason = 0x06 then 0 else 1) ∧
      ((thread s t).st = .ready → (thread (refuseTile s t w reason) t).st = .stopped)) ∧
    (TileReady s t w 0x00 [regField w 127 123, regField w 105 101, regField w 83 79, regField w 43 39] →
      bits w 38 32 ≠ 0 → exec (.mma t w) s = .next (refuseTile s t w 0x02)) ∧
    (TileReady s t w 0x06 [] → bits w 127 48 ≠ 0 → bits w 44 43 = 0 → exec (.spass t w) s = .next (refuseTile s t w 0x02)) ∧
    (TileReady s t w 0x06 [] → bits w 127 48 ≠ 0 → bits w 44 43 = 1 →
      exec (.sheafDiscard t w) s = .next (refuseTile s t w 0x02))

/-- SDRAIN is accepted with the bytes it may use held; one that closes its Sheaf lets no later instruction into it.
DRAIN_READ_START starts a queued drain once every earlier addition has landed and its thread's earlier instructions are done with
its lines; a converting one takes the staging buffer. DRAIN_COMPLETE of an unconverted drain writes rows 0 to M - 1 as FP32, or as
(s, e) pairs; that of a converting one writes the tile that the conversion of those rows makes, and gives the staging buffer up; a
closing drain of a job that runs frees the Sheaf. -/
def Obligations.DrainsWriteTheSheaf : Prop :=
  (∀ (t : Thr) (w : Word128) (s : State) (d : DrainWord),
    TileReady s t w 0x05 [regField w 127 123, regField w 105 101, regField w 84 80] → sdrainDecode w = none →
    d = drainWord (thread s t) w → sdrainCheck (til s t.til) t.n.val d = none → drainRoom (til s t.til) = true →
    ∃ s', exec (.sdrain t w) s = .next s' ∧
      Accepted s s' t w (.sdrain d.dst d.m d.n d.sh d.out d.close d.cv) [] [(d.dst, d.room)] ∧
      (∀ x, sheafOf (til s t.til) d.sh = some x →
        sheafOf (til s' t.til) d.sh = some (if d.close then { x with closing := true } else x)) ∧
      SameSheaves s s' t.til d.sh) ∧
  (∀ (s : State) (t : Tid) (id : Nat) (f : InFlight) (dst m n sh out : Nat) (close : Bool) (cv : Conv),
    flight (til s t) id = some f → f.op = .sdrain dst m n sh out close cv → tcOn s = true →
    (f.stage = .queued → lineClear (til s t) f = true → (if close then earlierLanded (til s t) id sh else earlierAdded (til s t) id sh) = true →
      (out = 1 → (til s t).staging = none) →
      ∃ s', exec (.drainReadStart t id) s = .next s' ∧
        (til s' t).flights = (til s t).flights.map (fun g => if g.id = id then { g with stage := .running } else g) ∧
        (out = 1 → (til s' t).staging = some id) ∧ (til s' t).sheaves = (til s t).sheaves ∧
        count s' 0xA200 3 = count s 0xA200 3 + (tcNow s t.field.val - f.since)) ∧
    (∀ x, f.stage = .running → sheafOf (til s t) sh = some x → out ≠ 1 →
      ∃ s', exec (.drainComplete t id) s = .next s' ∧ flight (til s' t) id = none ∧
        (til s' t).hopper = (writeF32 (til s t) dst (drainWords x m n out) (if out = 2 then 2 * n else n)).hopper ∧
        ((jobOf s (til s t).job).st = 2 → sheafOf (til s' t) sh = (if close then none else some x)) ∧
        (∀ i, i ≠ tilKey t → tilAt s' i = tilAt s i)) ∧
    (∀ x c, f.stage = .running → sheafOf (til s t) sh = some x → out = 1 →
      c = convertOp s (some (tilKey t)) (til s t).job cv ((drainWords x m n out).map (fun r => r.map val32)) n (64 * cv.room) 0 →
      ∃ s', exec (.drainComplete t id) s = .next s' ∧ flight (til s' t) id = none ∧ (til s' t).staging ≠ some id ∧
        (til s' t).hopper = (writeConverted (til c.state t) dst cv c.out m n c.esc).hopper ∧
        ((jobOf s (til s t).job).st = 2 → close = true → sheafOf (til s' t) sh = none)))

/-- BLADE_INSTRUCTION_START: a free Blade takes its oldest queued instruction that is the next of its thread and whose lines no
earlier instruction of the thread holds. TILE_INSTRUCTION_COMPLETE of a running BELT
writes its function of every element, and frees the Blade. -/
def Obligations.BladeRunsInOrderAndWritesItsResult : Prop :=
  (∀ (s : State) (t : Tid) (f : InFlight), (til s t).blade = none → tcOn s = true →
    (til s t).flights.find? (fun g => bladeWaits g && lineClear (til s t) g &&
      (til s t).flights.all (fun k => !(bladeWaits k && decide (k.thread = g.thread ∧ k.id < g.id)))) = some f →
    ∃ s', exec (.bladeInstructionStart t) s = .next s' ∧ (til s' t).blade = some f.id ∧
      (til s' t).flights = (til s t).flights.map (fun g => if g.id = f.id then { g with stage := .running } else g) ∧
      (til s' t).hopper = (til s t).hopper ∧ (∀ i, i ≠ tilKey t → tilAt s' i = tilAt s i) ∧
      s' = { s with tillers := s'.tillers }) ∧
  (∀ (s : State) (t : Tid) (id : Nat) (f : InFlight) (fn : BeltFn) (sa sb dst rows cols : Nat) (sc : Word32),
    flight (til s t) id = some f → f.op = .belt fn sa sb dst rows cols sc → f.stage = .running → tcOn s = true →
    ∃ s', exec (.tileInstructionComplete t id) s = .next s' ∧ flight (til s' t) id = none ∧
      ((til s t).blade = some id → (til s' t).blade = none) ∧
      (til s' t).hopper = (writeF32 (til s t) dst (beltRows fn
        ((widenSource s t sa rows cols).2) (if beltHasB fn then (widenSource s t sb rows cols).2 else []) sc) cols).hopper ∧
      (∀ i, i ≠ tilKey t → tilAt s' i = tilAt s i))

namespace Sys2Proof.Machine

/-- Whether a drill's next group can land: its clock runs, the group's buffer is READY and no drain still reads the Sheaf (R79,
R98). -/
def CanLand (s : State) (t : Tid) (d : DrillExec) (wt n k sh : Nat) : Prop :=
  tcOn s = true ∧ readyFor (til s t) wt (Hdr.parse d.wh).fmt n k (drillWidth (til s t)) d.pass d.group = true ∧
  mayAdd (til s t) d.id sh = true

/-- An addition to one entry in its Sheaf's mode (R92 to R94). -/
def addedEntry (x : Sheaf) (c : Word32 × Word32) (p : FV) (draw : Nat) : Word32 × Word32 :=
  match x.mode with
  | .ec => ((addEc c.1 c.2 p).s, (addEc c.1 c.2 p).e)
  | .plain => ((addPlain c.1 p).s, (addPlain c.1 p).e)
  | .sr => ((addSr c.1 p draw).s, (addSr c.1 p draw).e)

end Sys2Proof.Machine

/-- A plain entry becomes rn32(s + p); an EC entry takes the residual of that rounding into e. PARTIAL_LANDS adds the partial
of the Drill's present group into the present row of the Sheaf, entry by entry over the
columns of the pass, touches no other row or Sheaf, and goes on to the next row; where the clock is stopped, the group's buffer is
not READY or a drain still reads the Sheaf, nothing lands. -/
def Obligations.PartialsLandRowByRow : Prop :=
  (∀ (c e : Word32) (p x : FV) (neg : Bool) (m : Nat) (ex : Int), x = (val32 c).add p → x = .fin neg m ex → over32 x = false →
    (addPlain c p).s = rn32 x ∧ (addEc c e p).s = rn32 x ∧
    (addEc c e p).e = rn32 ((val32 e).add (x.sub (val32 (rn32 x))))) ∧
  ∀ (s : State) (t : Tid) (d : DrillExec) (wt act m n k sh : Nat) (hold : Bool) (key : Word32),
    (til s t).drill = some d → flightOp (til s t) d.id = some (.mma wt act m n k sh hold key) →
    (¬ CanLand s t d wt n k sh → exec (.partialLands t) s = .next s) ∧
    (∀ x, CanLand s t d wt n k sh → pairClass (Hdr.parse d.wh).fmt (Hdr.parse d.ah).fmt ≠ 0 → d.row + 1 < m → d.row < 256 →
      sheafOf (til s t) sh = some x → x.mode ≠ .sr →
      ∃ s' x', exec (.partialLands t) s = .next s' ∧ sheafOf (til s' t) sh = some x' ∧
        (let w := drillWidth (til s t)
         let wh := Hdr.parse d.wh
         let ah := Hdr.parse d.ah
         let sp := spanAt wh.fmt k n w (d.pass * spansPerPass wh.fmt k + d.group / groupsPerBuf wh.fmt)
         let b := if bufHas (til s t).bufA wt wh.fmt d.group sp.col0 sp.ncols then (til s t).bufA else (til s t).bufB
         (∀ c, c < sp.ncols → sp.col0 + c < 256 → cell x' d.row (sp.col0 + c) =
           addedEntry x (cell x d.row (sp.col0 + c)) (groupPartial wh ah
             (readGroup (stashRd b) wt wh (sp.col0 + c) d.group) (readGroup (hop (til s t)) act ah d.row d.group)
             (min 32 (k - 32 * d.group))) 0) ∧
         (∀ r c, r ≠ d.row → c < 256 → sp.col0 + sp.ncols ≤ 256 → cell x' r c = cell x r c)) ∧
        x'.mode = x.mode ∧ x'.owner = x.owner ∧ SameSheaves s s' t sh ∧
        (til s' t).drill = some { d with row := d.row + 1 } ∧ (til s' t).hopper = (til s t).hopper ∧
        (∀ i, i ≠ tilKey t → tilAt s' i = tilAt s i))

namespace Sys2Proof.Machine

/-- No Stash buffer has been filled ahead for this instruction (R85). -/
def NotAhead (y : Tiller) (id : Nat) : Prop := y.bufA.ahead ≠ some id ∧ y.bufB.ahead ≠ some id

/-- Everything but Tiller t is as before, and of Tiller t the Hopper and the Sheaves. -/
def OnlyDrill (s s' : State) (t : Tid) : Prop :=
  (til s' t).hopper = (til s t).hopper ∧ (til s' t).sheaves = (til s t).sheaves ∧ ∀ i, i ≠ tilKey t → tilAt s' i = tilAt s i

end Sys2Proof.Machine

/-- DRILL_INSTRUCTION_START: an idle Drill whose clock runs takes the oldest instruction of its queue once its thread's earlier
instructions are done with its lines: an MMA at pass, group and row 0, with the tile headers as they stand, stalled where no
buffer was filled for it ahead; an ATTF or ATTB with a free Blade, its weight spans still to come through the
Stash; an ATTF whose keys are all masked, without FIN, passes the Drill by. FILL_LINE_REQUEST asks for the lines of the filling
buffer in order: one granted its bank leaves the wanted lines and its four entries stand in their lanes' queues; one whose bank
is granted to another stays wanted and is counted; the units that the codes correct in that tc are counted. STASH_BUFFER_READY makes READY every filling buffer that wants no more line,
and a Drill that waited for it goes on, its stall counted. -/
def Obligations.DrillStartsAndFillsItsStash : Prop :=
  (∀ (s : State) (t : Tid) (id : Nat) (rest : List Nat) (f : InFlight) (op : TileOp), tcOn s = true →
    (til s t).drill = none → (til s t).drillQueue = id :: rest → (til s t).gate = .running → flight (til s t) id = some f →
    f.op = op → lineClear (til s t) f = true →
    (∀ wt act m n k sh hold key, op = .mma wt act m n k sh hold key →
      ∃ s' d, exec (.drillInstructionStart t) s = .next s' ∧ (til s' t).drill = some d ∧ d.id = id ∧ d.pass = 0 ∧
        d.group = 0 ∧ d.row = 0 ∧ d.wh = hdrBytes (til s t) wt ∧ d.ah = hdrBytes (til s t) act ∧
        (hold = false → NotAhead (til s t) id → d.stallSince = some (tcNow s t.field.val)) ∧
        (til s' t).drillQueue = rest ∧ OnlyDrill s s' t) ∧
    (∀ ds pr key q v mask dim s1 s2, op = .attf ds pr key q v mask dim s1 s2 → (til s t).blade = none → NotAhead (til s t) id →
      (whollyMasked (til s t) ds pr q v mask = true → (attDesc (til s t) ds).fin = true) →
      ∃ s' d, exec (.drillInstructionStart t) s = .next s' ∧ (til s' t).drill = some d ∧ d.id = id ∧
        d.spans = (if whollyMasked (til s t) ds pr q v mask then []
          else attFills (attDesc (til s t) ds) q v dim (drillWidth (til s t)) false) ∧
        (til s' t).blade = some id ∧ (til s' t).drillQueue = rest ∧ OnlyDrill s s' t) ∧
    (∀ ds pr key q v mask dim s1 s2, op = .attf ds pr key q v mask dim s1 s2 → (attDesc (til s t) ds).fin = false →
      whollyMasked (til s t) ds pr q v mask = true →
      ∃ s', exec (.drillInstructionStart t) s = .next s' ∧ (til s' t).drill = none ∧
        (til s' t).blade = (til s t).blade ∧ (til s' t).drillQueue = rest ∧ OnlyDrill s s' t) ∧
    (∀ ds pr key q v mask dim s1 s2 s3, op = .attb ds pr key q v mask dim s1 s2 s3 → (til s t).blade = none →
      NotAhead (til s t) id →
      ∃ s' d, exec (.drillInstructionStart t) s = .next s' ∧ (til s' t).drill = some d ∧ d.id = id ∧
        d.spans = attFills (attDesc (til s t) ds) q v dim (drillWidth (til s t)) true ∧
        (til s' t).blade = some id ∧ (til s' t).drillQueue = rest ∧ OnlyDrill s s' t)) ∧
  (∀ (s : State) (t : Tid) (x : FillTcIn) (l : Nat) (rest : List Nat) (y : Tiller), tcOn s = true →
    y = moveHeads (armAhead (til s t)) → y.bufA.want = l :: rest → y.bufB.want = [] → feedRoom y y.bufA l = true →
    (x.rivals.any (fun r => decide (hopBank r.addr = hopBank (64 * l)) && beatsFill (kvGet 0 y.bufA.waits l) r) = false →
      ∃ s', exec (.fillLineRequest t x) s = .next s' ∧ l ∉ (til s' t).bufA.want ∧
        count s' 0x7880 5 = count s 0x7880 5 + x.corrected ∧
        (∀ k ∈ lineBlocks l, ({ toA := true, blk := k, bytes := hop (til s t) (16 * k) 16 } : FeedEntry) ∈
          kvGet [] (til s' t).feeders (blockLane y.bufA k)) ∧
        (til s' t).bufB = y.bufB ∧ OnlyDrill s s' t) ∧
    (x.rivals.any (fun r => decide (hopBank r.addr = hopBank (64 * l)) && beatsFill (kvGet 0 y.bufA.waits l) r) = true →
      rest = [] →
      ∃ s', exec (.fillLineRequest t x) s = .next s' ∧ (til s' t).bufA.want = [l] ∧
        kvGet 0 (til s' t).bufA.waits l = kvGet 0 y.bufA.waits l + 1 ∧ (til s' t).feeders = y.feeders ∧
        count s' 0xA200 7 = count s 0xA200 7 + 1 ∧ OnlyDrill s s' t)) ∧
  (∀ (s : State) (t : Tid) (y z : Tiller), tcOn s = true → y = iter moveHeads 16 (til s t) →
    z = { y with
      bufA := if y.bufA.st = .filling ∧ y.bufA.want = [] then { y.bufA with st := .ready } else y.bufA,
      bufB := if y.bufB.st = .filling ∧ y.bufB.want = [] then { y.bufB with st := .ready } else y.bufB } →
    (y.drill = none → ∃ s', exec (.stashBufferReady t) s = .next s' ∧ til s' t = z ∧ s' = { s with tillers := s'.tillers }) ∧
    (∀ d wt act m n k sh hold key since, y.drill = some d → d.stallSince = some since →
      flightOp y d.id = some (.mma wt act m n k sh hold key) →
      readyFor z wt (Hdr.parse d.wh).fmt n k (drillWidth y) d.pass d.group = true →
      ∃ s' d', exec (.stashBufferReady t) s = .next s' ∧ (til s' t).drill = some d' ∧ d'.stallSince = none ∧
        d'.pass = d.pass ∧ d'.group = d.group ∧ d'.row = d.row ∧
        count s' 0xA200 1 = count s 0xA200 1 + (tcNow s t.field.val - since) ∧ OnlyDrill s s' t))

namespace Sys2Proof.Machine

/-! ## Harrow streams -/

/-- Every other context of the Tiller, and every other Tiller, is as before. -/
def SameContexts (s s' : State) (c : CtxId) : Prop :=
  (∀ d : CtxId, d ≠ c → ctxAt s' d = ctxAt s d) ∧ ∀ id, id ≠ tilKey c.til → tilAt s' id = tilAt s id

/-- The seven kinds of stream with their MODE codes (Table 08-2). -/
def streamRows : List ((Thr → Word128 → Instr) × Nat) :=
  [(.linear, 0), (.indexed, 1), (.walk, 2), (.relayout, 3), (.send, 4), (.recv, 5), (.relay, 6)]

end Sys2Proof.Machine

/-- A STRM start opens its IDLE context with the 128-byte descriptor as it stands in the Hopper, whatever its mode: the
context is RUNNING for the thread's job, rebased by GR; the thread goes on. STRM stop leaves its context IDLE whatever it was
doing; where it was IDLE already nothing but the thread's pc moves. -/
def Obligations.StreamStartsAndStops : Prop :=
  (∀ p ∈ streamRows, ∀ (t : Thr) (w : Word128) (s : State) (ds gr : Nat) (desc : List Byte),
    TileReady s t w 0x0C [baseReg (bits w 127 106), regField w 43 39] → strmDecode w = none → bits w 38 37 = 0 →
    ds = addrOf (thread s t) (bits w 127 106) → addrCheck ds = none → regionCheck ds 128 = none →
    desc = hop (til s t.til) ds 128 → dget (leNat desc) dMODE = p.2 → gr = (reg (thread s t) (regField w 43 39)).toNat →
    hazard (til s t.til) t.n.val [(ds, 128)] [] = false → (ctxAt s (strmCtx t w)).st = .idle →
    descCheck s t (leNat desc) gr = none →
    ∃ s', exec (p.1 t w) s = .next s' ∧
      ctxAt s' (strmCtx t w) = { Ctx.reset with
        st := .running, desc := desc, base := (dget (leNat desc) dGB + gr) % 2 ^ 64, thread := t.n.val,
        job := (til s t.til).job } ∧
      SameContexts s s' (strmCtx t w) ∧ ReadyAt s' t ((thread s t).pc + 16) ∧
      (∀ r, reg (thread s' t) r = reg (thread s t) r) ∧ SameThreads s s' t ∧
      (til s' t.til).hopper = (til s t.til).hopper ∧ (til s' t.til).flights = (til s t.til).flights ∧
      count s' 0xA700 1 = count s 0xA700 1 + 1) ∧
  (∀ (t : Thr) (w : Word128) (s : State), TileReady s t w 0x0C [] → strmDecode w = none → bits w 38 37 = 1 →
    ((ctxAt s (strmCtx t w)).st ≠ .idle → ∃ s', exec (.strmStop t w) s = .next s' ∧ ctxAt s' (strmCtx t w) = Ctx.reset) ∧
    ((ctxAt s (strmCtx t w)).st = .idle → ∃ s', exec (.strmStop t w) s = .next s' ∧ ReadyAt s' t ((thread s t).pc + 16) ∧
      (∀ r, reg (thread s' t) r = reg (thread s t) r) ∧ ScalarFrame s s' t 0))

/-- STREAM_UF_TAKEN and STREAM_DE_TAKEN take one count at once where nobody waits before the stream and the semaphore holds
one, and queue for it otherwise, behind those that wait. -/
def Obligations.StreamsTakeTheirCountsInTurn : Prop :=
  ∀ (s : State) (c : CtxId) (x : Ctx), x = ctxAt s c → streamOn s c = true →
    (dflag x.d dUFE = true → x.ufQueued = false → exhausted x = false → x.uf = x.nextChunk →
      ∃ s', exec (.streamUfTaken c) s = .next s' ∧ SameContexts s s' c ∧ OnlySem s s' (dget x.d dUF) ∧
        if (sem s (dget x.d dUF)).waiters = [] ∧ 1 ≤ (sem s (dget x.d dUF)).count then
          ctxAt s' c = { x with uf := x.uf + 1 } ∧
          sem s' (dget x.d dUF) = { sem s (dget x.d dUF) with count := (sem s (dget x.d dUF)).count - 1 }
        else
          ctxAt s' c = { x with ufQueued := true } ∧
          sem s' (dget x.d dUF) = { sem s (dget x.d dUF) with
            waiters := (sem s (dget x.d dUF)).waiters ++ [.stream c false] }) ∧
    (dflag x.d dDEE = true → x.deQueued = false → wantsDe x = true → isRelay x = false →
      ∃ s', exec (.streamDeTaken c) s = .next s' ∧ SameContexts s s' c ∧ OnlySem s s' (dget x.d dDE) ∧
        if (sem s (dget x.d dDE)).waiters = [] ∧ 1 ≤ (sem s (dget x.d dDE)).count then
          ctxAt s' c = { x with de := x.de + 1 } ∧
          sem s' (dget x.d dDE) = { sem s (dget x.d dDE) with count := (sem s (dget x.d dDE)).count - 1 }
        else
          ctxAt s' c = { x with deQueued := true } ∧
          sem s' (dget x.d dDE) = { sem s (dget x.d dDE) with
            waiters := (sem s (dget x.d dDE)).waiters ++ [.stream c true] })

namespace Sys2Proof.Machine

/-- The elements of chunk k of a LINEAR stream: k × (CM1 + 1) and on, up to NE. -/
def chunkElems (x : Ctx) (k : Nat) : List Nat :=
  (upto (min (k * (dget x.d dCM1 + 1) + (dget x.d dCM1 + 1)) (dget x.d dNE) - k * (dget x.d dCM1 + 1))).map
    (fun i => k * (dget x.d dCM1 + 1) + i)

/-- The state that element i of chunk k is read in: the sectors of those before it have been taken (R208). -/
def elemsTaken (s : State) (c : CtxId) (x : Ctx) (k i : Nat) (read : Nat → List Byte) : State :=
  ((chunkElems x k).take i).foldl (fun s e =>
    jobEntered s x.job (srcTil c.til) (x.base + e * dget x.d dGSTR) (read e).length) s

end Sys2Proof.Machine

/-- STREAM_CHUNK_READ of a chunk that a LINEAR stream may begin reads every element of it: from the Hopper rows of the
chunk's slot for DIR 1, from the job addresses base + i × GSTR for DIR 0; each element is to go to the row or the address it
has on the other side. -/
def Obligations.LinearChunksAreReadElementByElement : Prop :=
  ∀ (s : State) (c : CtxId) (x : Ctx) (k : Nat), x = ctxAt s c → streamOn s c = true → dget x.d dMODE = 0 →
    dflag x.d dTILE = false → x.pinned = none → kvFind x.chunks k = none → mayBegin x k = true →
    (∀ e ∈ chunkElems x k, e < dget x.d dNROWS) → k * (dget x.d dCM1 + 1) < dget x.d dNE →
    (dflag x.d dDIR = true →
      ∃ s' ch, exec (.streamChunkRead c k) s = .next s' ∧ kvFind (ctxAt s' c).chunks k = some ch ∧
        ch.first = k * (dget x.d dCM1 + 1) ∧ ch.next = ch.stop ∧ ch.readDone = false ∧
        ch.stop = min (k * (dget x.d dCM1 + 1) + (dget x.d dCM1 + 1)) (dget x.d dNE) ∧
        ch.writes = (chunkElems x k).map (fun e =>
          (x.base + e * dget x.d dGSTR, hopWrap (til s c.til) (rowAddr x.d k (e - k * (dget x.d dCM1 + 1))) (elemBytes x.d))) ∧
        (ctxAt s' c).nextChunk = k + 1 ∧ SameContexts s s' c ∧ (til s' c.til).hopper = (til s c.til).hopper) ∧
    (∀ read : Nat → List Byte, dflag x.d dDIR = false → k = x.done →
      (∀ i e, (chunkElems x k)[i]? = some e →
        jobRead (elemsTaken s c x k i read) x.job (srcTil c.til) x.cache (x.base + e * dget x.d dGSTR) (elemBytes x.d) =
          .ok (read e)) →
      ∃ s' ch, exec (.streamChunkRead c k) s = .next s' ∧ kvFind (ctxAt s' c).chunks k = some ch ∧ ch.next = ch.stop ∧
        ch.writes = (chunkElems x k).map (fun e => (rowAddr x.d k (e - k * (dget x.d dCM1 + 1)), read e)) ∧
        (ctxAt s' c).nextChunk = k + 1 ∧ SameContexts s s' c)

namespace Sys2Proof.Machine

/-- Signals a stream sends: one count to the semaphore of a field, where its enable is set. -/
def signalled (s : State) (c : CtxId) (d : Nat) (en name : Nat × Nat) : List Signal :=
  if dflag d en then [⟨s.nextSignal, .stream c, dget d name, 1, 0, (ctxAt s c).job⟩] else []

/-- The signal is in flight, or waits where the Tiller has its three urgent messages in flight (R142). -/
def Signalled (s s' : State) (c : CtxId) (d : Nat) (en name : Nat × Nat) : Prop :=
  if urgentFull s (.stream c) then s'.signals = s.signals ∧ s'.urgentWait = s.urgentWait ++ signalled s c d en name
  else s'.signals = s.signals ++ signalled s c d en name ∧ s'.urgentWait = s.urgentWait

end Sys2Proof.Machine

/-- STREAM_SOURCE_READ_DONE marks a chunk whose reads have returned, in chunk order, and signals UE. STREAM_CHUNK_WRITTEN
performs the head chunk's writes into the Hopper and signals DF. STREAM_DONE signals DONE and leaves the context IDLE. -/
def Obligations.ChunksAreAnnouncedInOrder : Prop :=
  (∀ (s : State) (c : CtxId) (x : Ctx) (k : Nat) (ch : Chunk), x = ctxAt s c → streamOn s c = true →
    kvFind x.chunks k = some ch → ch.readDone = false → ch.dropped = false → ch.next = ch.stop →
    (∀ j, j < k → ∀ q, kvFind x.chunks j = some q → q.readDone = true) →
    ∃ s', exec (.streamSourceReadDone c k) s = .next s' ∧
      kvFind (ctxAt s' c).chunks k = some { ch with readDone := true } ∧
      Signalled s s' c x.d dUEE dUE ∧ SameContexts s s' c) ∧
  (∀ (s : State) (c : CtxId) (x : Ctx) (ch : Chunk), x = ctxAt s c → streamOn s c = true →
    kvFind x.chunks x.done = some ch → ch.readDone = true → (dflag x.d dDIR = false ∨ 3 < dget x.d dMODE) →
    isReceiver x = false →
    ∃ s', exec (.streamChunkWritten c) s = .next s' ∧
      (til s' c.til).hopper = writeAll (til s c.til).hopper (wrapAll ch.writes) ∧ (ctxAt s' c).done = x.done + 1 ∧
      kvFind (ctxAt s' c).chunks x.done = none ∧ Signalled s s' c x.d dDFE dDF ∧
      SameContexts s s' c ∧ count s' 0xA700 3 = count s 0xA700 3 + (ch.stop - ch.first)) ∧
  (∀ (s : State) (c : CtxId) (x : Ctx), x = ctxAt s c → streamOn s c = true → streamFinished x = true → s.held = [] →
    ∃ s', exec (.streamDone c) s = .next s' ∧ ctxAt s' c = Ctx.reset ∧
      Signalled s s' c x.d dDNE dDONE ∧ count s' 0xA700 2 = count s 0xA700 2 + 1)

/-- CHUNK_GRANT of a RECV with credit grants its next chunk to the SEND that names it back, once their shapes agree. A walk
latches its table with a good header, reads its entries, whose reserved bit is zero, and releases it. -/
def Obligations.GrantsAndWalks : Prop :=
  (∀ (s : State) (c r : CtxId) (x : Ctx), x = ctxAt s c → streamOn s c = true → dget x.d dMODE = 5 →
    x.grants < totalChunks x.d → (dflag x.d dDEE = true → x.grants < x.de + dget x.d dNSLOT) → senderOf s c = some r →
    dget (ctxAt s r).d dMODE = 4 →
    (dget (ctxAt s r).d dNE, dget (ctxAt s r).d dELM1, dget (ctxAt s r).d dCM1) = (dget x.d dNE, dget x.d dELM1, dget x.d dCM1) →
    ∃ s', exec (.chunkGrant c) s = .next s' ∧ ctxAt s' c = { x with grants := x.grants + 1 } ∧
      ctxAt s' r = { ctxAt s r with granted := (ctxAt s r).granted + 1 } ∧ (∀ d, d ≠ c → d ≠ r → ctxAt s' d = ctxAt s d) ∧
      s' = { s with tillers := s'.tillers }) ∧
  (∀ (s : State) (c : CtxId) (x : Ctx) (b : List Byte), x = ctxAt s c → streamOn s c = true → dget x.d dMODE = 2 →
    x.latched = false → s.held = [] → localRead s (srcTil c.til) (dget x.d dTA) 64 = .ok b → tableBad (leNat b) = false →
    dget x.d dHSL < wtHpp (leNat b) →
    ∃ s', exec (.walkLatch c) s = .next s' ∧ ctxAt s' c = { x with latched := true, table := b } ∧ SameContexts s s' c ∧
      kvGet [] s'.latches (dget x.d dTA) = kvGet [] s.latches (dget x.d dTA) ++ [c] ∧
      s' = { s with tillers := s'.tillers, latches := s'.latches, granStacks := s'.granStacks, slotWaits := s'.slotWaits,
                    counts := s'.counts }) ∧
  (∀ (s : State) (c : CtxId) (x : Ctx) (entry : Nat → List Byte), x = ctxAt s c → streamOn s c = true →
    x.latched = true → x.released = false → s.held = [] →
    (∀ n ∈ walkPages x, localRead s (srcTil c.til) (dget x.d dTA + 64 + 8 * (n % wtS (leNat (x.table.take 64)))) 8 =
      .ok (entry n) ∧ entryRefused (entry n) = false) →
    ∃ s', exec (.walkRelease c) s = .next s' ∧ (ctxAt s' c).released = true ∧
      (ctxAt s' c).table = x.table.take 64 ++ ((walkPages x).map entry).flatten ∧
      kvGet [] s'.latches (dget x.d dTA) = (kvGet [] s.latches (dget x.d dTA)).filter (fun d => decide (d ≠ c)))

namespace Sys2Proof.Machine

/-! ## Granary, Barn and Sowing -/

end Sys2Proof.Machine

/-- GRANARY_REQUEST_ADMITTED while the Granary runs: a request is given a slot where its bank holds fewer than 64 admitted
requests, a slot reserved for its source or a shared one that is its turn is free, and no earlier request of its source to the
sector waits; where its bank is full it waits in its source's retry buffer; where that holds 64 already, its Tiller has 512
outstanding or its thread 64, it waits at issue; a sector beyond the Granary does not exist. While the Granary is stopped or in
self-refresh nothing is admitted. -/
def Obligations.GranaryRequestsTakeASlot : Prop :=
  ∀ (r : SectorReq) (s : State) (k : Nat) (x : Stack), k = stackOf (64 * r.sector) → x = stackAt s k →
    (2 ^ 33 ≤ r.sector → exec (.granaryRequestAdmitted r) s = .fault .noSuchAddress) ∧
    (r.sector < 2 ^ 33 → granaryOn s = false ∨ sourceFull s k r = true → exec (.granaryRequestAdmitted r) s = .next s) ∧
    (r.sector < 2 ^ 33 → granaryOn s = true → sourceFull s k r = false → bankFull s r.sector = false →
      (reservedFree s k r.source = true ∨
        sharedFree s k = true ∧ sharedTurn s k (isAwnReq r) (granaryNow s k) = true) → behindOwn k x.retry r.source r.sector = false →
      ∃ s', exec (.granaryRequestAdmitted r) s = .next s' ∧
        stackAt s' k = { x with nextId := x.nextId + 1,
                                admitted := x.admitted ++ [⟨x.nextId, r, reservedFree s k r.source, granaryNow s k⟩] } ∧
        (∀ j, j ≠ k → stackAt s' j = stackAt s j) ∧ count s' 0xA400 1 = count s 0xA400 1 + 1 ∧
        s' = { s with granStacks := s'.granStacks, counts := s'.counts }) ∧
    (r.sector < 2 ^ 33 → granaryOn s = true → sourceFull s k r = false → bankFull s r.sector = true → x.retry.all (·.bank) = true →
      ∃ s', exec (.granaryRequestAdmitted r) s = .next s' ∧
        (stackAt s' k).retry.map (·.req) = x.retry.map (·.req) ++ [r] ∧ (stackAt s' k).admitted = x.admitted ∧
        (∀ j, j ≠ k → stackAt s' j = stackAt s j) ∧ count s' 0xA400 3 = count s 0xA400 3 + 1 ∧
        s' = { s with granStacks := s'.granStacks, counts := s'.counts })

namespace Sys2Proof.Machine

/-- The Granary runs, the controller may serve the request next, no host copy is left to snoop, and no other waits. -/
def AccessIsNext (s : State) (k : Nat) (a : Admitted) : Prop :=
  granaryOn s = true ∧ (stackAt s k).admitted.find? (fun b => decide (b.id = a.id)) = some a ∧
  (servable s k (reqBank a.req / 32)).any (fun b => decide (b.id = a.id)) = true ∧
  (stackAt s k).retry = [] ∧ a.req.source ≠ .scrub ∧ snoopSpan s (64 * a.req.sector) 64 a.req.write = (s, true)

end Sys2Proof.Machine

/-- GRANARY_SECTOR_ACCESS of a clean sector: a read returns its 64 bytes; a write stores its bytes and no other, unless the
bytes lie in a latched table, where the store is held and memory stays as it was. While the Granary does not run nothing is served.
The bank's row is then open, and
BANK_REFRESH closes it; a bank with a queued request waits for a bank of its channel that has none and is not yet refreshed. -/
def Obligations.GranaryAccessesReadAndWriteTheirSector : Prop :=
  (∀ (s : State) (stack : Fin 8) (a : Admitted) (e : CodeResult), AccessIsNext s stack.val a →
    s.reli.bad.elem a.req.sector = false → e = .clean →
    (a.req.write = false →
      ∃ s', exec (.granarySectorAccess stack a.id e) s = .next s' ∧
        (stackAt s' stack.val).returned = (a.id, readBytes s.granary (64 * a.req.sector) 64) :: (stackAt s stack.val).returned ∧
        kvGet 0 (stackAt s' stack.val).openRow (reqBank a.req) = field (64 * a.req.sector) 22 14 + 1 ∧
        (stackAt s' stack.val).admitted = (stackAt s stack.val).admitted.filter (fun b => decide (b.id ≠ a.id)) ∧
        s'.granary = s.granary) ∧
    (∀ at_ data, a.req.write = true → at_ = 64 * a.req.sector + a.req.first → data = a.req.data.take (64 - a.req.first) →
      (latched s at_ data.length = false → arriving s at_ = false →
        heldFrom s (reqSource a.req.source) at_ data.length = false →
        ∃ s', exec (.granarySectorAccess stack a.id e) s = .next s' ∧ readBytes s'.granary at_ data.length = data ∧
          (∀ b, b < at_ ∨ at_ + data.length ≤ b → byteAt s'.granary b = byteAt s.granary b)) ∧
      (latched s at_ data.length = true →
        ∃ s', exec (.granarySectorAccess stack a.id e) s = .next s' ∧ s'.granary = s.granary ∧
          (∃ rsv, s'.held = s.held ++ [⟨reqSource a.req.source, at_, data, none, rsv⟩]) ∧ count s' 0xA480 1 = count s 0xA480 1 + 1))) ∧
  (∀ (s : State) (stack : Fin 8) (id : Nat) (e : CodeResult), granaryOn s = false →
    exec (.granarySectorAccess stack id e) s = .next s) ∧
  (∀ (s : State) (b : BankId) (x : Stack), x = stackAt s b.stack.val →
    bankQueued x (32 * b.channel.val + b.bank.val) = true →
    (∃ i, i < 32 ∧ x.refreshed.elem (32 * b.channel.val + i) = false ∧ bankQueued x (32 * b.channel.val + i) = false) →
    exec (.bankRefresh b) s = .next s) ∧
  (∀ (s : State) (b : BankId) (x : Stack), x = stackAt s b.stack.val → granaryOn s = true →
    (bankQueued x (32 * b.channel.val + b.bank.val) = false ∨
      ∀ i, i < 32 → x.refreshed.elem (32 * b.channel.val + i) = true ∨ bankQueued x (32 * b.channel.val + i) = true) →
    ∃ s', exec (.bankRefresh b) s = .next s' ∧
    kvGet 0 (stackAt s' b.stack.val).openRow (32 * b.channel.val + b.bank.val) = 0 ∧
    (∀ k, k ≠ 32 * b.channel.val + b.bank.val →
      kvGet 0 (stackAt s' b.stack.val).openRow k = kvGet 0 (stackAt s b.stack.val).openRow k) ∧
    (∀ j, j ≠ b.stack.val → stackAt s' j = stackAt s j) ∧ s' = { s with granStacks := s'.granStacks })

/-- SCRUB_SECTOR_READ moves the scrub of a running module to its next sector, and counts a pass at its end.
ROW_REPAIR_COMPLETE and BANK_SPARE_COMPLETE remap a row or a bank that waited for its copy, at the cost of a spare.
HEDGEROW_FLIT_REPLAY counts a replay; one that fails retires the bridge of the plane that the target address selects, and its
requester, a job, a host's port or another module, meets an error. -/
def Obligations.ScrubAndSparingGoOn : Prop :=
  (∀ (s : State) (stack : Fin 8), scrubRuns s = true →
    canEnter s (reqSource .scrub) (stack.val * stackSectors + (stackAt s stack.val).scrubPos) false = true →
    s.reli.bad.elem (stack.val * stackSectors + (stackAt s stack.val).scrubPos) = false →
    ∃ s', exec (.scrubSectorRead stack .clean) s = .next s' ∧ s'.granary = s.granary ∧
      (stackAt s' stack.val).scrubPos =
        (if (stackAt s stack.val).scrubPos + 1 = stackSectors then 0 else (stackAt s stack.val).scrubPos + 1) ∧
      count s' 0x7880 8 = count s 0x7880 8 + (if (stackAt s stack.val).scrubPos + 1 = stackSectors then 1 else 0)) ∧
  (∀ (s : State) (b : BankId) (row key : Nat), key = bankOf b * 16384 + row → row < 16384 →
    (stackAt s b.stack.val).rowWait.elem key = true →
    ∃ s', exec (.rowRepairComplete b row) s = .next s' ∧
      (stackAt s' b.stack.val).rowWait = (stackAt s b.stack.val).rowWait.erase key ∧
      (stackAt s' b.stack.val).rowRepaired = (stackAt s b.stack.val).rowRepaired ++ [key] ∧
      (stackAt s' b.stack.val).spareRows = (stackAt s b.stack.val).spareRows - 1 ∧
      count s' 0x7880 9 = count s 0x7880 9 + 1 ∧ s'.granary = s.granary) ∧
  (∀ (s : State) (b : BankId), (stackAt s b.stack.val).bankCopy.elem (bankOf b) = true →
    ∃ s', exec (.bankSpareComplete b) s = .next s' ∧
      (stackAt s' b.stack.val).bankSpared = (stackAt s b.stack.val).bankSpared ++ [bankOf b] ∧
      (stackAt s' b.stack.val).spareBanks = (stackAt s b.stack.val).spareBanks - 1 ∧
      count s' 0x7880 10 = count s 0x7880 10 + 1 ∧ s'.granary = s.granary) ∧
  (∀ (s : State) (die : Fin 10) (x : HedgeTransfer) (again : Bool) (b : Nat × Nat), s.board.step = 11 →
    b = (die.val, planeAt s die.val (planeOf x.target)) → s.reli.bridges.elem b = false →
    ∃ u, exec (.hedgerowFlitReplay die x again) s =
        .next (if again = true then requesterMeets u x.target x.requester else u) ∧
      count u 0x7880 6 = count s 0x7880 6 + 1 ∧ u.reli.bridges = s.reli.bridges ++ (if again then [b] else []))

namespace Sys2Proof.Machine

/-- The present Sowing entry may start: it is read whole, its sectors admitted (R209), no WAIT before it is incomplete, its flight is free, and the rules
of its kind and the conditions of R228 hold. -/
def EntryMayStart (s : State) (e : SowEntry) (kind : Nat) : Prop :=
  (∃ raw, presentEntry s = some (e, raw) ∧ entryBad s e raw = false) ∧ e.kind = kind ∧
  snoopSpan s (s.sowing.base + 32 * s.sowing.next) 32 false = (s, true) ∧
  (∀ p ∈ sectors (s.sowing.base + 32 * s.sowing.next) 32, canEnter s srcEngine (p.1 / 64) false = true) ∧
  badIn s (s.sowing.base + 32 * s.sowing.next) 32 = [] ∧ heldByWait s = false ∧ s.sowing.flights.length < 64 ∧
  flightEntry s s.sowing.next = none ∧ entryWait s e = none

/-- The ring has moved to its next entry, and this one is in flight. -/
def EntryStarted (s s' : State) (e : SowEntry) : Prop :=
  s'.sowing.next = (s.sowing.next + 1) % s.sowing.entries ∧ s'.sowing.prevLayer = e.layer ∧
  ∃ f, flightEntry s' s.sowing.next = some f ∧ f.kind = e.kind ∧ f.ja = e.ja ∧ f.len = e.len

/-- No BIND entry is in flight. -/
def noBinds (s : State) : Prop := s.sowing.flights.filter (fun f => decide (f.kind = 4)) = []

end Sys2Proof.Machine

/-- A Sowing entry that may start does what its kind says: FETCH takes its credit and puts a FETCHING bale in the directory;
WRITEBACK waits for a bale that moves; EVICT is deferred by a pin; COPY takes its credit; BIND waits while its page holds a
valid granule; UNPIN takes one pin off its bale, and an ABSENT bale goes with its last; WAIT takes its counts or waits in turn; END takes its layer off Lp and
returns to entry 0. SOWING_CREDIT adds to the credit register and LAYER_ADVANCE to the present layer, while a job holds the
engine; nothing else changes. -/
def Obligations.SowingEntriesActByTheirKind : Prop :=
  (∀ (s : State) (e : SowEntry) (ga : Nat), ga = entryGa s e →
      (EntryMayStart s e 0 → baleNamed s ga = none →
        ∃ s' b, exec .fetch s = .next s' ∧ EntryStarted s s' e ∧ baleNamed s' ga = some b ∧ b.st = .fetching ∧ b.len = e.len ∧
          b.pins = (if e.pin then 1 else 0) ∧ b.onMove = [s.sowing.next] ∧
          s'.sowing.credit = s.sowing.credit - e.len / 4096 ∧ s'.granary = s.granary) ∧
      (∀ b, EntryMayStart s e 1 → baleNamed s ga = some b → (b.st = .fetching ∨ b.st = .writing) →
        ∃ s', exec .writeback s = .next s' ∧ EntryStarted s s' e ∧
          baleNamed s' ga = some { b with onWrite := b.onWrite ++ [s.sowing.next] }) ∧
      (∀ b, EntryMayStart s e 2 → baleNamed s ga = some b → e.unpin = false → b.pins ≠ 0 → b.st ≠ .absent →
        ∃ s', exec .evict s = .next s' ∧ EntryStarted s s' e ∧
          baleNamed s' ga = some { b with evictPending := true, onEvict := b.onEvict ++ [s.sowing.next] } ∧
          count s' 0xA400 6 = count s 0xA400 6 + 1) ∧
      (EntryMayStart s e 3 →
        ∃ s', exec .copy s = .next s' ∧ EntryStarted s s' e ∧ s'.sowing.credit = s.sowing.credit - e.len / 4096) ∧
      (EntryMayStart s e 4 → noBinds s → bindReady s e.ja = false →
        ∃ s', exec .bind s = .next s' ∧ EntryStarted s s' e ∧ s'.jobs = s.jobs) ∧
      (∀ b, EntryMayStart s e 5 → noBinds s → e.len ≠ 0 →
        s.bales.filter (fun c => decide (c.ga = ga ∧ c.len = e.len)) = [b] → b.pins ≠ 0 → baleNamed s ga = some b →
        ∃ s', exec .unpin s = .next s' ∧
          (b.st ≠ .absent → baleNamed s' ga = some { b with pins := b.pins - 1 }) ∧
          (b.st = .absent → b.pins = 1 → baleNamed s' ga = none) ∧
          flightEntry s' s.sowing.next = none ∧ count s' 0xA400 4 = count s 0xA400 4 + 1) ∧
      (EntryMayStart s e 6 → ∀ x, x = sem s (headName 0x60 e.sem) →
        ∃ s', exec .sowingWait s = .next s' ∧
          (x.waiters = [] ∧ e.cm1 + 1 ≤ x.count →
            (sem s' (headName 0x60 e.sem)).count = x.count - (e.cm1 + 1) ∧ flightEntry s' s.sowing.next = none) ∧
          (¬ (x.waiters = [] ∧ e.cm1 + 1 ≤ x.count) → EntryStarted s s' e ∧
            (sem s' (headName 0x60 e.sem)).waiters = x.waiters ++ [.sowing s.sowing.next (e.cm1 + 1)])) ∧
      (EntryMayStart s e 7 →
        ∃ s', exec .sowingEnd s = .next s' ∧ s'.sowing.lp = s.sowing.lp - (e.layer : Int) ∧ s'.sowing.next = 0 ∧
          s'.sowing.ends = s.sowing.ends + 1 ∧ s'.sowing.prevLayer = 0)) ∧
  (∀ (n : BitVec 16) (s : State),
      (s.sowing.holder ≠ 0 →
        exec (.sowingCredit n) s = .next { s with sowing := { s.sowing with credit := (s.sowing.credit + n.toNat) % 2 ^ 32 } } ∧
        exec (.layerAdvance n) s = .next { s with sowing := { s.sowing with lp := s.sowing.lp + (n.toNat : Int) } }) ∧
      (s.sowing.holder = 0 → exec (.sowingCredit n) s = .next s ∧ exec (.layerAdvance n) s = .next s))

/-- BALE_MOVE_COMPLETE writes the granules that were missing, in ascending order, and leaves every granule of the bale valid
and the bale CLEAN, where none came back in error. BALE_WRITEBACK_DONE leaves a bale with nothing dirty CLEAN. DEFERRED_EVICTION drops a CLEAN bale without
pins and its granules. COPY_COMPLETE completes a COPY whose writes are all acknowledged. -/
def Obligations.BarnAnswersMoveBales : Prop :=
  (∀ (s : State) (b : Bale) (data : List Byte), baleNamed s b.ga = some b → b.st = .fetching →
    (∀ g ∈ invalidOf s b, (b.asked.map (·.1)).elem g = true) →
    snoopAll s ((invalidOf s b).map (fun g => (g, 4096))) true = (s, true) →
    (∀ g ∈ invalidOf s b, ∀ p ∈ sectors g 4096, canEnter s srcEngine (p.1 / 64) true = true) → s.held = [] → b.onMove = [] → b.onWrite = [] →
    dirtyOf s b = [] →
    ∃ s', exec (.baleMoveComplete b.ga data []) s = .next s' ∧
      baleNamed s' b.ga = some { b with st := .clean, asked := [] } ∧
      (∀ g ∈ baleGranules b, validGranule s' g = true) ∧
      (∀ i g, (invalidOf s b)[i]? = some g → readBytes s'.granary g 4096 = padTo 4096 (data.drop (4096 * i))) ∧
      (∀ a, (∀ g ∈ invalidOf s b, a < g ∨ g + 4096 ≤ a) → byteAt s'.granary a = byteAt s.granary a)) ∧
  (∀ (s : State) (b : Bale), baleNamed s b.ga = some b → b.st = .writing → b.evicting = false → b.onWrite = [] →
    b.demand = 0 → dirtyOf s b = [] →
    (∀ i, slotOf s b.job = some i → (jobAt s i).st ≠ 2 ∨ allHalted s b.job = false) →
    ∃ s', exec (.baleWritebackDone b.ga []) s = .next s' ∧
      baleNamed s' b.ga = some { b with st := .clean, writing := [] } ∧ s'.granary = s.granary ∧
      count s' 0xA400 9 = count s 0xA400 9 + b.writing.length) ∧
  (∀ (s : State) (b : Bale), baleNamed s b.ga = some b → b.evictPending = true → b.st = .clean → b.pins = 0 → b.demand = 0 →
    ∃ s', exec (.deferredEviction b.ga) s = .next s' ∧ baleNamed s' b.ga = none ∧
      (∀ g ∈ baleGranules b, validGranule s' g = false) ∧ s'.granary = s.granary) ∧
  (∀ (s : State) (i : Nat) (f : SowFlight), flightEntry s i = some f → f.kind = 3 → f.remoteWrites = some 0 →
    s.held.any (fun h => decide (h.source = srcEngine)) = false →
    ∃ s', exec (.copyComplete i) s = .next s' ∧ flightEntry s' i = none ∧ count s' 0xA400 4 = count s 0xA400 4 + 1 ∧
      s'.granary = s.granary)

namespace Sys2Proof.Machine

/-! ## Awn and Rotation -/

/-- Nothing in the module stands between a unit and the Granary: no held store, no latched table, no bale, no sector that is
uncorrectable or listed, no request at a stack and no row being copied. -/
def Still (s : State) : Prop :=
  s.held = [] ∧ s.latches = [] ∧ s.bales = [] ∧ s.reli.bad = [] ∧ s.reli.listed = [] ∧
  ∀ k, (stackAt s k).admitted = [] ∧ (stackAt s k).retry = [] ∧ (stackAt s k).rowWait = []

/-- Nothing stands between a unit and the Granary: no line a host may hold either. -/
def Quiet (s : State) : Prop := s.cxl.directory = [] ∧ Still s

/-- No byte of the Granary outside these runs of bytes has changed. -/
def OnlyStored (s s' : State) (ws : List (Nat × List Byte)) : Prop :=
  ∀ a, (∀ w ∈ ws, a < w.1 ∨ w.1 + w.2.length ≤ a) → byteAt s'.granary a = byteAt s.granary a

/-- The bytes lie at an address of the Granary, and nothing else has changed there. -/
def Stored (s s' : State) (a : Nat) (b : List Byte) : Prop :=
  readBytes s'.granary a b.length = b ∧ OnlyStored s s' [(a, b)]

/-- One signal of these units has been sent to a semaphore: its count and its job. -/
def Sent1 (s s' : State) (src : SigSource) (name cnt job : Nat) : Prop :=
  ∃ g : Signal, s'.signals = s.signals ++ [g] ∧ g.src = src ∧ g.sem = name ∧ g.count = cnt ∧ g.job = job

/-- The next output tile of a stem descriptor, from the rows in the line buffer and those read now: the runs of bytes it is
stored as. -/
def stemWrites (s : State) (r : AwnRun) (d : ClipDesc) : List (Nat × List Byte) :=
  let n := min 64 (d.nf * d.grid - 64 * r.tile)
  let src := (upto n).map (fun i =>
    (tokenOuts r d (if d.wfmt = 1 then 3 else 2) (stemInput (tileLines s r d (64 * r.tile) n) d (64 * r.tile + i))).map val32)
  let o := convertOp s none s.awn.holder (clipConv d ((d.keyb + r.tile) % 2 ^ 32)) src d.n (64 * d.room) 0
  let dst := d.obase + r.tile % d.nt * d.tslot
  tileWrites dst (newHdr (gran s dst 64) o.out.fmt d.ofmt d.cls n d.n 0 0) o.out

/-- The Awn engine holds a descriptor whose weights are loaded, and may work. -/
def AwnWorks (s : State) (r : AwnRun) (d : ClipDesc) : Prop :=
  s.awn.run = some r ∧ d = ClipDesc.parse r.desc ∧ awnOn s = true ∧ r.due = 0 ∧ s.awn.status ≠ 1

/-- A state that differs in what the Awn engine holds, and in the requests it has made. -/
def OnlyAwnRead (s s' : State) : Prop :=
  s' = { s with awn := s'.awn, granStacks := s'.granStacks, slotWaits := s'.slotWaits, counts := s'.counts }

/-- A count of a Headland unit has saturated at 65 535: it is counted, and the job of the unit faults. -/
def Saturated (s s' : State) (job : Nat) : Prop :=
  count s' 0xA210 6 = count s 0xA210 6 + 1 ∧
  ∀ i, slotOf s job = some i → jobLive (jobAt s i) = true → (jobAt s' i).st = 5 ∧ (jobAt s' i).reason = 0x01

/-- Posts and slot credits reach the Awn engine: they add up while a job holds it; the counts that it waits for end its wait, which
is charged; one that would pass 65 535 saturates and faults the job. -/
def AwnSignalled (s : State) (n : BitVec 16) : Prop :=
  (s.awn.holder = 0 → exec (.clipDescriptorPosted n) s = .next s ∧ exec (.outputSlotReleased n) s = .next s) ∧
  (s.awn.holder ≠ 0 →
    (s.awn.posts + n.toNat ≤ 65535 → s.awn.status ≠ 3 ∨ s.awn.credits < creditNeed s →
      exec (.clipDescriptorPosted n) s = .next { s with awn := { s.awn with posts := s.awn.posts + n.toNat } }) ∧
    (s.awn.credits + n.toNat ≤ 65535 → s.awn.status ≠ 3 ∨ s.awn.credits + n.toNat < creditNeed s →
      exec (.outputSlotReleased n) s = .next { s with awn := { s.awn with credits := s.awn.credits + n.toNat } }) ∧
    (∀ t, s.awn.credits + n.toNat ≤ 65535 → s.awn.status = 3 → s.awn.waitSince = some t →
      creditNeed s ≤ s.awn.credits + n.toNat →
      ∃ s', exec (.outputSlotReleased n) s = .next s' ∧
        s'.awn = { s.awn with credits := s.awn.credits + n.toNat, waitSince := none, status := 2 } ∧
        count s' 0xA600 4 = count s 0xA600 4 + (s.clocks.hedgerow - t) ∧ s' = { s with awn := s'.awn, counts := s'.counts }) ∧
    (65535 < s.awn.posts + n.toNat →
      ∃ s', exec (.clipDescriptorPosted n) s = .next s' ∧ s'.awn.posts = 65535 ∧ Saturated s s' s.awn.holder) ∧
    (65535 < s.awn.credits + n.toNat →
      ∃ s', exec (.outputSlotReleased n) s = .next s' ∧ s'.awn.credits = 65535 ∧ Saturated s s' s.awn.holder))

end Sys2Proof.Machine

/-- The Awn engine: posts and slot credits add up while a job holds it, those that it waits for end its wait, and one that would
pass 65 535 saturates and faults the job; AWN_DESCRIPTOR_START takes one post, or stops the engine with the reason that refuses the descriptor and faults the job;
AWN_OUTPUT_WRITE loads the weights and the bias first, stores the next tile, spends a credit once the ring is full, and signals
FSEM; without a credit it waits; AWN_DESCRIPTOR_COMPLETE takes the closing credits and counts the descriptor. -/
def Obligations.AwnEngineRunsItsDescriptors : Prop :=
  (∀ (n : BitVec 16) (s : State), AwnSignalled s n) ∧
  (∀ (s : State) (b : List Byte) (d : ClipDesc), b = gran s (s.awn.base + 128 * s.awn.next) 128 → d = ClipDesc.parse b →
    awnOn s = true → s.awn.run = none → s.awn.posts ≠ 0 → s.awn.entries ≠ 0 → s.awn.status ≠ 4 → Quiet s →
    (clipCheck s b d = none → ∃ s', exec .awnDescriptorStart s = .next s' ∧
      s'.awn = { s.awn with
        posts := s.awn.posts - 1, next := (s.awn.next + 1) % s.awn.entries, status := 1, frame := 0, written := 0,
        run := some ⟨b, [], [], 0, 0, s.awn.next, 0, [], none, false⟩ } ∧
      OnlyAwnRead { s with sems := s'.sems } s' ∧ ∀ n, (sem s' n).count = (sem s n).count) ∧
    (∀ reason i, clipCheck s b d = some reason → slotOf s s.awn.holder = some i →
      ∃ s', exec .awnDescriptorStart s = .next s' ∧ s'.awn.status = 4 ∧ s'.awn.reason = reason ∧ s'.awn.run = none ∧
        count s' 0xA600 5 = count s 0xA600 5 + 1 ∧ (jobAt s' i).st = 5 ∧ (jobAt s' i).reason = 0x01 ∧
        s'.granary = s.granary)) ∧
  (∀ (s : State) (r : AwnRun) (d : ClipDesc) (n : Nat), s.awn.run = some r → d = ClipDesc.parse r.desc → awnOn s = true →
    s.awn.status = 1 → n = (Hdr.parse (gran s d.wbase 64)).size → Quiet s →
    ∃ u, OnlyAwnRead s u ∧
      u.awn = { s.awn with
        run := some { r with weights := gran s d.wbase n, bias := gran s d.bbase (4 * d.n) }, status := 2 } ∧
      exec .awnOutputWrite s = exec .awnOutputWrite u) ∧
  (∀ (s : State) (r : AwnRun) (d : ClipDesc), AwnWorks s r d → d.head = false → r.tile < d.tiles →
    (Quiet s → (d.nt ≤ r.tile → s.awn.credits ≠ 0) →
      ∃ s' r', exec .awnOutputWrite s = .next s' ∧ s'.awn.run = some r' ∧ r'.tile = r.tile + 1 ∧ r'.desc = r.desc ∧
        s'.awn.written = r.tile + 1 ∧ s'.awn.credits = (if d.nt ≤ r.tile then s.awn.credits - 1 else s.awn.credits) ∧
        count s' 0xA600 3 = count s 0xA600 3 + 1 ∧
        (urgentFull s .engine = false → Sent1 s s' .engine d.fsem 1 s.awn.holder) ∧
        OnlyStored s s' (stemWrites s r d)) ∧
    (d.nt ≤ r.tile → s.awn.credits = 0 → s.awn.waitSince = none →
      exec .awnOutputWrite s =
        .next { s with awn := { s.awn with waitSince := some s.clocks.hedgerow, status := 3 } })) ∧
  (∀ (s : State) (r : AwnRun) (d : ClipDesc) (need : Nat), AwnWorks s r d → d.tiles ≤ r.tile →
    need = (if d.head then 0 else d.tiles - r.taken) → need ≤ s.awn.credits →
    ∃ s', exec .awnDescriptorComplete s = .next s' ∧ s'.awn.run = none ∧ s'.awn.status = 0 ∧
      s'.awn.completed = s.awn.completed + 1 ∧ s'.awn.credits = s.awn.credits - need ∧
      count s' 0xA600 1 = count s 0xA600 1 + 1 ∧ s'.granary = s.granary ∧ s'.signals = s.signals)

namespace Sys2Proof.Machine

/-- n signals of count 1 go to the lead Tiller's semaphore, one after another; those that find 64 urgent messages of the
Headland in flight wait. -/
def SentToLead (s s' : State) (n : Nat) : Prop :=
  ∃ l w : List Signal, s'.signals = s.signals ++ l ∧ s'.urgentWait = s.urgentWait ++ w ∧
    (w ≠ [] → urgentFull s' .engine = true) ∧
    (l ++ w).map (fun g => (g.src, g.sem, g.count)) = List.replicate n (.engine, leadSem s.rot, 1)

/-- Every port that a MAP of the Acre names exists (Table 09-8). -/
def MapsNamePorts (s : State) : Prop := ∀ m ∈ s.links.map, ∀ q ∈ m.ports, q.1 < 64

end Sys2Proof.Machine

/-- Rotation: signals to index 0 complete this member's own blocks, and signals to index 1 its rounds; a member grants each
round once, by a credit that goes on the control class, and takes each grant once, when its flits have been received; it sends a block that it holds for a round
that was granted to it, as flits on its VC; a block that has arrived is in its slot, its sender is acknowledged and the lead
Tiller is told; a block that it has sent is acknowledged once. -/
def Obligations.RotationMovesItsBlocks : Prop :=
  ∀ (s : State) (r : Rotation), r = s.rot →
    (∀ n : BitVec 16,
      (r.holder ≠ 0 →
        (∃ s', exec (.blockCompleteSignal n) s = .next s' ∧ s'.rot = { r with blockSigs := r.blockSigs + n.toNat } ∧
          SentToLead s s' n.toNat ∧ (∀ m, (sem s' m).count = (sem s m).count) ∧
          s' = { s with rot := s'.rot, sems := s'.sems, signals := s'.signals, urgentWait := s'.urgentWait,
                        nextSignal := s'.nextSignal, counts := s'.counts }) ∧
        (∃ s', exec (.roundFinishedSignal n) s = .next s' ∧
          s'.rot = { r with
            roundSigs := r.roundSigs + n.toNat, round := if n = 0 then r.round else r.roundSigs + n.toNat } ∧
          s' = { s with rot := s'.rot, counts := s'.counts })) ∧
      (r.holder = 0 → exec (.blockCompleteSignal n) s = .next s ∧ exec (.roundFinishedSignal n) s = .next s)) ∧
    (∀ pos note round, pos < r.g → round = note.round →
      (rotOn s = true → pos = r.pos → note.flits = [] → mayGrant r round = true → r.granted.elem (pos, round) = false →
        ∃ u, u.rot = { r with granted := r.granted ++ [(pos, round)] } ∧ u = { s with rot := u.rot, sems := u.sems } ∧
          (∀ m, (sem u m).count = (sem s m).count) ∧
          exec (.rotationCreditGrant pos note) s = .next (if roundIn r round = 0 then u
            else sendControl u (rotModule r (sourceOf r round)) (.rotCredit round))) ∧
      (∀ u, pos ≠ r.pos → recvNote s note true (.rotCredit round) = (u, true) → rotHears u = true → u.rot = r →
        r.credits.elem (pos, round) = false →
        exec (.rotationCreditGrant pos note) s = .next { u with rot := { r with credits := r.credits ++ [(pos, round)] } }) ∧
      (∀ u, pos ≠ r.pos → recvNote s note true (.rotCredit round) = (u, false) →
        exec (.rotationCreditGrant pos note) s = .next u)) ∧
    (∀ pos round v p, rotOn s = true → pos < r.g → pos ≠ r.pos → sendsFor r pos round = some v → holdsRound r v = true →
      r.credits.elem (pos, round) = true → r.sent.elem (pos, round) = false →
      egressOf s (routeOf s (myId s) (rotModule r pos) r.vc) = some p → running s (portFn p) = true → Quiet s →
      ∃ u, u.rot = { r with sent := r.sent ++ [(pos, round)] } ∧
        u = { s with rot := u.rot, granStacks := u.granStacks, slotWaits := u.slotWaits, counts := u.counts } ∧
        exec (.rotationBlockSend pos round) s = .next (bump (sendBytes u (rotType false) r.vc (rotModule r pos)
          (readBytes s.granary (rotSlot r v) r.slotb) (.rotBlock round)) 0xA5A0 2 1)) ∧
    (∀ note round data u, round = note.round → recvNote s note false (.rotBlock round) = (u, true) → u.rot = r →
      r.slotb ≤ flitRoom note.flits → rotOn u = true → roundIn r round ≠ 0 → r.complete.elem round = false →
      r.granted.elem (r.pos, round) = true → r.arrived = [] → r.due = [] → Quiet u → MapsNamePorts u →
      ∃ s', exec (.rotationBlockComplete r.pos note data) s = .next s' ∧
        s'.rot = { r with complete := r.complete ++ [round] } ∧ Stored u s' (rotSlot r round) (padTo r.slotb data) ∧
        SentToLead u s' 1 ∧ count s' 0xA5A0 1 = count u 0xA5A0 1 + 1) ∧
    (∀ pos note round data u, pos ≠ r.pos → round = note.round → recvNote s note true (.rotAck round) = (u, true) →
      u.rot = r → rotOn u = true → r.sent.elem (pos, round) = true → r.acked.elem (pos, round) = false →
      exec (.rotationBlockComplete pos note data) s = .next { u with rot := { r with acked := r.acked ++ [(pos, round)] } })

namespace Sys2Proof.Machine

/-! ## Reductions, the norm and step commit -/

/-- A group may take its next post at once: its job is not rolling back, the Stook layer runs, and its window may open. -/
def GroupTakes (s : State) (gid : Nat) (g : Group) : Prop :=
  groupAt s gid = some g ∧ (jobOf s g.job).st ≠ 3 ∧ running s 0x50 = true ∧ mayOpen g g.lam = true ∧ g.held = [] ∧
  ((windowAt g g.lam).opened = true ∨ (windowAt g g.lam).arrived = [])

/-- Only this group has changed, and with it at most the claims on its DSEM. -/
def OnlyGroup (s s' : State) (gid : Nat) : Prop :=
  (∀ n, n ≠ gid → groupAt s' n = groupAt s n) ∧ (∀ n, (sem s' n).count = (sem s n).count) ∧
  s' = { s with stook := s'.stook, sems := s'.sems }

/-- The present window of a group, opened where it was not: the counts of its deadlines begin then. -/
def Opened (s : State) (g : Group) (w : Window) : Window :=
  { w with opened := true, timers := if w.opened then w.timers else openTimers s g }

end Sys2Proof.Machine

/-- TILE_POST opens the present window and lists its tile there, unless the group's rules refuse it: a refused post is
counted. LAYER_COMPLETE_MARKER closes the window to posts and moves the group to its next one. -/
def Obligations.PostsAndMarkersFillTheWindow : Prop :=
  ∀ (s : State) (gid : Fin 13) (g : Group) (w : Window), GroupTakes s gid.val g → w = windowAt g g.lam →
    (∀ (index : BitVec 6) (n : BitVec 16) (tile : Nat), index.toNat < 63 → n ≠ 0 → tile = 1024 * index.toNat + n.toNat - 1 →
      (postBad g tile = false → ∃ s' g', exec (.tilePost gid index n) s = .next s' ∧ groupAt s' gid.val = some g' ∧
        g'.lam = g.lam ∧ g'.cfg = g.cfg ∧ windowAt g' g.lam = { Opened s g w with posted := w.posted ++ [tile] } ∧
        OnlyGroup s s' gid.val) ∧
      (postBad g tile = true → ∃ s', exec (.tilePost gid index n) s = .next s' ∧
        count s' 0xA580 7 = count s 0xA580 7 + 1 ∧ s'.stook.groups = s.stook.groups ∧ s'.granary = s.granary)) ∧
    (retainedBack g.cfg g.lam = false →
      ∃ s' g', exec (.layerCompleteMarker gid 1) s = .next s' ∧ groupAt s' gid.val = some g' ∧ g'.lam = g.lam + 1 ∧
        g'.cfg = g.cfg ∧ windowAt g' g.lam = { Opened s g w with marker := true } ∧ OnlyGroup s s' gid.val)

namespace Sys2Proof.Machine

/-- The sum that leaves this position for tile t of a window: what arrived, or zero, and the contribution where it is
posted. -/
def sumAt (s : State) (g : Group) (w : Window) (sum : Option StookIn) (t : Nat) : Entries :=
  let start := match sum with
    | some x => arrivingEntries g.cfg x.bytes
    | none => zeroEntries g.cfg
  if w.posted.elem t then
    (addTile s g.cfg start (tileVals (gran s (contribAddr g.cfg w.lam t) (Hdr.parse (gran s (contribAddr g.cfg w.lam t) 64)).size)
      g.cfg.rows (if g.cfg.cpair then 2 * g.cfg.cols else g.cfg.cols))).2
  else start

/-- The result tile that the owner writes. -/
def resultTile (s : State) (g : Group) (w : Window) (sum : Option StookIn) (t : Nat) : List Byte :=
  let old := gran s (resultAddr g.cfg w.lam t) 64
  let x := sumAt s g w sum t
  if g.cfg.rout then wordsTile old (x.map pairRow) (2 * g.cfg.cols) else wordsTile old (x.map finalRow) g.cfg.cols

/-- A tile of the group can be handled now in window w. -/
def TileIsReady (s : State) (gid : Fin 13) (g : Group) (w : Window) (sum : Option StookIn) (t : Nat) : Prop :=
  groupAt s gid.val = some g ∧ g.cfg.kind ≠ 2 ∧ stookOn s g.job = true ∧ t < g.cfg.tiles ∧
  readyWindow g t = some (w, sum) ∧ windowAt g w.lam = w ∧ Quiet s ∧
  (w.posted.elem t = true → contribBad g.cfg (gran s (contribAddr g.cfg w.lam t) 64) = false)

/-- The window after STOOK_ADD has handled tile t in it. -/
def Handled (s' : State) (gid : Nat) (w : Window) (t : Nat) : Prop :=
  ∃ g', groupAt s' gid = some g' ∧ (windowAt g' w.lam).handled = w.handled ++ [t] ∧
    (windowAt g' w.lam).read = (if w.posted.elem t then w.read ++ [t] else w.read) ∧
    ∀ x ∈ (windowAt g' w.lam).arrived, ¬ (x.kind = 0 ∧ x.tile = t)

end Sys2Proof.Machine

/-- STOOK_ADD adds this member's posted contribution, counts it, and sends the sum as flits to every module of the next
position, or, at the owner, stores the result tile. GLEANER_DEADLINE passes the deadlines of a window that have fallen: of each
tile that only a Gleaner has sent it takes that copy, and refuses one whose header is bad; before a deadline nothing changes. DSEM_SIGNAL signals DSEM once for a
window that is done. -/
def Obligations.StookAddsAlongTheChain : Prop :=
  (∀ (s : State) (gid : Fin 13) (g : Group) (w : Window) (sum : Option StookIn) (t k : Nat),
    TileIsReady s gid g w sum t → k = chainIndex g.cfg t (groupPos g) → MapsNamePorts s →
    (k ≠ g.cfg.p →
      ∃ s' u b, exec (.stookAdd gid t) s = .next s' ∧ Handled s' gid.val w t ∧ s'.granary = s.granary ∧
        count s' 0xA580 1 = count s 0xA580 1 + (if w.posted.elem t then 1 else 0) ∧
        b = (transport s g w.lam t k (sumAt s g w sum t)).2 ∧
        u = { s with granStacks := u.granStacks, slotWaits := u.slotWaits, counts := u.counts } ∧
        s'.links = (sendTile u g (nextPos g.cfg t (groupPos g)) w.lam t 0 b).links ∧
        s'.out = (sendTile u g (nextPos g.cfg t (groupPos g)) w.lam t 0 b).out) ∧
    (k = g.cfg.p → g.cfg.ret = false →
      ∃ s', exec (.stookAdd gid t) s = .next s' ∧ Handled s' gid.val w t ∧
        Stored s s' (resultAddr g.cfg w.lam t) (resultTile s g w sum t) ∧
        count s' 0xA580 1 = count s 0xA580 1 + (if w.posted.elem t then 1 else 0))) ∧
  (∀ (s : State) (gid : Fin 13) (g : Group) (w : Window), groupAt s gid.val = some g →
    g.windows.filter (·.opened) = [w] → windowAt g w.lam = w →
    (dueTimers s g w = [] → exec (.gleanerDeadline gid) s = .next s) ∧
    (dueTimers s g w ≠ [] → (∀ x ∈ w.arrived, x.gleaner = true → x.kind = 0 ∧ hdrReason (x.bytes.take 64) = none) →
      ∃ s' g', exec (.gleanerDeadline gid) s = .next s' ∧ groupAt s' gid.val = some g' ∧
        (windowAt g' w.lam).late = w.late ++ dueTimers s g w ∧
        (∀ x ∈ w.arrived, x.gleaner = true → (dueTimers s g w).elem (senderPos g.cfg (groupPos g) 0 x.tile) = true →
          x.tile ∈ (windowAt g' w.lam).taken) ∧
        s' = { s with stook := s'.stook, counts := s'.counts }) ∧
    (∀ x, w.arrived = [x] → x.gleaner = true → x.tile ∉ w.taken →
      (dueTimers s g w).elem (senderPos g.cfg (groupPos g) x.kind x.tile) = true → (hdrReason (x.bytes.take 64)).isSome = true →
      ∃ s' g', exec (.gleanerDeadline gid) s = .next s' ∧ groupAt s' gid.val = some g' ∧
        (windowAt g' w.lam).arrived = [] ∧ count s' 0xA580 7 = count s 0xA580 7 + 1 ∧ s'.granary = s.granary)) ∧
  (∀ (s : State) (gid : Fin 13) (g : Group) (w : Window), groupAt s gid.val = some g → stookOn s g.job = true →
    g.windows.find? (windowDone g) = some w →
    s.held.any (fun h => decide (h.source = srcStook ∨ h.source = srcStookB)) = false → g.held = [] →
    ∃ s' g', exec (.dsemSignal gid) s = .next s' ∧ groupAt s' gid.val = some g' ∧
      (urgentFull s .engine = false → Sent1 s s' .engine g.cfg.dsem 1 g.job) ∧
      (∀ x ∈ g'.windows, x.lam = w.lam → x.done = true) ∧ s'.granary = s.granary ∧ (∀ n, (sem s' n).count = (sem s n).count) ∧
      g'.partials = g.partials ++ (if g.cfg.norm = true ∧ g.primary.isSome = true then [(w.lam, windowPartial g w)] else []))

namespace Sys2Proof.Machine

/-- The norm and its scale as a pair of sums gives them (R319). -/
def normOf (clip a b : Word32) : Word32 × Word32 × Bool :=
  let x := rn32 ((val32 a).add (val32 b))
  (x, (normScale clip x).1, (normScale clip x).2)

/-- The norm line of pair (a, b) is stored, its bytes 9 to 63 whatever they are, and NSEM signalled. -/
def NormIsDone (s s' : State) (r : StepRec) (a b : Word32) : Prop :=
  let k := normOf r.clip a b
  s'.stook.normSent = none ∧ s'.stook.s = k.1 ∧ s'.stook.scale = k.2.1 ∧ s'.stook.flag = k.2.2 ∧
  (∃ rest : List Byte, rest.length = 55 ∧
    Stored s s' r.naddr (toLe 4 k.1.toNat ++ toLe 4 k.2.1.toNat ++ toLe 1 (boolNat k.2.2) ++ rest)) ∧
  (urgentFull s .engine = false → Sent1 s s' .engine r.nsem 1 s.stook.job) ∧ count s' 0xA580 9 = count s 0xA580 9 + 1

/-- The job that commits runs step record r, with no engine task waiting and no value of the tree held. -/
def StepRuns (s : State) (r : StepRec) : Prop :=
  s.stook.step = some r ∧ s.stook.job ≠ 0 ∧ (jobOf s s.stook.job).st = 2 ∧ s.stook.tasks = [] ∧ s.stook.tree = []

/-- The job has begun to roll back. -/
def RollsBack (s s' : State) : Prop :=
  (jobOf s' s.stook.job).st = 3 ∧ s'.stook.commitState = 3 ∧ s'.stook.vote = some false ∧
  count s' 0xA580 8 = count s 0xA580 8 + 1 ∧ s'.granary = s.granary

end Sys2Proof.Machine

/-- NORM_CONTRIBUTION sums the members' partials: a job of one module has its norm line at once, a member sends its pair to
its leader, as an URGENT message; NORM_ROUND_COMPLETE writes the line of the root's pair. -/
def Obligations.NormRoundsWriteTheirLine : Prop :=
  ∀ (s : State) (r : StepRec), StepRuns s r →
    (s.stook.normSent = none → (jobModules s s.stook.job).length = 1 → s.stook.bad = false → Quiet s →
      ∃ s', exec (.normContribution 1) s = .next s' ∧
        NormIsDone s s' r (sumPairs (0, 0) (normPartials s)).1 (sumPairs (0, 0) (normPartials s)).2) ∧
    (s.stook.normSent = none → treeIndex s s.stook.job % 32 ≠ 0 →
      ∃ u v, v = sumPairs (0, 0) (normPartials s) ∧ u.stook.normSent = some v ∧ normPartials u = [] ∧
        u = { s with stook := u.stook } ∧ exec (.normContribution 1) s = .next (treeUp u s.stook.job 0 v.1 v.2 true)) ∧
    (∀ a b, s.stook.normSent.isSome = true → s.stook.bad = false → Quiet s → MapsNamePorts s →
      ∃ s', exec (.normRoundComplete a b) s = .next s' ∧ NormIsDone s s' r a b)

/-- A member's vote goes to its leader in round 1, and its second bit in round 2; a 0 in either round begins the rollback;
the 1 of round 2 commits: the step is counted, the state of the next rollback is saved, translation is read afresh and CSEM
is signalled; when every module is quiescent the saved state and the cursors are back, and the job runs again. -/
def Obligations.CommitTakesTwoRounds : Prop :=
  (∀ (s : State) (r : StepRec), StepRuns s r → MapsNamePorts s →
    (s.stook.vote = none →
      (treeIndex s s.stook.job % 32 ≠ 0 → ∃ u, u.stook.vote = some true ∧ u.stook.commitState = 1 ∧
        u = { s with stook := u.stook } ∧ exec (.commitVote 1) s = .next (treeUp u s.stook.job 1 0 0 true)) ∧
      (∃ s', exec (.commitVote 2) s = .next s' ∧ RollsBack s s')) ∧
    (s.stook.commitState = 1 → s.stook.badSinceVote = false → cursorsLost s r r.curb = false → treeIndex s s.stook.job % 32 ≠ 0 →
      ∃ u v, v = treeDown s s.stook.job 1 0 0 true ∧ u.stook.commitState = 2 ∧ count u 0xA580 9 = count v 0xA580 9 + 1 ∧
        u = { v with stook := u.stook, counts := u.counts } ∧
        exec (.commitRound1 true) s = .next (treeUp u s.stook.job 2 0 0 true)) ∧
    (∃ s', exec (.commitRound1 false) s = .next s' ∧ RollsBack s s') ∧
    (s.stook.commitState = 2 → ∃ s', exec (.commitRound2 false) s = .next s' ∧ RollsBack s s') ∧
    (s.stook.commitState = 2 → s.stook.bad = false → Quiet s →
      ∃ s', exec (.commitRound2 true) s = .next s' ∧ s'.stook.steps = s.stook.steps + 1 ∧ s'.stook.commitState = 0 ∧
        s'.stook.vote = none ∧ (urgentFull s .engine = false → Sent1 s s' .engine r.csem 1 s.stook.job) ∧ OnlyStored s s' (taskWrites s r .commit) ∧
        s'.stook.saved.credit = s.sowing.credit ∧ s'.stook.saved.next = s.sowing.next ∧
        (r.ncp = 0 → readBytes s'.granary r.retc (8 * r.ncur) = readBytes s.granary r.curb (8 * r.ncur)))) ∧
  (∀ (s : State) (r : StepRec) (i : Nat), slotOf s s.stook.job = some i → (jobAt s i).st = 3 →
    quiescent s s.stook.job = true → s.stook.step = some r → s.stook.tasks = [] → Quiet s → MapsNamePorts s →
    ∃ s', exec .rollbackQuiescent s = .next s' ∧ (jobAt s' i).st = 2 ∧ s'.stook.commitState = 0 ∧ s'.stook.vote = none ∧
      s'.stook.bad = false ∧ count s' 0xA580 9 = count s 0xA580 9 + 1 ∧
      readBytes s'.granary r.curb (8 * r.ncur) = readBytes s.granary r.retc (8 * r.ncur) ∧
      (s.sowing.holder = (jobAt s i).man.job → s'.sowing.credit = s.stook.saved.credit ∧ s'.sowing.flights = []))

namespace Sys2Proof.Machine

/-! ## Jobs -/

/-- Nothing of the jobs but this slot has changed, and the slot's job has ended with this state and reason; its completion
record is due where the manifest names one. -/
def Ended (s s' : State) (slot st reason : Nat) : Prop :=
  jobAt s' slot = { jobAt s slot with
    st := st, reason := reason, endAux := s.clocks.aux, record := decide ((jobAt s slot).man.crec ≠ 0) } ∧
  (∀ j, j ≠ slot → jobAt s' j = jobAt s j) ∧ s'.granary = s.granary

/-- No stream of the job's Tillers is left. -/
def StreamsGone (s s' : State) (job : Nat) : Prop :=
  ∀ t : Tid, (til s t).job = job → job ≠ 0 → (til s' t).ctxs = []

/-- The thread of a started job: at its entry, with its number, Tiller, Drill width and argument address in x1 to x4. -/
def StartedAt (s' : State) (id n e ahop : Nat) : Prop :=
  let x := thr (tilAt s' id) n
  x.st = .ready ∧ x.pc = BitVec.ofNat 64 (4 * e) ∧ reg x 1 = BitVec.ofNat 64 n ∧ reg x 2 = BitVec.ofNat 64 id ∧
  reg x 3 = BitVec.ofNat 64 (drillWidth (tilAt s' id)) ∧ reg x 4 = BitVec.ofNat 64 ahop ∧
  (∀ r : Reg, 5 ≤ r.toNat → reg x r = 0)

end Sys2Proof.Machine

/-- ADMISSION_AND_COMPLETE starts the threads of an admitted job; ADMISSION_AND_TIMEOUT and PROGRESS_LIMIT_EXPIRY end a job
that has made no progress for PLIM; JOB_END_NOTICE ends a job that another module has ended; COMPLETION_RECORD writes the
line at CREC, once. -/
def Obligations.JobsStartAndEnd : Prop :=
  ∀ (s : State) (slot : Fin 4) (j : Job), j = jobAt s slot.val →
    (j.st = 1 → (j.man.entries.map (·.1)).Nodup → (commitOn s j.man.job = true → s.stook.bad = false) →
      ∃ s', exec (.admissionAndComplete slot) s = .next s' ∧ (jobAt s' slot.val).st = 2 ∧
        (jobAt s' slot.val).startAux = some s.clocks.aux ∧ s'.granary = s.granary ∧
        ∀ id ∈ j.man.tset, ∀ e ∈ j.man.entries, StartedAt s' id e.1 e.2 j.man.ahop) ∧
    (j.st = 1 → j.progress + 25000 * j.man.plim ≤ s.clocks.aux →
      ∃ s', exec (.admissionAndTimeout slot) s = .next s' ∧ Ended s s' slot.val 5 0x0D ∧ StreamsGone s s' j.man.job) ∧
    ((j.st = 2 ∨ j.st = 3) → j.progress + 25000 * j.man.plim ≤ s.clocks.aux →
      ∃ s', exec (.progressLimitExpiry slot) s = .next s' ∧ Ended s s' slot.val 5 0x20 ∧ StreamsGone s s' j.man.job) ∧
    (∀ job : Word32, slotOf s job.toNat = some slot.val → jobLive j = true →
      ∃ s', exec (.jobEndNotice job) s = .next s' ∧ Ended s s' slot.val 5 0x22 ∧ StreamsGone s s' j.man.job) ∧
    (j.record = true → Quiet s →
      ∃ s', exec (.completionRecord slot) s = .next s' ∧ Stored s s' j.man.crec (recordLine s j) ∧
        jobAt s' slot.val = { j with record := false })

namespace Sys2Proof.Machine

/-! ## Requests of the dictionary -/

/-- The dictionary answers on a transport, in a module that is awake and not going to sleep, outside recovery and
changeover. -/
def Serves (s : State) (o : Origin) : Prop :=
  answers s o = true ∧ s.sec.bootMode ≠ 2 ∧ (s.power.st = .run ∨ s.power.st = .idle) ∧ s.power.target = none ∧
  s.power.exiting = false ∧ s.dict.changeover = false

/-- The request's frame has come whole, its session is open on its transport, and none of its last 16 requests had this TAG. -/
def InSession (s : State) (h : ReqHead) : Prop :=
  Serves s h.origin ∧ h.bytes = none ∧ h.rsv = 0 ∧ h.sid.toNat ≤ 8 ∧ sessionCode s h.origin h.sid.toNat = 0 ∧
  ∀ p ∈ (sessionAt s h.sid.toNat).record, p.1.tag ≠ h.tag

/-- A request in a session may write the entry: its owner is present, and an out-of-band entry is written out of band. -/
def MayWrite (s : State) (h : ReqHead) (idx sub : Nat) : Prop :=
  InSession s h ∧ ownerAbsent s (holderOf h.origin h.sid.toNat) idx = false ∧
  (isOob idx sub .wo = true → h.origin = .outOfBand)

/-- The newest answer of the module is the response to this request. -/
def Replied (s' : State) (h : ReqHead) (op : BitVec 8) (e : Entry) (typ abort : Nat) (data : List Byte) : Prop :=
  s'.out.head? = some (.dict h.origin ⟨op ||| 0x80, h.sid, h.tag, e, typ, abort, data⟩)

/-- The write has been performed: response without abort code, counted once. -/
def WriteDone (s s' : State) (h : ReqHead) (idx sub typ : Nat) : Prop :=
  Replied s' h 2 (entry idx sub) typ 0 [] ∧ count s' 0xA100 1 = count s 0xA100 1 + 1

end Sys2Proof.Machine

/-- ADMIT checks its manifest at once where nothing holds it, counts it and reports its result, and an admitted job takes the
lowest free slot. ABORT ends a live job with reason 0x30. FREE_SLOT writes a completion record that is still due, empties the
slot of an ended job and gives its Tillers back. HOST_SIG sends its count to the named semaphore. -/
def Obligations.JobRequestsAct : Prop :=
  ∀ (s : State) (h : ReqHead),
    (∀ ga : Word64, MayWrite s h 0x1000 1 → s.admitHeld = none → s.sec.unlock = none → Quiet s →
      ∃ s', exec (.admitJob h ga) s = .next s' ∧ WriteDone s s' h 0x1000 1 5 ∧ s'.admitHeld = none ∧
        s'.admitResult = admitCheck s ga.toNat ∧ count s' 0x1000 5 = count s 0x1000 5 + 1 ∧
        (∀ slot, (upto 4).find? (fun i => decide ((jobAt s i).st = 0)) = some slot →
          (admitCheck s ga.toNat = 0 → s.stook.bad = false → s'.admitSlot = slot ∧ s'.power.st = .run ∧
            ((jobAt s' slot).st = 1 ∨ (jobAt s' slot).st = 2) ∧
            (jobAt s' slot).man.job = (MHead.parse (gran s ga.toNat 512)).job) ∧
          (admitCheck s ga.toNat ≠ 0 → s'.jobs = s.jobs ∧ s'.tillers = s.tillers))) ∧
    (∀ slot : Fin 4, MayWrite s h (0x1010 + slot.val) 5 → jobLive (jobAt s slot.val) = true →
      ∃ s', exec (.abort h slot) s = .next s' ∧ WriteDone s s' h (0x1010 + slot.val) 5 1 ∧ Ended s s' slot.val 6 0x30 ∧
        StreamsGone s s' (jobAt s slot.val).man.job) ∧
    (∀ slot : Fin 4, MayWrite s h (0x1010 + slot.val) 6 → 4 ≤ (jobAt s slot.val).st → (jobAt s slot.val).st ≤ 6 →
      ((jobAt s slot.val).record = true → Quiet s) →
      ∃ s', exec (.freeSlot h slot) s = .next s' ∧ WriteDone s s' h (0x1010 + slot.val) 6 1 ∧
        ((jobAt s slot.val).record = true → Stored s s' (jobAt s slot.val).man.crec (recordLine s (jobAt s slot.val))) ∧
        jobAt s' slot.val = Job.reset ∧ (∀ j, j ≠ slot.val → jobAt s' j = jobAt s j) ∧
        ∀ id, (tilAt s id).job = (jobAt s slot.val).man.job → (tilAt s' id).job = 0) ∧
    (∀ v : Word64, MayWrite s h 0x1020 1 → v.toNat < 2 ^ 36 → semJob s (v.toNat % 2 ^ 20) ≠ 0 →
      urgentFull s .host = false → ∃ s', exec (.hostSig h v) s = .next s' ∧ WriteDone s s' h 0x1020 1 5 ∧
        Sent1 s s' .host (v.toNat % 2 ^ 20) (v.toNat / 2 ^ 20) (semJob s (v.toNat % 2 ^ 20)))

namespace Sys2Proof.Machine

/-- The value of the requests that name a stream context: its Tiller ID and its number. -/
def ctxValue (c : CtxId) : Nat := tilKey c.til + 65536 * c.ctx.val

end Sys2Proof.Machine

/-- COUNTER_ARM_WRITE asks a counter that a job holds, through the dictionary's port, for a new epoch. CLEAR_LONGEST_WAIT, SNAPSHOT, STORE_SETTINGS and
ERASE_SETTINGS begin what they name; STORE_COMPLETE and SNAPSHOT_COMPLETE end it with the values in force.
TRANSLATION_INVALIDATE begins an invalidation, and INVALIDATION_COMPLETE puts the job's table as it now stands in force, with no
granule of a page valid that the table enters anew. -/
def Obligations.ServiceRequestsAct : Prop :=
  ∀ (s : State) (h : ReqHead),
    (∀ (index : BitVec 16) (limit : Word32) (die num : Nat), index.toNat = 0x2800 + 0x80 * die + num → die < 9 → num < 0x80 →
      index.toNat < 0x2C40 → MayWrite s h index.toNat 5 → (furrow s die num).job ≠ 0 → furUp s die = true →
      ∃ s', exec (.counterArmWrite h index limit) s = .next s' ∧ WriteDone s s' h index.toNat 5 4 ∧
        s'.furrowQ = enqueue s.furrowQ ⟨die, num, none, some limit, 0, furClock s die, dictPort die⟩ ∧
        s'.furrows = s.furrows) ∧
    (MayWrite s h 0x4500 7 → ∃ s', exec (.clearLongestWait h) s = .next s' ∧ WriteDone s s' h 0x4500 7 2 ∧ s'.longest = none) ∧
    (MayWrite s h 0xA31F 1 → ∃ s', exec (.snapshot h) s = .next s' ∧ WriteDone s s' h 0xA31F 1 2 ∧
      s'.dict.snapshotting = true ∧ s'.dict.snapshotDone = false) ∧
    (s.dict.snapshotting = true → ∃ s', exec .snapshotComplete s = .next s' ∧ s'.dict.snapshotDone = true ∧
      s'.dict.snapshotting = false ∧ (∀ idx sub, 0xA300 ≤ idx → idx < 0xA310 → sub < 256 →
        kvGet 0 s'.dict.snapshot (od idx sub) = count s idx sub) ∧ s' = { s with dict := s'.dict }) ∧
    (MayWrite s h 0x1202 1 → s.dict.storing = none → ∃ s', exec (.storeSettings h) s = .next s' ∧
      WriteDone s s' h 0x1202 1 2 ∧ s'.dict.storing = some (some s.dict.active) ∧ s'.dict.storeDone = false) ∧
    (MayWrite s h 0x1202 2 → s.dict.storing = none → ∃ s', exec (.eraseSettings h) s = .next s' ∧
      WriteDone s s' h 0x1202 2 2 ∧ s'.dict.storing = some none ∧ s'.dict.storeDone = false) ∧
    (∀ what, s.dict.storing = some what →
      exec .storeComplete s = .next { s with dict := { s.dict with stored := what, storing := none, storeDone := true } }) ∧
    (∀ job : BitVec 16, MayWrite s h 0x4010 1 → s.dict.invalidating = none →
      ∃ s', exec (.translationInvalidate h job) s = .next s' ∧ WriteDone s s' h 0x4010 1 3 ∧
        s'.dict.invalidating = some job.toNat ∧ s'.dict.invalidDone = false ∧ s'.jobs = s.jobs) ∧
    (∀ job i, s.dict.invalidating = some job → slotOf s job = some i →
      snoopAll s [((jobAt s i).man.ttb, 16 * (jobAt s i).man.ttn)] false = (s, true) →
      ∃ s', exec .invalidationComplete s = .next s' ∧ s'.dict.invalidating = none ∧ s'.dict.invalidDone = true ∧
        jobAt s' i = { jobAt s i with
          xlate := readTable s (jobAt s i).man.ttb (jobAt s i).man.ttn,
          man := { (jobAt s i).man with barnPorts := tablePorts s (readTable s (jobAt s i).man.ttb (jobAt s i).man.ttn) } } ∧
        (∀ p ∈ readTable s (jobAt s i).man.ttb (jobAt s i).man.ttn, xKind p.2 = 2 → kvGet 0 (jobAt s i).xlate p.1 ≠ p.2 →
          barnFrame s (xFrame p.2) = false → ∀ n, n < 512 → validGranule s' (xFrame p.2 + 4096 * n) = false) ∧
        (∀ j, j ≠ i → jobAt s' j = jobAt s j) ∧
        s' = { s with jobs := s'.jobs, dict := s'.dict, valid := s'.valid, dirty := s'.dirty, bales := s'.bales })

namespace Sys2Proof.Machine

/-- A halted context has been resumed, its other parts but the pin and the fault as before: it runs again where the Harrow is
RUNNING, and goes on with the Harrow otherwise. -/
def Resumed (s s' : State) (c : CtxId) : Prop :=
  ctxAt s' c = { ctxAt s c with st := if running s 0x20 then .running else .halted, fault := none, pinned := none }

end Sys2Proof.Machine

/-- RESUME lets a HALTED context go on from where it halted, and RESUME_JOB every HALTED context of a job;
STREAM_AUTO_RESUME does it for one whose Barn granule has come, and for one that was resumed while the Harrow was not RUNNING. ABANDON ends the job of a HALTED context. RETIRE_PORT retires a
port, and RETRAIN_PORT lets a retired one of a RUNNING group train again. -/
def Obligations.HaltedStreamsAndPortsAreServed : Prop :=
  ∀ (s : State) (h : ReqHead),
    (∀ (c : CtxId) (v : Word32), v.toNat = ctxValue c → (ctxAt s c).st = .halted →
      (MayWrite s h 0x4711 1 → ∃ s', exec (.resume h v) s = .next s' ∧ WriteDone s s' h 0x4711 1 4 ∧ Resumed s s' c ∧
        SameContexts s s' c ∧ s'.granary = s.granary) ∧
      (∀ i, MayWrite s h 0x4711 2 → slotOf s (ctxAt s c).job = some i → jobLive (jobAt s i) = true → s.held = [] →
        ∃ s', exec (.abandon h v) s = .next s' ∧ WriteDone s s' h 0x4711 2 4 ∧ ctxAt s' c = Ctx.reset ∧
          (jobAt s' i).st = 5 ∧ (jobAt s' i).reason = 0x02) ∧
      (∀ job : Word32, MayWrite s h 0x4711 3 → (ctxAt s c).job = job.toNat →
        ∃ s', exec (.resumeJob h job) s = .next s' ∧ WriteDone s s' h 0x4711 3 4 ∧ Resumed s s' c ∧ s'.granary = s.granary) ∧
      (∀ f, (ctxAt s c).fault = some f → f.kind = 3 → stillInvalid s (ctxAt s c) f = false → running s 0x20 = true →
        ∃ s', exec (.streamAutoResume c) s = .next s' ∧ ctxAt s' c = { ctxAt s c with st := .running } ∧
          SameContexts s s' c ∧ count s' 0xA400 10 = count s 0xA400 10 + 1 ∧
          s' = { s with tillers := s'.tillers, counts := s'.counts }) ∧
      ((ctxAt s c).fault = none → running s 0x20 = true →
        ∃ s', exec (.streamAutoResume c) s = .next s' ∧ ctxAt s' c = { ctxAt s c with st := .running } ∧
          SameContexts s s' c ∧ s' = { s with tillers := s'.tillers })) ∧
    (∀ n : Byte, n.toNat < 64 → beyondAcre s n.toNat = false →
      (MayWrite s h 0x5010 2 → (portAt s n.toNat).st ≠ 0 → (portAt s n.toNat).st ≠ 5 →
        ∃ s', exec (.retirePort h n) s = .next s' ∧ WriteDone s s' h 0x5010 2 2 ∧ (portAt s' n.toNat).st = 5 ∧
          (portAt s' n.toNat).reason = 0x14 ∧ s'.granary = s.granary) ∧
      (MayWrite s h 0x5010 3 → (portAt s n.toNat).st = 5 → running s (portFn n.toNat) = true →
        ∃ s', exec (.retrainPort h n) s = .next s' ∧ WriteDone s s' h 0x5010 3 2 ∧ (portAt s' n.toNat).st = 2 ∧
          (portAt s' n.toNat).step = 1 ∧ s'.granary = s.granary))

namespace Sys2Proof.Machine

/-! ## Function control -/

/-- A control object of a function that the module has. -/
def Controls (s : State) (fn : BitVec 8) : Prop := fnPresent s.variant fn.toNat = true

/-- Every value that the owner's control object governs reads, in this set, what it reads in that one; and the values of other
owners are as they were. -/
def OwnerTook (ctl : Nat) (new old from_ : KV Nat) : Prop := new = mergeOwned ctl old from_

end Sys2Proof.Machine

/-- The commands to a function's control object: STOP and FORCED_STOP begin or finish a stop, the forced one once the jobs that
use the function have ended; START begins a start; SWAP leaves a swap pending for the owner's safe point; DISCARD gives up the
edits and the lock; LOAD_PREVIOUS edits the previous set in. -/
def Obligations.FunctionsTakeTheirCommands : Prop :=
  ∀ (s : State) (h : ReqHead) (fn : BitVec 8) (c : FnCtl), c = fnGet s fn.toNat → Controls s fn →
    MayWrite s h (0x1100 + fn.toNat) 2 →
    (c.st = .running → c.enable = false → c.swapPending = false →
      (jobsUsing s fn.toNat = [] → ∃ s', exec (.stop h fn) s = .next s' ∧ WriteDone s s' h (0x1100 + fn.toNat) 2 2 ∧
        ((fnGet s' fn.toNat).st = .stopping ∨ (fnGet s' fn.toNat).st = .stopped)) ∧
      (jobsUsing s fn.toNat ≠ [] → ∃ s', exec (.stop h fn) s = .next s' ∧
        Replied s' h 2 (entry (0x1100 + fn.toNat) 2) 2 0x0502 [] ∧ fnGet s' fn.toNat = c ∧ s'.jobs = s.jobs) ∧
      (∃ s', exec (.forcedStop h fn) s = .next s' ∧ WriteDone s s' h (0x1100 + fn.toNat) 2 2 ∧
        ((fnGet s' fn.toNat).st = .stopping ∨ (fnGet s' fn.toNat).st = .stopped) ∧
        ∀ i ∈ jobsUsing s fn.toNat, (jobAt s' i).st = 6 ∧ (jobAt s' i).reason = 0x30)) ∧
    (c.st = .stopped → mayStart s fn.toNat = true →
      ∃ s', exec (.start h fn) s = .next s' ∧ WriteDone s s' h (0x1100 + fn.toNat) 2 2 ∧ (fnGet s' fn.toNat).st = .starting ∧
        (fnGet s' fn.toNat).swapPending = false) ∧
    (fn ≠ 0x11 → (c.lock = 0 ∨ c.lock = h.sid.toNat) → c.swapPending = false →
      (edited s fn.toNat = true → c.st = .running → fn ≠ 0x60 →
        ∃ s', exec (.swap h fn) s = .next s' ∧ WriteDone s s' h (0x1100 + fn.toNat) 2 2 ∧
          fnGet s' fn.toNat = { c with swapPending := true, switched := [] } ∧ s'.dict.active = s.dict.active) ∧
      (edited s fn.toNat = true → c.st = .stopped →
        ∃ s', exec (.swap h fn) s = .next s' ∧ WriteDone s s' h (0x1100 + fn.toNat) 2 2 ∧
          (fnGet s' fn.toNat).swapPending = false ∧ (fnGet s' fn.toNat).lock = 0 ∧
          OwnerTook fn.toNat s'.dict.active s.dict.active s.dict.shadow ∧
          OwnerTook fn.toNat s'.dict.previous s.dict.previous s.dict.active) ∧
      (∃ s', exec (.discard h fn) s = .next s' ∧ WriteDone s s' h (0x1100 + fn.toNat) 2 2 ∧
        fnGet s' fn.toNat = { c with lock := 0 } ∧ OwnerTook fn.toNat s'.dict.shadow s.dict.shadow s.dict.active ∧
        s'.dict.active = s.dict.active) ∧
      (∃ s', exec (.loadPrevious h fn) s = .next s' ∧ WriteDone s s' h (0x1100 + fn.toNat) 2 2 ∧
        fnGet s' fn.toNat = { c with lock := h.sid.toNat } ∧
        OwnerTook fn.toNat s'.dict.shadow s.dict.shadow s.dict.previous ∧ s'.dict.active = s.dict.active))

/-- SAFE_POINT_SWAP of the last unit puts the shadow set in force; STOPPING_COMPLETE and STARTING_COMPLETE end their states;
FUNCTION_FAULT makes a function FAULTED with its reason, its place and the state it was in; RECOVERY_END starts it again where
it was to run, and leaves it STOPPED otherwise. -/
def Obligations.FunctionsChangeState : Prop :=
  ∀ (s : State) (fn : BitVec 8) (c : FnCtl), c = fnGet s fn.toNat → Controls s fn →
    (∀ unit, c.st = .running → c.swapPending = true → (fn = 0x60 → s.admitHeld = none) → unit ∈ unitsOf s fn.toNat →
      (∀ u ∈ unitsOf s fn.toNat, u ∈ c.switched ∨ u = unit) →
      ∃ s', exec (.safePointSwap fn unit) s = .next s' ∧ OwnerTook fn.toNat s'.dict.active s.dict.active s.dict.shadow ∧
        OwnerTook fn.toNat s'.dict.previous s.dict.previous s.dict.active ∧
        fnGet s' fn.toNat = { c with swapPending := false, lock := 0, switched := [] } ∧
        count s' 0xA100 3 = count s 0xA100 3 + 1) ∧
    (c.st = .stopping → stopReady s fn.toNat = true → c.swapPending = false → c.enable = false →
      ∃ s', exec (.stoppingComplete fn) s = .next s' ∧
        fnGet s' fn.toNat = { c with st := .stopped, since := s.clocks.aux }) ∧
    (c.st = .starting → s.board.step = 11 → startHeld s fn.toNat = false → c.swapPending = false → c.stopRec = false →
      ∃ s', exec (.startingComplete fn) s = .next s' ∧ (fnGet s' fn.toNat).st = .running) ∧
    (∀ (reason : BitVec 8) (place : Nat), reasonFits fn.toNat reason.toNat = true → c.st ≠ .faulted → c.st ≠ .absent →
      ∃ s', exec (.functionFault fn reason place) s = .next s' ∧ (fnGet s' fn.toNat).st = .faulted ∧
        (fnGet s' fn.toNat).reason = reason.toNat ∧ (fnGet s' fn.toNat).before = c.st ∧
        (fnGet s' fn.toNat).place = place ∧ count s' 0xA100 8 = count s 0xA100 8 + 1) ∧
    (8 < fn.toNat → c.st = .faulted → recoverReady s fn.toNat = true → s.sec.bootMode ≠ 2 → c.swapPending = false →
      ∃ s', exec (.recoveryEnd fn .pass) s = .next s' ∧
        (fnGet s' fn.toNat).st =
          (if c.enable = true ∨ ((c.before = .starting ∨ c.before = .running) ∧ c.stopRec = false) then .starting
           else .stopped))

namespace Sys2Proof.Machine

/-! ## Reads, writes and sessions -/

/-- A request of an open session, or one that names none. -/
def MayRequest (s : State) (h : ReqHead) : Prop :=
  InSession s h ∨ (h.sid = 0 ∧ h.bytes = none ∧ h.rsv = 0 ∧ Serves s h.origin)

/-- The set of values that a READ's SET field selects (R371): 0 active, 1 shadow, 2 previous. -/
def setRead (s : State) (set : BitVec 2) : KV Nat :=
  if set = 0 then s.dict.active else if set = 1 then s.dict.shadow else s.dict.previous

end Sys2Proof.Machine

/-- READ of a hot setting answers its value in the set it names; WRITE of one that passes its checks goes into the owner's
shadow set and locks the set, the active set staying as it was; a cold setting has one value, which READ answers and WRITE
replaces while its owners are STOPPED, the value in force staying as it was, and otherwise leaves with 0x0203; WRITE of an entry that cannot be written is refused with 0x0201
and changes no setting; DESCRIBE answers the attributes of an entry. -/
def Obligations.SettingsAreReadAndWritten : Prop :=
  ∀ (s : State) (h : ReqHead) (e : Entry) (idx sub : Nat) (t : OdType), idx = e.index.toNat → sub = e.sub.toNat → sub ≤ 99 →
    (odEntry idx sub = some (t, .rws) → sub ≠ 0 → MayRequest s h → t.long = false →
      ownerAbsent s (holderOf h.origin h.sid.toNat) idx = false →
      ∀ set : BitVec 2, set ≠ 3 → ∃ s', exec (.read h e set 0) s = .next s' ∧
        Replied s' h 1 e t.code 0 (toLe t.size (setIn (setRead s set) idx sub)) ∧ s'.dict.active = s.dict.active ∧
        s'.dict.shadow = s.dict.shadow ∧ count s' 0xA100 1 = count s 0xA100 1 + 1) ∧
    (∀ (data : List Byte) (ctl : Nat), odEntry idx sub = some (t, .rws) → sub ≠ 0 → InSession s h →
      ownerAbsent s (holderOf h.origin h.sid.toNat) idx = false → data.length = t.size →
      valueCode s t .rws idx sub data = 0 → setHolder idx = some ctl →
      ((fnGet s ctl).lock = 0 ∨ (fnGet s ctl).lock = h.sid.toNat) → (fnGet s ctl).swapPending = false →
      ∃ s', exec (.write h e 0 data) s = .next s' ∧ Replied s' h 2 e t.code 0 [] ∧
        setIn s'.dict.shadow idx sub = leNat data ∧
        (∀ i k, od i k ≠ od idx sub → setIn s'.dict.shadow i k = setIn s.dict.shadow i k) ∧
        s'.dict.active = s.dict.active ∧ fnGet s' ctl = { fnGet s ctl with lock := h.sid.toNat }) ∧
    (odEntry idx sub = some (t, .rwc) → sub ≠ 0 → isPers idx sub = false → t.long = false →
      ownerAbsent s (holderOf h.origin h.sid.toNat) idx = false →
      (MayRequest s h → ∃ s', exec (.read h e 0 0) s = .next s' ∧
        Replied s' h 1 e t.code 0 (toLe t.size (setIn s.dict.active idx sub)) ∧ s'.dict.active = s.dict.active) ∧
      (∀ data, InSession s h → data.length = t.size → valueCode s t .rwc idx sub data = 0 →
        ((∀ o ∈ coldOwners idx, (fnGet s o).st = .absent ∨ (fnGet s o).st = .stopped) →
          ∃ s', exec (.write h e 0 data) s = .next s' ∧ Replied s' h 2 e t.code 0 [] ∧
            setIn s'.dict.active idx sub = leNat data ∧ s'.dict.cold = s.dict.cold ∧ s'.dict.shadow = s.dict.shadow) ∧
        ((∃ o ∈ coldOwners idx, (fnGet s o).st ≠ .absent ∧ (fnGet s o).st ≠ .stopped) →
          ∃ s', exec (.write h e 0 data) s = .next s' ∧ Replied s' h 2 e t.code 0x0203 [] ∧
            s'.dict.active = s.dict.active ∧ s'.dict.cold = s.dict.cold))) ∧
    (∀ data, (odEntry idx sub = some (t, .ro) ∨ odEntry idx sub = some (t, .con)) → InSession s h → data.length ≤ 4080 →
      entryCode idx sub = 0 →
      ∃ s', exec (.write h e 0 data) s = .next s' ∧ Replied s' h 2 e t.code 0x0201 [] ∧ s'.dict.active = s.dict.active ∧
        s'.dict.shadow = s.dict.shadow ∧ s'.fns = s.fns) ∧
    (∀ a, odEntry idx sub = some (t, a) → entryCode idx sub = 0 → MayRequest s h →
      ∃ s', exec (.describe h e) s = .next s' ∧
        Replied s' h 4 e t.code 0 (describeBytes s (holderOf h.origin h.sid.toNat) idx sub) ∧
        s' = { s with dict := s'.dict, counts := s'.counts, out := s'.out })

namespace Sys2Proof.Machine

/-- The session numbers of a transport: 1 to 4 through the mailboxes, 5 to 8 out of band. -/
def sessionNumbers (o : Origin) : List Nat :=
  match o with
  | .mailbox _ => [1, 2, 3, 4]
  | .outOfBand => [5, 6, 7, 8]

end Sys2Proof.Machine

/-- SESSION OPEN takes the lowest free number of its transport, and is refused with 0x0402 where none is free; KEEPALIVE
starts the idle time again; SESSION CLOSE frees the number; BATCH answers with the responses of its members; a mailbox command
whose payload is shorter than a header, or longer than LEN allows, is Invalid Input and no request;
SESSION_IDLE_TIMEOUT closes a session that has been idle for `OD 1201:01`, and its number then answers 0x0404. -/
def Obligations.SessionsOpenAndClose : Prop :=
  ∀ (s : State) (h : ReqHead),
    (∀ p n e, h.origin = .mailbox p → Serves s h.origin → h.bytes = some n → n ≠ 16 →
      ∀ c ∈ [Instr.keepalive h, .sessionOpen h, .sessionClose h, .describe h e],
        ∃ s', exec c s = .next s' ∧ s'.out = .mailboxInvalid p :: s.out ∧ s'.dict = s.dict) ∧
    (h.sid = 0 → h.bytes = none → h.rsv = 0 → Serves s h.origin →
      (∀ n, (sessionNumbers h.origin).find? (fun n => decide ((sessionAt s n).kind = 0)) = some n →
        ∃ s', exec (.sessionOpen h) s = .next s' ∧
          s'.out.head? = some (.dict h.origin ⟨0x88, BitVec.ofNat 8 n, h.tag, entry 0 0, 0, 0, []⟩) ∧
          sessionAt s' n = { Session.reset with kind := originKind h.origin, last := s.clocks.aux } ∧
          (∀ m, m ≠ n → sessionAt s' m = sessionAt s m)) ∧
      ((∀ n ∈ sessionNumbers h.origin, (sessionAt s n).kind ≠ 0) →
        ∃ s', exec (.sessionOpen h) s = .next s' ∧
          s'.out.head? = some (.dict h.origin ⟨0x88, h.sid, h.tag, entry 0 0, 0, 0x0402, []⟩) ∧
          s'.dict.sessions = s.dict.sessions)) ∧
    (InSession s h →
      (∃ s', exec (.keepalive h) s = .next s' ∧ Replied s' h 0x0A (entry 0 0) 0 0 [] ∧
        (sessionAt s' h.sid.toNat).last = s.clocks.aux ∧ (∀ m, m ≠ h.sid.toNat → sessionAt s' m = sessionAt s m)) ∧
      (∃ s', exec (.sessionClose h) s = .next s' ∧ Replied s' h 9 (entry 0 0) 0 0 [] ∧
        sessionAt s' h.sid.toNat = Session.reset ∧
        ∀ ctl ∈ fnIds, (fnGet s ctl).lock = h.sid.toNat → (fnGet s ctl).swapPending = false → (fnGet s' ctl).lock = 0) ∧
      (∀ ms : List Request, (ms.flatMap requestBytes).length ≤ 4080 →
        ∃ s' data, exec (.batch h ms) s = .next s' ∧ Replied s' h 0x0C (entry 0 0) 0 0 data ∧
          data = (performMembers h.origin (touch s h.origin h.sid.toNat)
            (batchOf (plainFrame h 0x0C (ms.flatMap requestBytes)))).2.take 4080)) ∧
    (∀ sid : Fin 8, (sessionAt s (sid.val + 1)).kind ≠ 0 →
      (sessionAt s (sid.val + 1)).last + 25000 * setting s 0x1201 1 ≤ s.clocks.aux →
      ∃ s', exec (.sessionIdleTimeout sid) s = .next s' ∧ sessionAt s' (sid.val + 1) = Session.reset ∧
        (∀ m, m ≠ sid.val + 1 → sessionAt s' m = sessionAt s m) ∧ count s' 0xA100 5 = count s 0xA100 5 + 1 ∧
        ∀ o, sessionCode s' o (sid.val + 1) = 0x0404)

namespace Sys2Proof.Machine

/-! ## The CXL ports -/

/-- An access of a port comes through at once: the port is active, no host copy, held store or other access waits, the module
is awake, and the directory has room. -/
def PortServes (s : State) (p : Fin 2) (off : Nat) : Prop :=
  off < windowBytes ∧ (fnGet s (0x40 + p.val)).st ≠ .faulted ∧ (cxlPort s p.val).mem = true ∧ Quiet s ∧ s.cxl.waiting = [] ∧
  s.cxl.snoops = [] ∧ (s.power.st = .run ∨ s.power.st = .idle) ∧ s.power.target = none ∧ s.power.exiting = false

end Sys2Proof.Machine

/-- Host and peer accesses reach the Granary through the window; a host's line enters the directory, a peer's does not; an
access beyond the window names no address; an AtomicOp is unsupported; a snoop's answer brings a modified line home. -/
def Obligations.HostAccessesReachTheGranary : Prop :=
  windowBytes = 504 * 2 ^ 30 ∧
  (∀ o, o < windowBytes → windowGa o = (o / 2097152) % 8 * 2 ^ 36 + (o / 2097152) / 8 * 2 ^ 21 + o % 2097152 ∧
    windowGa o % 2 ^ 36 < 63 * 2 ^ 30) ∧
  ∀ (s : State) (p : Fin 2) (off : Nat),
    (windowBytes ≤ off → exec (.cxlMemRead p off .clean) s = .fault .noSuchAddress ∧
      (∀ data, exec (.cxlMemWrite p off data) s = .fault .noSuchAddress)) ∧
    (PortServes s p off → ∃ s', exec (.cxlMemRead p off .clean) s = .next s' ∧
        s'.out = .cxlData p (off / 64 * 64) (readBytes s.granary (windowGa off / 64 * 64) 64) :: s.out ∧
        s'.cxl.directory = [(windowGa off / 64, 5 * 2 ^ p.val)] ∧ s'.granary = s.granary ∧
        count s' (0xA640 + p.val) 1 = count s (0xA640 + p.val) 1 + 1) ∧
    (∀ data, PortServes s p off → data.length ≤ 64 - off % 64 →
      ∃ s', exec (.cxlMemWrite p off data) s = .next s' ∧ s'.out = .cxlDone p off :: s.out ∧
        Stored s s' (windowGa off) data ∧ s'.cxl.directory = [(windowGa off / 64, 2 ^ p.val)] ∧
        count s' (0xA640 + p.val) 2 = count s (0xA640 + p.val) 2 + 1) ∧
    (∀ data, PortServes s p off → data.length ≤ 64 - off % 64 →
      ∃ s', exec (.unorderedIoPeerAccess p off true data) s = .next s' ∧ s'.out = .cxlDone p off :: s.out ∧
        Stored s s' (windowGa off) data ∧ s'.cxl.directory = []) ∧
    (exec (.cxlIoAtomicop p off) s = .next (emit (wake s (2 + p.val)) (.cxlUnsupported p))) ∧
    (∀ line dirty inv, s.cxl.snoops = [(p.val, line, inv)] → s.cxl.directory = [(line, 5 * 2 ^ p.val)] → Still s →
      s.cxl.home = [] → s.cxl.waiting = [] → s.links.inbox = [] → s.admitHeld = none → s.stook.tasks = [] →
      s.stook.groups = [] → dirty.length = 64 →
      ∃ s', exec (.backInvalidateResponse p line dirty) s = .next s' ∧ s'.cxl.snoops = [] ∧
        Stored s s' (64 * line) dirty ∧ s'.cxl.directory = (if inv then [] else [(line, 2 ^ p.val)]))

/-- PERST_ASSERT and CXL_LINK_DOWN close the window of their port alone, and PERST_ASSERT resets its HDM decoders and leaves
every function's state; CXL_LINK_UP, at a width and a rate of Table 11-1, sets Memory_Active once start-up is done and the port's
function is RUNNING, and answers Configuration requests with Request Retry Status until then; REFERENCE_CLOCK_PRESENT and
PERST_RELEASE let it train; EXIT_FROM_L1 takes it out of L1. -/
def Obligations.HostLinksComeAndGo : Prop :=
  ∀ (s : State) (p q : Fin 2), q ≠ p →
    (∃ s', exec (.perstAssert p) s = .next s' ∧
        cxlPort s' p.val = { cxlPort s p.val with
          perst := true, decoders := [none, none], up := false, width := 0, rate := 0, mem := false, l1 := false, retry := false } ∧
        cxlPort s' q.val = cxlPort s q.val ∧ s'.fns = s.fns ∧ s'.granary = s.granary) ∧
    (∀ clk, ∃ s', exec (.perstRelease ⟨p, clk⟩) s = .next s' ∧
      cxlPort s' p.val = { cxlPort s p.val with perst := false, refclk := clk } ∧
      cxlPort s' q.val = cxlPort s q.val ∧ s' = { s with cxl := s'.cxl }) ∧
    (∀ width rate, s.power.st ≠ .deepSleep → (cxlPort s p.val).perst = false → (cxlPort s p.val).refclk = true →
      8 ≤ s.board.step → s.power.trip = false → (width = 8 ∨ width = 4 ∨ width = 2 ∨ width = 1) →
      (rate = 64 ∨ rate = 32 ∨ rate = 16 ∨ rate = 8) →
      ∃ s', exec (.cxlLinkUp p width rate) s = .next s' ∧ (cxlPort s' p.val).up = true ∧
        (cxlPort s' p.val).width = width.toNat ∧ (cxlPort s' p.val).rate = rate.toNat ∧
        ((cxlPort s' p.val).mem = true ↔ s.board.step = 11 ∧ (fnGet s (0x40 + p.val)).st = .running) ∧
        ((cxlPort s' p.val).retry = true ↔ s.board.step ≠ 11) ∧ cxlPort s' q.val = cxlPort s q.val ∧
        s' = { s with cxl := s'.cxl }) ∧
    (∃ s', exec (.cxlLinkDown p) s = .next s' ∧ (cxlPort s' p.val).up = false ∧ (cxlPort s' p.val).width = 0 ∧
      (cxlPort s' p.val).mem = false ∧ cxlPort s' q.val = cxlPort s q.val ∧
      s' = { s with cxl := s'.cxl, heldFailed := s'.heldFailed, slotWaits := s'.slotWaits }) ∧
    (startHeld s (0x40 + p.val) = false →
      ∃ s', exec (.referenceClockPresent p) s = .next s' ∧ cxlPort s' p.val = { cxlPort s p.val with refclk := true } ∧
        cxlPort s' q.val = cxlPort s q.val ∧ s' = { s with cxl := s'.cxl }) ∧
    (∃ s', exec (.exitFromL1 p) s = .next s' ∧ (cxlPort s' p.val).l1 = false ∧ cxlPort s' q.val = cxlPort s q.val ∧
      s'.granary = s.granary ∧
      (s.power.st = .sleep → s.power.target = none → s.power.exiting = false → s.power.trip = false → bitAt (setting s 0x7000 4) (1 + p.val) = true →
        s'.power.exiting = true ∧ s'.power.lastWake = 2 + p.val))

namespace Sys2Proof.Machine

/-! ## Riljo flits -/

/-- A flit of a TYPE comes through its port well: the port takes the type, the flit has no error, asks for no replay, and is
the next of the sequence. -/
def ComesWell (s : State) (p : Nat) (f : Flit) (typ : Nat) : Prop :=
  takes (portAt s p).st typ = true ∧ flitBad f typ = false ∧ f.nak = false ∧
  (sequenced typ = true → f.seq.toNat = ((portAt s p).rxSeq + 1) % 4096)

/-- The module after a flit has been counted, its ACK and its credits taken. -/
def acked (s : State) (p : Nat) (f : Flit) (typ : Nat) : State :=
  setPort (countFlit s p f typ) p (creditPort (ackPort s p (portAt s p) f.ack.toNat) f)

/-- The module after the link's part of a flit that has come well: it is counted; all but a TRAINING flit bring an ACK and
credits, with which flits that waited leave; a sequenced flit is the last one received, and its ACK is due. -/
def linkTaken (s : State) (p : Nat) (f : Flit) (typ : Nat) : State :=
  let t := if typ = 6 then countFlit s p f typ else pump (acked s p f typ) p
  if sequenced typ then setPort t p { portAt t p with rxSeq := f.seq.toNat, nakSent := false, ackDue := true } else t

/-- The sectors of a flit. -/
def sectorsIn (f : Flit) : List Byte := (padTo 320 f.payload).take (64 * f.nsec.toNat)

/-- A request of one flit that comes in order, for this module, at a port where no transaction is arriving in parts. -/
def RequestComes (s : State) (p : Nat) (f : Flit) (d : Nat) : Prop :=
  ComesWell s p f 1 ∧ f.dst.toNat = myId s ∧ (portAt (linkTaken s p f 1) p).parts = [] ∧ d = descOf (sectorsIn f) ∧
  1 ≤ f.nsec.toNat ∧ requestBad d = false ∧ descEseq d = kvGet 0 s.links.expect (flowKey f.src.toNat f.vc.toNat) ∧
  s.links.inbox = [] ∧ Quiet s

/-- The request has been performed: its flow expects the next one, and its response has gone to its source. -/
def Answered (s s' : State) (p : Nat) (f : Flit) (d : Nat) (data : List Byte) : Prop :=
  kvGet 0 s'.links.expect (flowKey f.src.toNat f.vc.toNat) = (descEseq d + 1) % 65536 ∧ s'.links.inbox = [] ∧
  ∃ u x, (∀ q, portAt u q = portAt (linkTaken s p f 1) q) ∧ x.port = p ∧ x.src = f.src.toNat ∧ x.vc = f.vc.toNat ∧
    x.tag = f.tag.toNat ∧ x.eseq = descEseq d ∧ x.sectors = descLen d ∧ x.flits = 1 ∧
    s'.out = (answer u x 0 data).out ∧ ∀ q, portAt s' q = portAt (answer u x 0 data) q

end Sys2Proof.Machine

/-- The flits that a port takes well. IDLE and LINK bring credits and an ACK; a NAK makes the port replay. A MAP for this module
replaces its sender's entry; a signal in an URGENT flit adds its count; a STOOK sum of a primary that one flit holds is taken; a REQUEST of one flit
that comes in order is performed and answered; a RESPONSE ends its transaction; a REPLAY_NOTICE sends every unacknowledged
request of the flow again. -/
def Obligations.FlitsThatComeWellAreTaken : Prop :=
  ∀ (s : State) (port : Fin 64) (f : Flit) (p : Nat), p = port.val →
    (ComesWell s p f 0 → exec (.idle port f) s = .next (linkTaken s p f 0)) ∧
    (ComesWell s p f 5 → exec (.link port f) s = .next (linkTaken s p f 5)) ∧
    (takes (portAt s p).st 5 = true → flitBad f 5 = false → f.nak = true →
      exec (.link port f) s = .next (pump (replayPort (acked s p f 5) p) p)) ∧
    (∀ m, ComesWell s p f 7 → f.dst.toNat = myId s → m.withdraw = false →
      ∃ s', exec (.map port f m) s = .next s' ∧
        s'.links.map = s.links.map.filter (fun e => decide (e.module ≠ m.module)) ++ [m] ∧
        s'.links.formed = acreFormed s' ∧ s'.granary = s.granary) ∧
    (∀ name n, ComesWell s p f 4 → f.dst.toNat = myId s → semOk name = true → (semTil name).isSome = true →
      (sem s name).count + n.toNat ≤ 65535 →
      ∃ s', exec (.urgent port f (.signal name n)) s = .next s' ∧
        (sem s' name).count = (sem s name).count + n.toNat ∧ (∀ m, m ≠ name → sem s' m = sem s m) ∧
        s' = { freeFlit (linkTaken s p f 4) p f 4 with sems := s'.sems }) ∧
    (∀ (m : StookMsg) (g : Group), ComesWell s p f 3 → f.dst.toNat = myId s → groupAt s m.gid.val = some g →
      (jobOf s g.job).st = 2 → running s 0x50 = true → inProgress g < 64 → s.links.stookIn = [] →
      (portAt (linkTaken s p f 3) p).parts = [] → m.bytes.length ≤ 64 * f.nsec.toNat →
      windowOver g m.window = false → m.kind = 0 → m.gleaner = false → hdrReason (m.bytes.take 64) = none →
      (windowAt g m.window).taken.elem m.tile = false →
      ∃ s' g', exec (.stook port f m) s = .next s' ∧ groupAt s' m.gid.val = some g' ∧
        (windowAt g' m.window).taken = (windowAt g m.window).taken ++ [m.tile] ∧
        ⟨m.tile, 0, false, m.bytes, p⟩ ∈ (windowAt g' m.window).arrived ∧ s'.granary = s.granary) ∧
    (∀ d, RequestComes s p f d → descOp d = 0 →
      ∃ s', exec (.remoteRead port f) s = .next s' ∧ s'.granary = s.granary ∧
        Answered s s' p f d (readBytes s.granary (descGa d) (64 * descLen d))) ∧
    (∀ d, RequestComes s p f d → descOp d = 1 → 1 + descLen d = f.nsec.toNat → s.heldFailed = [] →
      ∃ s', exec (.remoteWrite port f) s = .next s' ∧ Stored s s' (descGa d) ((sectorsIn f).drop 64) ∧
        Answered s s' p f d []) ∧
    (∀ d x, ComesWell s p f 2 → f.dst.toNat = myId s → (portAt (linkTaken s p f 2) p).parts = [] → d = descOf (sectorsIn f) →
      f.nsec.toNat = 1 → responseBad d = false → transOf s f (descEseq d) = some x → descLen d = x.sectors →
      x.write = true → descOp d = 0 → (∃ c, x.owner = .streamWrite c) →
      ∃ s', exec (.response port f) s = .next s' ∧ s'.links.trans = s.links.trans.erase x ∧ s'.granary = s.granary) ∧
    (∀ dst vc q n, ComesWell s p f 5 → f.dst.toNat = myId s → flowEgress s dst vc = some q →
      (∀ x ∈ s.links.trans, x.dst = dst → x.vc = vc → x.port = q ∧ x.parked = false) →
      n = (s.links.trans.filter (fun x => decide (x.dst = dst ∧ x.vc = vc))).length →
      ∃ s', exec (.replayNotice port f dst vc) s = .next s' ∧ count s' 0xA540 3 = count s 0xA540 3 + n ∧
        s'.links.trans.length = s.links.trans.length ∧ s'.granary = s.granary)

namespace Sys2Proof.Machine

/-- What a flit that leaves says of itself: its port, its TYPE, its SEQ and what it carries. -/
def leaves : Output → Option (Nat × Nat × Nat × Note)
  | .flit p typ f n => some (p, typ, f.seq.toNat, n)
  | _ => none

end Sys2Proof.Machine

/-- What happens to a port that trains or carries: CODEWORD_LOCK makes it give its identity, and TRAINING brings it into service
where its peer's is accepted, each within the limits of Table 09-6; TRAINING_STEP_TIMEOUT ends an attempt, TRAINING_RETRY begins one; ACK_TIMEOUT sends what is
unacknowledged again; REPLAY_WINDOW_END retires a port that replayed too much; WAVELENGTH_LOSS retires one that has trained;
SPARE_RETURN frees the spare; TRANSACTION_TIMEOUT replays a flow, and fails a transaction the second time; FLOW_ROUTE_MOVE
takes the new route. -/
def Obligations.PortsTrainCarryAndRetire : Prop :=
  ∀ (s : State) (port : Fin 64) (p : Nat) (x : Port), p = port.val → x = portAt s p →
    (x.st = 2 → x.step < 4 → s.clocks.aux ≤ x.stepSince + 2250 → ∃ s' g, exec (.codewordLock port) s = .next s' ∧ (portAt s' p).st = 2 ∧
      (portAt s' p).step = 4 ∧ (portAt s' p).stepSince = s.clocks.aux ∧ (∀ q, q ≠ p → portAt s' q = portAt s q) ∧
      s'.out = .flit p 6 g (.train (ownTrain s p)) :: s.out ∧
      s' = { s with links := s'.links, counts := s'.counts, free := s'.free, out := s'.out }) ∧
    (x.st = 2 → x.step < 4 → x.stepSince + 2250 < s.clocks.aux → x.reason < 0x11 → ∃ s', exec (.codewordLock port) s = .next s' ∧
      (portAt s' p).st = 1 ∧ s'.granary = s.granary) ∧
    (∀ (f : Flit) (m : TrainMsg), ComesWell s p f 6 → x.st = 2 → 4 ≤ x.step → s.clocks.aux ≤ x.stepSince + 500 → heldReason s p m = 0 → p ≠ 31 →
      ∃ s', exec (.training port f m) s = .next s' ∧ (portAt s' p).st = 4 ∧ (portAt s' p).peer = m.peer ∧
        (portAt s' p).peerPort = m.port ∧ s'.granary = s.granary) ∧
    (x.st = 2 → x.reason < 0x11 → x.stepSince + stepLimit x ≤ s.clocks.aux →
      ∃ s', exec (.trainingStepTimeout port) s = .next s' ∧ (portAt s' p).st = 1 ∧ s'.granary = s.granary) ∧
    (x.st = 1 → running s (portFn p) = true → beyondAcre s p = false → (∀ t, x.since = some t → t + 25000 ≤ s.clocks.aux) →
      portsRest s = false →
      ∃ s', exec (.trainingRetry port) s = .next s' ∧ (portAt s' p).st = 2 ∧ (portAt s' p).step = 1 ∧
        s'.granary = s.granary) ∧
    (carries x = true → x.replay ≠ [] → x.lastAck + 8192 ≤ portClock s p → x.noProgress + 1 < 16 →
      ∃ s', exec (.ackTimeout port) s = .next s' ∧
        (s'.out.take x.replay.length).map leaves =
          (x.replay.map (fun f => some (p, f.typ, f.seq % 4096, f.note))).reverse ∧
        s'.out.drop x.replay.length = s.out ∧ (portAt s' p).replay = x.replay ∧
        (portAt s' p).replaysInWindow = x.replaysInWindow + x.replay.length ∧
        (portAt s' p).noProgress = x.noProgress + 1 ∧ count s' (0xA500 + p) 7 = count s (0xA500 + p) 7 + 1) ∧
    (carries x = true → x.windowStart + 2 ^ 30 ≤ portClock s p → portSetting s p 0x5003 2 < x.replaysInWindow →
      ∃ s', exec (.replayWindowEnd port) s = .next s' ∧ (portAt s' p).st = 5 ∧ (portAt s' p).reason = 0x12 ∧
        s'.granary = s.granary) ∧
    (∀ w, (x.st = 3 ∨ x.st = 6 ∨ (carries x = true ∧ ∀ e ∈ s.links.map, e.module ≠ x.peer)) →
      ∃ s', exec (.wavelengthLoss port w) s = .next s' ∧ (portAt s' p).st = 5 ∧ (portAt s' p).reason = 0x11 ∧
        s'.granary = s.granary) ∧
    (p = 31 → x.st = 7 → (portAt s x.sub.toNat).st = 4 → x.egress = [] → x.replay = [] →
      s.links.trans.any (fun t => decide (t.port = 31)) = false →
      ∃ s', exec .spareReturn s = .next s' ∧ (portAt s' 31).st = 6 ∧ (portAt s' 31).sub = 0xFF) ∧
    (∀ (tag : BitVec 12) (y : Trans),
      s.links.trans.find? (fun y => decide (y.port = p ∧ y.tag = tag.toNat) && !y.parked) = some y →
      y.since + portSetting s p 0x5003 1 ≤ portClock s p →
      (y.timeouts = 0 → flowEgress s y.dst y.vc = none →
        ∃ s', exec (.transactionTimeout port tag) s = .next s' ∧
          s'.links.trans = s.links.trans.map (fun z => if z = y then { y with timeouts := 1 } else z) ∧
          count s' (0xA500 + p) 10 = count s (0xA500 + p) 10 + 1) ∧
      (y.timeouts ≠ 0 → y.owner = .gone →
        ∃ s', exec (.transactionTimeout port tag) s = .next s' ∧ s'.links.trans = s.links.trans.erase y ∧
          count s' 0xA540 5 = count s 0xA540 5 + 1)) ∧
    (∀ dst vc r, (flowAt s dst vc).move = some r → flowBusy s dst vc = false →
      ∃ s', exec (.flowRouteMove dst vc) s = .next s' ∧ flowAt s' dst vc = { flowAt s dst vc with route := r, move := none } ∧
        count s' 0xA540 2 = count s 0xA540 2 + 1)

namespace Sys2Proof.Machine

/-! ## Power and the board -/

/-- A request to enter a power state has been taken: the entry begins at step 1. -/
def EntryBegins (s s' : State) (t : PowerSt) : Prop :=
  s'.power = { s.power with target := some t, step := 1, entryAux := s.clocks.aux, stepAux := s.clocks.aux, wakeLatched := 0 }

end Sys2Proof.Machine

/-- SLEEP, DEEP_SLEEP and OFF begin their entry where no job is live and no function is changing; WAKE_N and
WAKE_TIMER_EXPIRY begin the exit from Sleep and Deep sleep, and WAKE_N from Off starts the module; WAKE_EXIT_COMPLETE ends the
exit in Idle with every Drill gated; IDLE_HOLD_EXPIRY leaves Run. -/
def Obligations.PowerStatesAreEnteredAndLeft : Prop :=
  ∀ (s : State) (h : ReqHead),
    (MayWrite s h 0x7000 2 → anyLive s = false → fnBusy s = false →
      (∃ s', exec (.sleep h) s = .next s' ∧ WriteDone s s' h 0x7000 2 2 ∧ EntryBegins s s' .sleep) ∧
      (∃ s', exec (.deepSleep h) s = .next s' ∧ WriteDone s s' h 0x7000 2 2 ∧ EntryBegins s s' .deepSleep) ∧
      (∃ s', exec (.off h) s = .next s' ∧ WriteDone s s' h 0x7000 2 2 ∧ EntryBegins s s' .off)) ∧
    ((s.power.st = .sleep ∨ s.power.st = .deepSleep) → s.power.target = none → s.power.exiting = false → s.power.trip = false →
      s.board.step = 11 →
      (∃ s', exec .wakeN s = .next s' ∧ s'.power.exiting = true ∧ s'.power.lastWake = 1 ∧
        count s' 0x7060 1 = count s 0x7060 1 + 1 ∧ s' = { s with power := s'.power, counts := s'.counts }) ∧
      (∀ n, n = setting s 0x7000 7 → n ≠ 0 → s.power.entryAux + 25000 * n ≤ s.clocks.aux →
        bitAt (setting s 0x7000 4) 4 = true →
        ∃ s', exec .wakeTimerExpiry s = .next s' ∧ s'.power.exiting = true ∧ s'.power.lastWake = 5 ∧
          s' = { s with power := s'.power, counts := s'.counts })) ∧
    (s.board.aux = true → s.board.step = 3 → s.board.offEntered = true → s.board.thermtrip = false →
      40000 ≤ s.power.inputMv → s.power.inputMv ≤ 60000 → ∃ s', exec .wakeN s = .next s' ∧ s'.board.step = 4 ∧ s'.power.lastWake = 1) ∧
    (s.power.exiting = true → s.dict.deferred = [] → s.admitHeld = none → s.cxl.waiting = [] →
      ∃ s', exec .wakeExitComplete s = .next s' ∧ s'.power.st = .idle ∧ s'.power.exiting = false ∧
        s'.power.idleSince = s.clocks.aux ∧ ∀ p ∈ s'.tillers, p.2.gate = .gated) ∧
    (s.power.st = .run → anyLive s = false → s.power.target = none →
      s.power.idleSince + 25000 * setting s 0x7000 6 ≤ s.clocks.aux →
      ∃ s', exec .idleHoldExpiry s = .next s' ∧ s'.power = { s.power with st := .idle } ∧
        (∀ p ∈ s'.tillers, p.2.gate = .gated) ∧ s' = { s with power := s'.power, tillers := s'.tillers, counts := s'.counts })

namespace Sys2Proof.Machine

/-- How far each sensor of a Field has been from its step threshold since the last control period. -/
def fieldPeaks (s : State) (f : Nat) : List Int :=
  (fieldSensors f).filterMap (fun n => (sampleOf s.power.peak n).map (fun v => v - threshold s (sensorClass n) 2))

/-- Whatever drives PWRALERT_N, every Field is at OPL at once, in Run and during exit; a new assertion is counted. -/
def AlertIsUp (s s' : State) : Prop :=
  alerted s' = true ∧ (alertActs s = true → ∀ f, f < 8 → 5 ≤ pointOf s' f) ∧
  count s' 0x7060 5 = count s 0x7060 5 + (if alerted s then 0 else 1) ∧ s'.granary = s.granary

end Sys2Proof.Machine

/-- SELTY_CONTROL_PERIOD moves each Field's ceiling by its hottest sample and lets the Field follow: down at once, up one point
at a time. SENSOR_SAMPLE keeps its sample, and one at the trip threshold stops the module. The alert holds every Field at OPL
until its drivers let go and the hold has run out. A Drill gates and starts only with its grants,
which its Field spaces by 128 tc, and once its ramp of 192 tc has run. -/
def Obligations.FieldsFollowHeatAndAlerts : Prop :=
  (∀ (s : State), s.board.step = 11 → s.power.trip = false → (s.power.st = .run ∨ s.power.st = .idle ∨ s.power.st = .sleep) →
    s.dict.changeover = false → (fnGet s 0).swapPending = false → s.power.periodAt + 500000 ≤ seltyNow s s.reli.inCharge →
    ∃ s', exec .seltyControlPeriod s = .next s' ∧ s'.power.peak = [] ∧ s'.power.periodAt = seltyNow s s.reli.inCharge ∧ ∀ f c, f < 8 → c = ceilingOf s f →
      ((fieldPeaks s f).any (fun v => decide (0 ≤ v)) = true → ceilingOf s' f = (if c < 5 then c + 1 else c)) ∧
      ((fieldPeaks s f).all (fun v => decide (v ≤ -5000)) = true →
        ceilingOf s' f = (if 100 ≤ kvGet 0 s.power.cool f + 1 then c - 1 else c)) ∧
      pointOf s' f = (if pointOf s f < limitPoint s' f then limitPoint s' f
        else if targetPoint s' f < pointOf s f then pointOf s f - 1 else pointOf s f)) ∧
  (∀ (s : State) (n : Fin 136) (mdeg : Int), 7 ≤ s.board.step → s.power.trip = false → -2 ^ 31 ≤ mdeg →
    ∃ s', exec (.sensorSample n mdeg) s = .next s' ∧ sampleOf s'.power.sensor n.val = some mdeg ∧
      (mdeg < threshold s (sensorClass n.val) 3 → s'.power.trip = false ∧ s'.board = s.board) ∧
      (threshold s (sensorClass n.val) 3 ≤ mdeg → s'.power.trip = true ∧ s'.power.tripSensor = n.val ∧
        s'.board.thermtrip = true ∧ s'.cxl.port0.up = false ∧ s'.cxl.port1.up = false)) ∧
  (∀ (s : State), 4 ≤ s.board.step →
    (∃ s', exec .pwralertAssert s = .next s' ∧ AlertIsUp s s' ∧ s'.power.alertBoard = true) ∧
    (∃ s', exec .regulatorOvercurrent s = .next s' ∧ AlertIsUp s s' ∧ s'.power.overcurrent = true) ∧
    (∀ mv, mv < 40000 → ∃ s', exec (.inputUndervoltage mv) s = .next s' ∧ AlertIsUp s s' ∧ s'.power.underVolt = true ∧
      s'.power.inputMv = mv)) ∧
  (∀ (s : State), alerted s = true →
    (4 ≤ s.board.step → s.power.underVolt = false → ∃ s', exec .pwralertDeassert s = .next s' ∧ alerted s' = false ∧
      s'.power.holdSince = some s.clocks.aux) ∧
    (∀ mv, 41000 ≤ mv → s.power.underVolt = true → s.power.alertBoard = false → s.power.overcurrent = false →
      ∃ s', exec (.inputRecovered mv) s = .next s' ∧ alerted s' = false ∧ s'.power.underVolt = false ∧
        s'.power.inputMv = mv ∧ s'.power.holdSince = some s.clocks.aux)) ∧
  (∀ (s : State) (t : Nat), s.power.holdSince = some t → t + 25000 * setting s 0x7040 2 ≤ s.clocks.aux →
    exec .releaseHoldExpiry s = .next { s with power := { s.power with holdSince := none } }) ∧
  (∀ (s : State) (t : Tid) (now : Nat), now = tcNow s t.field.val →
    (tcOn s = true → (til s t).gate = .running → drillEmpty (til s t) = true → 256 ≤ now - (til s t).drillIdle →
      ∃ s', exec (.drillGateRequest t) s = .next s' ∧
        (til s' t).gate = (if alerted s then .rampDown now else .asking now) ∧ s' = { s with tillers := s'.tillers }) ∧
    (∀ since, (til s t).gate = .asking since →
      (now < kvGet 0 s.power.gateFrom t.field.val → exec (.drillGatingGrant t) s = .next s) ∧
      (tcOn s = true → kvGet 0 s.power.gateFrom t.field.val ≤ now → ∃ s', exec (.drillGatingGrant t) s = .next s' ∧
      (til s' t).gate = .rampDown now ∧ kvGet 0 s'.power.gateFrom t.field.val = now + 128 ∧ count s' 0x7060 7 = count s 0x7060 7 + (now - since))) ∧
    (∀ since, (til s t).gate = .waitGrant since →
      (now < kvGet 0 s.power.startFrom t.field.val → exec (.drillStartGrant t) s = .next s) ∧
      (tcOn s = true → kvGet 0 s.power.startFrom t.field.val ≤ now → ∃ s', exec (.drillStartGrant t) s = .next s' ∧
      (til s' t).gate = .rampUp now ∧ kvGet 0 s'.power.startFrom t.field.val = now + 128 ∧ count s' 0x7060 6 = count s 0x7060 6 + (now - since))) ∧
    (∀ since, tcOn s = true → (til s t).gate = .rampUp since → since + 192 ≤ now → ∃ s', exec (.drillRampEnd t) s = .next s' ∧
      (til s' t).gate = .running ∧ count s' 0x7060 6 = count s 0x7060 6 + 192) ∧
    (∀ since, tcOn s = true → (til s t).gate = .rampDown since → since + 192 ≤ now → ∃ s', exec (.drillRampEnd t) s = .next s' ∧
      (til s' t).gate = .gated ∧ count s' 0x7060 7 = count s 0x7060 7 + 192))

namespace Sys2Proof.Machine

/-- What a loss of main power leaves: everything on it is as at power-on, and the fuses, the stored settings and the black box
are kept. -/
def MainPowerIsGone (s s' : State) : Prop :=
  s'.granary = [] ∧ s'.jobs = [] ∧ s'.sems = [] ∧ s'.dict.sessions = [] ∧ s'.dict.active = [] ∧ s'.power.st = .off ∧
  s'.dict.stored = s.dict.stored ∧ s'.sec.floor = s.sec.floor ∧ s'.sec.revoked = s.sec.revoked ∧
  s'.sec.openCount = s.sec.openCount ∧ s'.sec.slot0 = s.sec.slot0 ∧ s'.sec.slot1 = s.sec.slot1 ∧
  s'.sec.slotB0 = s.sec.slotB0 ∧ s'.sec.slotB1 = s.sec.slotB1 ∧
  s'.reli.retired = s.reli.retired ∧ s'.reli.boot = s.reli.boot ∧ s'.pending = s.pending

end Sys2Proof.Machine

/-- The supplies, the sideband bus and the test lands: a failing input takes main power, the loss of 3V3AUX everything;
3V3AUX closes the debug port, and 48 V in range then starts the module; the I3C address is assigned, by the static address of the straps or by arbitration, and lost; the lands of a closed debug port drive
nothing. -/
def Obligations.TheBoardIsObeyed : Prop :=
  ∀ (s : State),
    (∀ mv, 4 ≤ s.board.step → mv < 38000 → ∃ s', exec (.inputPowerFailure mv) s = .next s' ∧ MainPowerIsGone s s' ∧ s'.board.step = 3 ∧
      s'.power.inputMv = mv) ∧
    (∃ s', exec .auxLost s = .next s' ∧ MainPowerIsGone s s' ∧ s'.board.step = 0 ∧ s'.board.aux = false ∧
      s'.power.trip = false ∧ s'.board.thermtrip = false ∧ s'.board.i3c = none) ∧
    (s.board.aux = false → ∃ s', exec .auxPowerOn s = .next s' ∧ s'.board = { s.board with aux := true, step := 3, tap := 0 } ∧
      s'.sec.debugPort = 0 ∧ s' = { s with board := s'.board, sec := s'.sec }) ∧
    (∀ mv, s.board.aux = true → s.board.step = 3 → s.board.offEntered = false → s.board.thermtrip = false →
      ∃ s', exec (.mainPowerGood mv) s = .next s' ∧ s'.board.step = (if 40000 ≤ mv ∧ mv ≤ 60000 then 4 else 3) ∧
        s'.power = { s.power with inputMv := mv }) ∧
    (∀ addr st, s.board.aux = true → (∀ x, st = some x → x = staticAddress s.board) →
      exec (.dynamicAddressAssigned ⟨addr, st⟩) s = .next { s with board := { s.board with i3c := some addr } }) ∧
    (∀ addr x, x ≠ staticAddress s.board → exec (.dynamicAddressAssigned ⟨addr, some x⟩) s = .next s) ∧
    (∃ s', exec .i3cAddressLost s = .next s' ∧ s'.board.i3c = none ∧ s'.granary = s.granary ∧
      ∀ n, 1 ≤ n → n ≤ 8 → (sessionAt s' n) = (if (sessionAt s n).kind = 3 then Session.reset else sessionAt s n)) ∧
    (∀ tck tms tdi trstN, s.board.aux = true →
      ∃ s', exec (.boundaryScan tck tms tdi trstN) s = .next s' ∧ s'.board.scan = (tck, tms, tdi, trstN) ∧
        s' = { s with board := s'.board } ∧ (s.sec.debugPort = 0 → s'.board.tap = 0) ∧
        (s.sec.debugPort ≠ 0 → trstN = true → tck = true → s.board.scan.1 = false → s'.board.tap = tapNext s.board.tap tms))

namespace Sys2Proof.Machine

/-! ## Firmware, controllers and fuses -/

end Sys2Proof.Machine

/-- The Selty controllers: ten heartbeats missed in a row begin a changeover to the standby; CONTROLLER_CHANGEOVER gives it
charge; CONTROLLER_RESTART brings the failed one back; FIRMWARE_ACTIVATE begins a live update, whose steps end with
ACTIVATION_STEP_DONE, and which reverts where the new image does not start; BLACK_BOX_RECORD_WRITE moves the oldest record of
the queue into the ring of each Headland; whether a copy comes to have a bad CRC is open (log entry 56). -/
def Obligations.ControllersTakeTurns : Prop :=
  ∀ (s : State),
    (∀ seen n, s.board.step = 11 → s.dict.changeover = false → n = (if seen then 0 else s.reli.missed + 1) →
      exec (.seltyHeartbeat seen) s = .next { s with
        reli := { s.reli with missed := n }, dict := { s.dict with changeover := decide (10 ≤ n) && standbyUp s } }) ∧
    (s.dict.changeover = true → activating s = false → s.reli.inCharge < 2 →
      ∃ s', exec .controllerChangeover s = .next s' ∧ s'.reli.inCharge = 1 - s.reli.inCharge ∧ s'.dict.changeover = false ∧
        standbyUp s' = false ∧ s'.reli.missed = 0 ∧ count s' 0x7880 11 = count s 0x7880 11 + 1) ∧
    (∀ ok, standbyUp s = false → s.reli.failedStarts < 3 → activating s = false → s.reli.inCharge < 2 →
      ∃ s', exec (.controllerRestart ok) s = .next s' ∧ standbyUp s' = ok ∧
        s'.reli.failedStarts = (if ok then 0 else s.reli.failedStarts + 1)) ∧
    (∀ h, MayWrite s h 0x7830 1 → activating s = false → bothUp s = true → (inactiveSlot s).checked = true →
      ∃ s', exec (.firmwareActivate h) s = .next s' ∧ WriteDone s s' h 0x7830 1 2 ∧ s'.reli.activation = 1 ∧
        s'.dict.changeover = decide (s.reli.inCharge = 0)) ∧
    (s.reli.activation = 1 → s.dict.changeover = true → s.reli.inCharge = 0 →
      ∃ s', exec (.activationStepDone true) s = .next s' ∧ s'.reli.activation = 2 ∧ s'.reli.inCharge = 1 ∧
        s'.reli.upA = false ∧ s'.dict.changeover = false) ∧
    (∀ ok, s.reli.activation = 2 →
      ∃ s', exec (.activationStepDone ok) s = .next s' ∧ s'.reli.upA = true ∧
        s'.reli.activation = (if imageCode s (otherSlot s 0).image = 0 ∧ ok = true then 3 else 5) ∧
        (ok = false → s'.sec.runA = s.sec.runA ∧ s'.sec.bootA = s.sec.bootA)) ∧
    (∀ r rest, s.reli.queue = r :: rest → s.reli.boxA.length < 131072 → s.reli.boxB.length < 131072 →
      ∃ a b, exec .blackBoxRecordWrite s = .next { s with free := s.free + 1, reli := { s.reli with
        boxA := s.reli.boxA ++ [{ r with good := a }], boxB := s.reli.boxB ++ [{ r with good := b }], queue := rest } })

/-- IMAGE_UPLOAD puts the image in each Headland's inactive slot, unchecked, and leaves the slot that it boots; IMAGE_CHECK_COMPLETE
leaves it checked or the slot empty. RAISE_FLOOR raises the floor to the running image's SVN, never lowers it, empties an inactive
slot that is now below it, and is refused with 0x0205 unless both controllers run the same version; REVOKE sets one bit for good, and is refused where it names the KEYID of an image that runs; NEW_CHALLENGE
draws 32 bytes; UNLOCK_TOKEN begins the unlock of Table 15-7 for a token that passes every check, and counts one that does
not; the port opens in step 7 and in no other step, after the secrets are erased and the opening is counted. -/
def Obligations.FirmwareAndFusesAreGuarded : Prop :=
  ∀ (s : State) (h : ReqHead),
    (∀ image : List Byte, MayWrite s h 0x8020 1 → image.length ≤ 16777216 →
      (image.length ≤ 4080 → firstSegment image = none) → s.sec.upload ≠ 1 → s.sec.upload ≠ 2 → activating s = false →
      ∃ s', exec (.imageUpload h image) s = .next s' ∧ WriteDone s s' h 0x8020 1 9 ∧ s'.sec.upload = 1 ∧
        ∀ c, c < 2 → slotAt s' c (otherNo s c) = ⟨image, false⟩ ∧ slotAt s' c (bootOf s c) = slotAt s c (bootOf s c)) ∧
    (∀ code, (s.sec.upload = 1 ∨ s.sec.upload = 2) → s.sec.bootMode ≠ 2 → code = imageCode s (inactiveSlot s).image →
      ∃ s', exec .imageCheckComplete s = .next s' ∧ s'.sec.upload = (if code = 0 then 3 else code) ∧
        (∀ c, c < 2 → slotAt s' c (otherNo s c) = (if code = 0 then ⟨(inactiveSlot s).image, true⟩ else Slot.reset)) ∧
        count s' 0x8080 1 = count s 0x8080 1 + (if code = 0 then 1 else 0) ∧
        count s' 0x8080 2 = count s 0x8080 2 + (if code = 0 then 0 else 1)) ∧
    (MayWrite s h 0x8010 2 → bothUp s = true → s.sec.runA.version = s.sec.runB.version →
      ∃ s', exec (.raiseFloor h) s = .next s' ∧ WriteDone s s' h 0x8010 2 2 ∧
        s'.sec.floor = max s.sec.floor (runningNow s).svn ∧ s'.sec.revoked = s.sec.revoked ∧
        ∀ c, c < 2 → s.sec.floor < (runningNow s).svn → (otherSlot s c).checked = true →
          imgSvn (otherSlot s c).image < (runningNow s).svn → slotAt s' c (otherNo s c) = Slot.reset) ∧
    (MayWrite s h 0x8010 2 → (bothUp s = false ∨ s.sec.runA.version ≠ s.sec.runB.version) →
      ∃ s', exec (.raiseFloor h) s = .next s' ∧ Replied s' h 2 (entry 0x8010 2) 2 0x0205 [] ∧ s'.sec = s.sec) ∧
    (∀ v : Byte, MayWrite s h 0x8010 3 → v.toNat / 16 % 8 = 0 → keyRuns s (v.toNat % 16) = false →
      ∃ s', exec (.revoke h v) s = .next s' ∧ WriteDone s s' h 0x8010 3 2 ∧
        s'.sec.revoked = s.sec.revoked ||| BitVec.ofNat 32 (2 ^ (16 * (v.toNat / 128) + v.toNat % 16)) ∧
        s'.sec.floor = s.sec.floor) ∧
    (∀ v : Byte, MayWrite s h 0x8010 3 → v.toNat / 16 % 8 = 0 → keyRuns s (v.toNat % 16) = true →
      ∃ s', exec (.revoke h v) s = .next s' ∧ Replied s' h 2 (entry 0x8010 3) 2 0x0205 [] ∧ s'.sec = s.sec) ∧
    (MayWrite s h 0x8040 1 →
      ∃ s' b, exec (.newChallenge h) s = .next s' ∧ WriteDone s s' h 0x8040 1 2 ∧ s'.sec.challenge = some b ∧ b.length = 32) ∧
    (∀ token : List Byte, MayWrite s h 0x8040 2 → token.length ≤ 4080 → s.sec.openCount < 32 → anyLive s = false →
      s.sec.refusedTokens < 8 → s.sec.debugPort = 0 → s.sec.unlock = none →
      ∃ s', exec (.unlockToken h token) s = .next s' ∧ s'.sec.challenge = none ∧
        (tokenCheck s token = 0 → WriteDone s s' h 0x8040 2 9 ∧ s'.sec.debugPort = 0 ∧ s'.sec.erasePending = true ∧
          s'.sec.conns = [] ∧ s'.sec.sessions = [] ∧ s'.sec.unlock = some (5, cutLe token 5 1, cutLe token 6 1)) ∧
        (tokenCheck s token ≠ 0 → Replied s' h 2 (entry 0x8040 2) 9 0x0302 [] ∧ s'.sec.debugPort = 0 ∧
          s'.sec.refusedTokens = s.sec.refusedTokens + 1 ∧ s'.sec.openCount = s.sec.openCount)) ∧
    (∀ n scope k, 6 ≤ s.board.step → s.power.trip = false → s.sec.unlock = some (n, scope, k) → 5 ≤ n → n ≤ 8 →
      (n = 5 → (unlockStep s).sec = { s.sec with chains := [], keys := [], unlock := some (6, scope, k) }) ∧
      (n = 6 → (unlockStep s).sec = { s.sec with
        openCount := s.sec.openCount + 1, lifecycle := 1, erasePending := false, unlock := some (7, scope, k) }) ∧
      (n = 7 → (unlockStep s).sec = { s.sec with debugPort := scope, unlock := some (8, scope, k) }) ∧
      (n = 8 → ∃ key : RsaKey, (unlockStep s).sec = { s.sec with aliasKey := true, keys := [(0, key)], unlock := none }))

namespace Sys2Proof.Machine

/-! ## SPDM and the MCTP endpoint -/

/-- The responder answers on a transport, in a module that is awake and not going to sleep. -/
def Talks (s : State) (tr : SpdmTransport) : Prop :=
  firmwareUp s = true ∧ s.power.trip = false ∧ transportUp s tr = true ∧ (s.power.st = .run ∨ s.power.st = .idle) ∧
  s.power.target = none ∧ s.power.exiting = false

/-- The responder answers, and no changeover and no debug unlock is under way. -/
def Listens (s : State) (tr : SpdmTransport) : Prop := Talks s tr ∧ s.dict.changeover = false ∧ s.sec.unlock = none

/-- The algorithms are agreed on the transport. -/
def Agreed (s : State) (tr : SpdmTransport) : Prop := Listens s tr ∧ ∃ c, connOf s tr = some c ∧ c.algs = true

/-- The module answers, and nothing but its security state and its draws of free values has changed. -/
def Says (s s' : State) (o : Output) : Prop :=
  s' = { s with sec := s'.sec, free := s'.free, out := o :: s.out }

end Sys2Proof.Machine

/-- The SPDM requests: version, capabilities and algorithms in turn; the certificates, the challenge and the measurements;
secured sessions from KEY_EXCHANGE through FINISH and HEARTBEAT to END_SESSION; and the operator's own key and chain, which ends
in a certificate for that key. During a changeover the answer is Busy. -/
def Obligations.SpdmRequestsAreAnswered : Prop :=
  ∀ (s : State) (tr : SpdmTransport),
    (Talks s tr → s.dict.changeover = true →
      (∀ c ∈ [Instr.getVersion tr, .getDigests tr], exec c s = .next { s with out := .spdmError tr 0x03 :: s.out }) ∧
      (∀ v, exec (.getCapabilities tr v) s = .next { s with out := .spdmError tr 0x03 :: s.out }) ∧
      (∀ o, exec (.negotiateAlgorithms tr o) s = .next { s with out := .spdmError tr 0x03 :: s.out })) ∧
    (Listens s tr → ∃ s', exec (.getVersion tr) s = .next s' ∧ Says s s' (.spdm tr [0x12, 0x13]) ∧
      connOf s' tr = some ⟨0, false, false, false⟩) ∧
    (∀ c (v : Byte), Listens s tr → connOf s tr = some c →
      ((v = 0x12 ∨ v = 0x13) → ∃ s', exec (.getCapabilities tr v) s = .next s' ∧ Says s s' (.spdm tr [v]) ∧
        connOf s' tr = some ⟨v.toNat, true, false, false⟩) ∧
      (v ≠ 0x12 → v ≠ 0x13 → exec (.getCapabilities tr v) s = .next { s with out := .spdmError tr 0x41 :: s.out })) ∧
    (∀ c o, Listens s tr → connOf s tr = some c → c.caps = true →
      (o.rsapss4096 = true → o.sha512 = true → ∃ s' b, exec (.negotiateAlgorithms tr o) s = .next s' ∧
        Says s s' (.spdm tr b) ∧ connOf s' tr = some { c with algs := true, kex := o.secp384r1 && o.aes256gcm }) ∧
      ((o.rsapss4096 = false ∨ o.sha512 = false) →
        exec (.negotiateAlgorithms tr o) s = .next { s with out := .spdmError tr 0x01 :: s.out })) ∧
    (Agreed s tr →
      (exec (.getDigests tr) s = .next { s with out := .spdm tr ((upto 4).flatMap (fun i => match chainOf s i with
        | some c => sha512 c
        | none => [])) :: s.out }) ∧
      (∀ slot off n c, chainOf s slot = some c → off < c.length →
        exec (.getCertificate tr slot off n) s = .next { s with out := .spdm tr ((c.drop off).take n) :: s.out }) ∧
      (∀ slot nonce c, chainOf s slot = some c →
        ∃ s' own sig, exec (.challenge tr slot nonce) s = .next s' ∧ Says s s' (.spdm tr (sha512 c ++ own ++ sig)) ∧
          own.length = 32) ∧
      (∀ block nonce b, 1 ≤ block → block ≤ 9 → measure s block = some b →
        exec (.getMeasurements tr block false nonce) s = .next { s with out := .spdm tr (toLe 1 block ++ b) :: s.out }) ∧
      (∀ slot key c k, connOf s tr = some c → c.kex = true → (chainOf s slot).isSome = true → s.sec.sessions.length < 4 →
        k = s.sec.nextSess →
        ∃ s' b, exec (.keyExchange tr slot key) s = .next s' ∧ Says s s' (.spdm tr b) ∧
          s'.sec.sessions = s.sec.sessions ++ [(k, tr, false)] ∧ s'.sec.nextSess = k + 1) ∧
      (∀ n, sessOf s tr n = some false →
        (∃ s', exec (.finish tr n true) s = .next s' ∧ Says s s' (.spdm tr (toLe 4 n)) ∧ sessOf s' tr n = some true) ∧
        (∃ s', exec (.finish tr n false) s = .next s' ∧ Says s s' (.spdmError tr 0x06) ∧ sessOf s' tr n = none)) ∧
      (∀ n, sessOf s tr n = some true →
        (exec (.heartbeat tr n) s = .next { s with out := .spdm tr (toLe 4 n) :: s.out }) ∧
        (∃ s', exec (.endSession tr n) s = .next s' ∧ Says s s' (.spdm tr (toLe 4 n)) ∧ sessOf s' tr n = none)) ∧
      (∀ slot, tr = .mctp → 1 ≤ slot → slot ≤ 3 → s.sec.aliasKey = false →
        ∃ s' b, exec (.getCsr tr slot) s = .next s' ∧ Says s s' (.spdm tr b) ∧ (kvFind s'.sec.keys slot).isSome = true ∧
          chainOf s' slot = none) ∧
      (∀ slot chain last key, tr = .mctp → 1 ≤ slot → slot ≤ 3 → s.sec.aliasKey = false → kvFind s.sec.keys slot = some key →
        (certModulus last = some key.n → ∃ s', exec (.setCertificate tr slot chain last) s = .next s' ∧
          Says s s' (.spdm tr [BitVec.ofNat 8 slot]) ∧ chainOf s' slot = some (chain ++ last)) ∧
        (certModulus last ≠ some key.n →
          exec (.setCertificate tr slot chain last) s = .next { s with out := .spdmError tr 0x01 :: s.out })))

/-- The MCTP control messages, which reach an endpoint that has its dynamic address: the endpoint takes its ID and answers it,
its versions and its message types. -/
def Obligations.MctpControlMessagesAreAnswered : Prop :=
  ∀ (s : State), firmwareUp s = true → s.power.trip = false → addressed s = true → (s.power.st = .run ∨ s.power.st = .idle) →
    s.power.target = none → s.power.exiting = false →
    (∀ eid : Byte, eid ≠ 0 → eid ≠ 0xFF → exec (.setEndpointId eid) s =
      .next { s with board := { s.board with eid := eid }, out := .mctp [0x00, eid] :: s.out }) ∧
    (∀ eid : Byte, (eid = 0 ∨ eid = 0xFF) → exec (.setEndpointId eid) s = .next { s with out := .mctp [0x02] :: s.out }) ∧
    (exec .getEndpointId s = .next { s with out := .mctp [0x00, s.board.eid] :: s.out }) ∧
    (∀ msgType : Byte, (msgType = 0xFF ∨ msgType ∈ [0x00, 0x05, 0x06, 0x7F]) →
      ∃ s' b, exec (.getMctpVersionSupport msgType) s = .next s' ∧ Says s s' (.mctp (0x00 :: b))) ∧
    (exec .getMessageTypeSupport s = .next { s with out := .mctp [0x00, 0x00, 0x05, 0x06, 0x7F] :: s.out })

namespace Sys2Proof.Machine

/-! ## The machine -/

end Sys2Proof.Machine

/-- A step runs the command at the front of the queue on the state with the rest of the queue, whatever command it is; with no
command waiting the block idles. -/
def Obligations.StepRunsTheFrontCommand : Prop :=
  (∀ (c : Instr) (rest : List Instr) (s : State), step { s with pending := c :: rest } = exec c { s with pending := rest }) ∧
  (∀ s : State, s.pending = [] → step s = .next (idleStep s))

/-- Every well-formed command answers a next state in every state of the block: none is refused, and none stops it. A command
that cannot act leaves the state alone, which no rule forbids it (log entry 13). -/
def Obligations.WellFormedCommandsAnswerANextState : Prop :=
  ∀ (c : Instr) (s : State), c.wf = true → ∃ s', exec c s = .next s'

/-- The module as start-up leaves it: Idle, started, every function of a GZ940 RUNNING, every Field at OP0, no job, no context,
no session; the Granary reads as zero; the dictionary's settings read as their defaults. -/
def Obligations.ResetIsAStartedIdleModule : Prop :=
  GranaryOk State.reset ∧ State.reset.pending = [] ∧ State.reset.power.st = .idle ∧ State.reset.board.step = 11 ∧
  State.reset.board.modrdy = some true ∧ State.reset.power.trip = false ∧ alerted State.reset = false ∧
  (∀ fn ∈ fnIds, (fnGet State.reset fn).st = .running) ∧ (∀ f, f < 8 → pointOf State.reset f = 0 ∧ ceilingOf State.reset f = 0) ∧
  (∀ slot, (jobAt State.reset slot).st = 0) ∧ (∀ c : CtxId, (ctxAt State.reset c).st = .idle) ∧
  (∀ n, (sessionAt State.reset n).kind = 0) ∧ (∀ a, byteAt State.reset.granary a = 0) ∧
  (∀ idx sub, setting State.reset idx sub = settingDefault idx sub) ∧ (∀ idx sub, count State.reset idx sub = 0) ∧
  (∀ n, sem State.reset n = Sem.reset)

/-- Every step, of whatever command or of none, keeps the canonical form of the Granary. -/
def Obligations.EveryStepKeepsTheGranaryForm : Prop :=
  ∀ s s' : State, GranaryOk s → step s = .next s' → GranaryOk s'

/-- No step, of whatever command or of none, lowers the SVN floor, takes back a revocation, or uncounts an opening of the debug
port: the fuses only go forward. -/
def Obligations.EveryStepKeepsTheFuses : Prop :=
  ∀ s s' : State, step s = .next s' →
    s.sec.floor ≤ s'.sec.floor ∧ (∀ i, s.sec.revoked.getLsbD i = true → s'.sec.revoked.getLsbD i = true) ∧
    s.sec.openCount ≤ s'.sec.openCount
end

