-- ==== Sys2Proof/Laws/Exec.lean ====
section
/-! SUPPORT. Each arm of `exec`, as an equation. -/
namespace Sys2Proof.Machine
open Sys2Proof

@[simp] theorem exec_add (t : Thr) (rd ra rb : Reg) (s : State) : exec (.add t rd ra rb) s = execAdd t rd ra rb s := rfl
@[simp] theorem exec_sub (t : Thr) (rd ra rb : Reg) (s : State) : exec (.sub t rd ra rb) s = execSub t rd ra rb s := rfl
@[simp] theorem exec_and_ (t : Thr) (rd ra rb : Reg) (s : State) : exec (.and_ t rd ra rb) s = execAnd t rd ra rb s := rfl
@[simp] theorem exec_or_ (t : Thr) (rd ra rb : Reg) (s : State) : exec (.or_ t rd ra rb) s = execOr t rd ra rb s := rfl
@[simp] theorem exec_xor_ (t : Thr) (rd ra rb : Reg) (s : State) : exec (.xor_ t rd ra rb) s = execXor t rd ra rb s := rfl
@[simp] theorem exec_shl (t : Thr) (rd ra rb : Reg) (s : State) : exec (.shl t rd ra rb) s = execShl t rd ra rb s := rfl
@[simp] theorem exec_shr (t : Thr) (rd ra rb : Reg) (s : State) : exec (.shr t rd ra rb) s = execShr t rd ra rb s := rfl
@[simp] theorem exec_sar (t : Thr) (rd ra rb : Reg) (s : State) : exec (.sar t rd ra rb) s = execSar t rd ra rb s := rfl
@[simp] theorem exec_mul (t : Thr) (rd ra rb : Reg) (s : State) : exec (.mul t rd ra rb) s = execMul t rd ra rb s := rfl
@[simp] theorem exec_mulhu (t : Thr) (rd ra rb : Reg) (s : State) : exec (.mulhu t rd ra rb) s = execMulhu t rd ra rb s := rfl
@[simp] theorem exec_divu (t : Thr) (rd ra rb : Reg) (s : State) : exec (.divu t rd ra rb) s = execDivu t rd ra rb s := rfl
@[simp] theorem exec_remu (t : Thr) (rd ra rb : Reg) (s : State) : exec (.remu t rd ra rb) s = execRemu t rd ra rb s := rfl
@[simp] theorem exec_minu (t : Thr) (rd ra rb : Reg) (s : State) : exec (.minu t rd ra rb) s = execMinu t rd ra rb s := rfl
@[simp] theorem exec_maxu (t : Thr) (rd ra rb : Reg) (s : State) : exec (.maxu t rd ra rb) s = execMaxu t rd ra rb s := rfl
@[simp] theorem exec_slt (t : Thr) (rd ra rb : Reg) (s : State) : exec (.slt t rd ra rb) s = execSlt t rd ra rb s := rfl
@[simp] theorem exec_sltu (t : Thr) (rd ra rb : Reg) (s : State) : exec (.sltu t rd ra rb) s = execSltu t rd ra rb s := rfl
@[simp] theorem exec_seq_ (t : Thr) (rd ra rb : Reg) (s : State) : exec (.seq_ t rd ra rb) s = execSeq t rd ra rb s := rfl
@[simp] theorem exec_jr (t : Thr) (rd ra rb : Reg) (s : State) : exec (.jr t rd ra rb) s = execJr t rd ra rb s := rfl
@[simp] theorem exec_fadd (t : Thr) (rd ra rb : Reg) (s : State) : exec (.fadd t rd ra rb) s = execFadd t rd ra rb s := rfl
@[simp] theorem exec_fsub (t : Thr) (rd ra rb : Reg) (s : State) : exec (.fsub t rd ra rb) s = execFsub t rd ra rb s := rfl
@[simp] theorem exec_fmul (t : Thr) (rd ra rb : Reg) (s : State) : exec (.fmul t rd ra rb) s = execFmul t rd ra rb s := rfl
@[simp] theorem exec_fmax (t : Thr) (rd ra rb : Reg) (s : State) : exec (.fmax t rd ra rb) s = execFmax t rd ra rb s := rfl
@[simp] theorem exec_fmin (t : Thr) (rd ra rb : Reg) (s : State) : exec (.fmin t rd ra rb) s = execFmin t rd ra rb s := rfl
@[simp] theorem exec_ftou (t : Thr) (rd ra rb : Reg) (s : State) : exec (.ftou t rd ra rb) s = execFtou t rd ra rb s := rfl
@[simp] theorem exec_utof (t : Thr) (rd ra rb : Reg) (s : State) : exec (.utof t rd ra rb) s = execUtof t rd ra rb s := rfl
@[simp] theorem exec_addi (t : Thr) (rd ra : Reg) (imm : BitVec 17) (s : State) : exec (.addi t rd ra imm) s = execAddi t rd ra imm s := rfl
@[simp] theorem exec_andi (t : Thr) (rd ra : Reg) (imm : BitVec 17) (s : State) : exec (.andi t rd ra imm) s = execAndi t rd ra imm s := rfl
@[simp] theorem exec_ori (t : Thr) (rd ra : Reg) (imm : BitVec 17) (s : State) : exec (.ori t rd ra imm) s = execOri t rd ra imm s := rfl
@[simp] theorem exec_xori (t : Thr) (rd ra : Reg) (imm : BitVec 17) (s : State) : exec (.xori t rd ra imm) s = execXori t rd ra imm s := rfl
@[simp] theorem exec_shli (t : Thr) (rd ra : Reg) (imm : BitVec 8) (s : State) : exec (.shli t rd ra imm) s = execShli t rd ra imm s := rfl
@[simp] theorem exec_shri (t : Thr) (rd ra : Reg) (imm : BitVec 8) (s : State) : exec (.shri t rd ra imm) s = execShri t rd ra imm s := rfl
@[simp] theorem exec_sari (t : Thr) (rd ra : Reg) (imm : BitVec 8) (s : State) : exec (.sari t rd ra imm) s = execSari t rd ra imm s := rfl
@[simp] theorem exec_slti (t : Thr) (rd ra : Reg) (imm : BitVec 17) (s : State) : exec (.slti t rd ra imm) s = execSlti t rd ra imm s := rfl
@[simp] theorem exec_lup (t : Thr) (rd : Reg) (imm : BitVec 22) (s : State) : exec (.lup t rd imm) s = execLup t rd imm s := rfl
@[simp] theorem exec_ld (t : Thr) (rd ra : Reg) (size : BitVec 2) (off : BitVec 15) (s : State) : exec (.ld t rd ra size off) s = execLd t rd ra size off s := rfl
@[simp] theorem exec_lds (t : Thr) (rd ra : Reg) (size : BitVec 2) (off : BitVec 15) (s : State) : exec (.lds t rd ra size off) s = execLds t rd ra size off s := rfl
@[simp] theorem exec_st (t : Thr) (rd ra : Reg) (size : BitVec 2) (off : BitVec 15) (s : State) : exec (.st t rd ra size off) s = execSt t rd ra size off s := rfl
@[simp] theorem exec_branch (t : Thr) (cond : BitVec 3) (ra rb : Reg) (off : BitVec 14) (s : State) : exec (.branch t cond ra rb off) s = execBranch t cond ra rb off s := rfl
@[simp] theorem exec_jal (t : Thr) (rd : Reg) (off : BitVec 22) (s : State) : exec (.jal t rd off) s = execJal t rd off s := rfl
@[simp] theorem exec_take (t : Thr) (rd ra rb : Reg) (s : State) : exec (.take t rd ra rb) s = execTake t rd ra rb s := rfl
@[simp] theorem exec_arm (t : Thr) (rd ra rb : Reg) (s : State) : exec (.arm t rd ra rb) s = execArm t rd ra rb s := rfl
@[simp] theorem exec_sig (t : Thr) (rd ra rb : Reg) (cnt : BitVec 10) (s : State) : exec (.sig t rd ra rb cnt) s = execSig t rd ra rb cnt s := rfl
@[simp] theorem exec_wait (t : Thr) (rd ra rb : Reg) (cnt : BitVec 10) (s : State) : exec (.wait t rd ra rb cnt) s = execWait t rd ra rb cnt s := rfl
@[simp] theorem exec_trywait (t : Thr) (rd ra rb : Reg) (cnt : BitVec 10) (s : State) : exec (.trywait t rd ra rb cnt) s = execTrywait t rd ra rb cnt s := rfl
@[simp] theorem exec_fence (t : Thr) (rd ra rb : Reg) (s : State) : exec (.fence t rd ra rb) s = execFence t rd ra rb s := rfl
@[simp] theorem exec_halt (t : Thr) (rd ra rb : Reg) (s : State) : exec (.halt t rd ra rb) s = execHalt t rd ra rb s := rfl
@[simp] theorem exec_rdid (t : Thr) (rd ra rb : Reg) (sel : IdSel) (s : State) : exec (.rdid t rd ra rb sel) s = execRdid t rd ra rb sel s := rfl
@[simp] theorem exec_mma (t : Thr) (w : Word128) (s : State) : exec (.mma t w) s = execMma t w s := rfl
@[simp] theorem exec_attf (t : Thr) (w : Word128) (s : State) : exec (.attf t w) s = execAttf t w s := rfl
@[simp] theorem exec_attb (t : Thr) (w : Word128) (s : State) : exec (.attb t w) s = execAttb t w s := rfl
@[simp] theorem exec_sopen (t : Thr) (w : Word128) (s : State) : exec (.sopen t w) s = execSopen t w s := rfl
@[simp] theorem exec_sdrain (t : Thr) (w : Word128) (s : State) : exec (.sdrain t w) s = execSdrain t w s := rfl
@[simp] theorem exec_spass (t : Thr) (w : Word128) (s : State) : exec (.spass t w) s = execSpass t w s := rfl
@[simp] theorem exec_sheafDiscard (t : Thr) (w : Word128) (s : State) : exec (.sheafDiscard t w) s = execSheafDiscard t w s := rfl
@[simp] theorem exec_beltCopy (t : Thr) (w : Word128) (s : State) : exec (.beltCopy t w) s = execBeltCopy t w s := rfl
@[simp] theorem exec_beltAdd (t : Thr) (w : Word128) (s : State) : exec (.beltAdd t w) s = execBeltAdd t w s := rfl
@[simp] theorem exec_beltSub (t : Thr) (w : Word128) (s : State) : exec (.beltSub t w) s = execBeltSub t w s := rfl
@[simp] theorem exec_beltMul (t : Thr) (w : Word128) (s : State) : exec (.beltMul t w) s = execBeltMul t w s := rfl
@[simp] theorem exec_beltMax (t : Thr) (w : Word128) (s : State) : exec (.beltMax t w) s = execBeltMax t w s := rfl
@[simp] theorem exec_beltMin (t : Thr) (w : Word128) (s : State) : exec (.beltMin t w) s = execBeltMin t w s := rfl
@[simp] theorem exec_axpy (t : Thr) (w : Word128) (s : State) : exec (.axpy t w) s = execAxpy t w s := rfl
@[simp] theorem exec_scale (t : Thr) (w : Word128) (s : State) : exec (.scale t w) s = execScale t w s := rfl
@[simp] theorem exec_exp (t : Thr) (w : Word128) (s : State) : exec (.exp t w) s = execExp t w s := rfl
@[simp] theorem exec_log (t : Thr) (w : Word128) (s : State) : exec (.log t w) s = execLog t w s := rfl
@[simp] theorem exec_recip (t : Thr) (w : Word128) (s : State) : exec (.recip t w) s = execRecip t w s := rfl
@[simp] theorem exec_rsqrt (t : Thr) (w : Word128) (s : State) : exec (.rsqrt t w) s = execRsqrt t w s := rfl
@[simp] theorem exec_tanh (t : Thr) (w : Word128) (s : State) : exec (.tanh t w) s = execTanh t w s := rfl
@[simp] theorem exec_sigmoid (t : Thr) (w : Word128) (s : State) : exec (.sigmoid t w) s = execSigmoid t w s := rfl
@[simp] theorem exec_silu (t : Thr) (w : Word128) (s : State) : exec (.silu t w) s = execSilu t w s := rfl
@[simp] theorem exec_gelu (t : Thr) (w : Word128) (s : State) : exec (.gelu t w) s = execGelu t w s := rfl
@[simp] theorem exec_relu (t : Thr) (w : Word128) (s : State) : exec (.relu t w) s = execRelu t w s := rfl
@[simp] theorem exec_swiglu (t : Thr) (w : Word128) (s : State) : exec (.swiglu t w) s = execSwiglu t w s := rfl
@[simp] theorem exec_select (t : Thr) (w : Word128) (s : State) : exec (.select t w) s = execSelect t w s := rfl
@[simp] theorem exec_browSum (t : Thr) (w : Word128) (s : State) : exec (.browSum t w) s = execBrowSum t w s := rfl
@[simp] theorem exec_browMax (t : Thr) (w : Word128) (s : State) : exec (.browMax t w) s = execBrowMax t w s := rfl
@[simp] theorem exec_softmax (t : Thr) (w : Word128) (s : State) : exec (.softmax t w) s = execSoftmax t w s := rfl
@[simp] theorem exec_lse (t : Thr) (w : Word128) (s : State) : exec (.lse t w) s = execLse t w s := rfl
@[simp] theorem exec_rmsnorm (t : Thr) (w : Word128) (s : State) : exec (.rmsnorm t w) s = execRmsnorm t w s := rfl
@[simp] theorem exec_layernorm (t : Thr) (w : Word128) (s : State) : exec (.layernorm t w) s = execLayernorm t w s := rfl
@[simp] theorem exec_topk (t : Thr) (w : Word128) (s : State) : exec (.topk t w) s = execTopk t w s := rfl
@[simp] theorem exec_bcvt (t : Thr) (w : Word128) (s : State) : exec (.bcvt t w) s = execBcvt t w s := rfl
@[simp] theorem exec_depthwiseConvolution (t : Thr) (w : Word128) (s : State) : exec (.depthwiseConvolution t w) s = execDepthwiseConvolution t w s := rfl
@[simp] theorem exec_groupedConvolution (t : Thr) (w : Word128) (s : State) : exec (.groupedConvolution t w) s = execGroupedConvolution t w s := rfl
@[simp] theorem exec_maxPooling (t : Thr) (w : Word128) (s : State) : exec (.maxPooling t w) s = execMaxPooling t w s := rfl
@[simp] theorem exec_averagePooling (t : Thr) (w : Word128) (s : State) : exec (.averagePooling t w) s = execAveragePooling t w s := rfl
@[simp] theorem exec_argmaxOverChannels (t : Thr) (w : Word128) (s : State) : exec (.argmaxOverChannels t w) s = execArgmaxOverChannels t w s := rfl
@[simp] theorem exec_linear (t : Thr) (w : Word128) (s : State) : exec (.linear t w) s = execLinear t w s := rfl
@[simp] theorem exec_indexed (t : Thr) (w : Word128) (s : State) : exec (.indexed t w) s = execIndexed t w s := rfl
@[simp] theorem exec_walk (t : Thr) (w : Word128) (s : State) : exec (.walk t w) s = execWalk t w s := rfl
@[simp] theorem exec_relayout (t : Thr) (w : Word128) (s : State) : exec (.relayout t w) s = execRelayout t w s := rfl
@[simp] theorem exec_send (t : Thr) (w : Word128) (s : State) : exec (.send t w) s = execSend t w s := rfl
@[simp] theorem exec_recv (t : Thr) (w : Word128) (s : State) : exec (.recv t w) s = execRecv t w s := rfl
@[simp] theorem exec_relay (t : Thr) (w : Word128) (s : State) : exec (.relay t w) s = execRelay t w s := rfl
@[simp] theorem exec_strmStop (t : Thr) (w : Word128) (s : State) : exec (.strmStop t w) s = execStrmStop t w s := rfl
@[simp] theorem exec_drillInstructionStart (til : Tid) (s : State) : exec (.drillInstructionStart til) s = execDrillInstructionStart til s := rfl
@[simp] theorem exec_fillLineRequest (til : Tid) (x : FillTcIn) (s : State) : exec (.fillLineRequest til x) s = execFillLineRequest til x s := rfl
@[simp] theorem exec_stashBufferReady (til : Tid) (s : State) : exec (.stashBufferReady til) s = execStashBufferReady til s := rfl
@[simp] theorem exec_partialLands (til : Tid) (s : State) : exec (.partialLands til) s = execPartialLands til s := rfl
@[simp] theorem exec_drainReadStart (til : Tid) (id : Nat) (s : State) : exec (.drainReadStart til id) s = execDrainReadStart til id s := rfl
@[simp] theorem exec_drainComplete (til : Tid) (id : Nat) (s : State) : exec (.drainComplete til id) s = execDrainComplete til id s := rfl
@[simp] theorem exec_tileInstructionComplete (til : Tid) (id : Nat) (s : State) : exec (.tileInstructionComplete til id) s = execTileInstructionComplete til id s := rfl
@[simp] theorem exec_furrowServe (die num : Nat) (s : State) : exec (.furrowServe die num) s = execFurrowServe die num s := rfl
@[simp] theorem exec_counterArmWrite (h : ReqHead) (index : BitVec 16) (limit : Word32) (s : State) : exec (.counterArmWrite h index limit) s = execCounterArmWrite h index limit s := rfl
@[simp] theorem exec_signalArrival (id : Nat) (s : State) : exec (.signalArrival id) s = execSignalArrival id s := rfl
@[simp] theorem exec_waiterServed (sem : Nat) (s : State) : exec (.waiterServed sem) s = execWaiterServed sem s := rfl
@[simp] theorem exec_streamUfTaken (c : CtxId) (s : State) : exec (.streamUfTaken c) s = execStreamUfTaken c s := rfl
@[simp] theorem exec_streamDeTaken (c : CtxId) (s : State) : exec (.streamDeTaken c) s = execStreamDeTaken c s := rfl
@[simp] theorem exec_chunkGrant (c : CtxId) (s : State) : exec (.chunkGrant c) s = execChunkGrant c s := rfl
@[simp] theorem exec_streamChunkRead (c : CtxId) (chunk : Nat) (s : State) : exec (.streamChunkRead c chunk) s = execStreamChunkRead c chunk s := rfl
@[simp] theorem exec_streamSourceReadDone (c : CtxId) (chunk : Nat) (s : State) : exec (.streamSourceReadDone c chunk) s = execStreamSourceReadDone c chunk s := rfl
@[simp] theorem exec_streamChunkWritten (c : CtxId) (s : State) : exec (.streamChunkWritten c) s = execStreamChunkWritten c s := rfl
@[simp] theorem exec_streamDone (c : CtxId) (s : State) : exec (.streamDone c) s = execStreamDone c s := rfl
@[simp] theorem exec_streamAutoResume (c : CtxId) (s : State) : exec (.streamAutoResume c) s = execStreamAutoResume c s := rfl
@[simp] theorem exec_resume (h : ReqHead) (value : Word32) (s : State) : exec (.resume h value) s = execResume h value s := rfl
@[simp] theorem exec_abandon (h : ReqHead) (value : Word32) (s : State) : exec (.abandon h value) s = execAbandon h value s := rfl
@[simp] theorem exec_resumeJob (h : ReqHead) (job : Word32) (s : State) : exec (.resumeJob h job) s = execResumeJob h job s := rfl
@[simp] theorem exec_walkLatch (c : CtxId) (s : State) : exec (.walkLatch c) s = execWalkLatch c s := rfl
@[simp] theorem exec_walkRelease (c : CtxId) (s : State) : exec (.walkRelease c) s = execWalkRelease c s := rfl
@[simp] theorem exec_granaryRequestAdmitted (r : SectorReq) (s : State) : exec (.granaryRequestAdmitted r) s = execGranaryRequestAdmitted r s := rfl
@[simp] theorem exec_granarySectorAccess (stack : Fin 8) (id : Nat) (e : CodeResult) (s : State) : exec (.granarySectorAccess stack id e) s = execGranarySectorAccess stack id e s := rfl
@[simp] theorem exec_bankRefresh (b : BankId) (s : State) : exec (.bankRefresh b) s = execBankRefresh b s := rfl
@[simp] theorem exec_translationInvalidate (h : ReqHead) (job : BitVec 16) (s : State) : exec (.translationInvalidate h job) s = execTranslationInvalidate h job s := rfl
@[simp] theorem exec_fetch (s : State) : exec (.fetch) s = execFetch s := rfl
@[simp] theorem exec_writeback (s : State) : exec (.writeback) s = execWriteback s := rfl
@[simp] theorem exec_evict (s : State) : exec (.evict) s = execEvict s := rfl
@[simp] theorem exec_copy (s : State) : exec (.copy) s = execCopy s := rfl
@[simp] theorem exec_bind (s : State) : exec (.bind) s = execBind s := rfl
@[simp] theorem exec_unpin (s : State) : exec (.unpin) s = execUnpin s := rfl
@[simp] theorem exec_sowingWait (s : State) : exec (.sowingWait) s = execSowingWait s := rfl
@[simp] theorem exec_sowingEnd (s : State) : exec (.sowingEnd) s = execSowingEnd s := rfl
@[simp] theorem exec_sowingCredit (count : BitVec 16) (s : State) : exec (.sowingCredit count) s = execSowingCredit count s := rfl
@[simp] theorem exec_layerAdvance (count : BitVec 16) (s : State) : exec (.layerAdvance count) s = execLayerAdvance count s := rfl
@[simp] theorem exec_baleMoveComplete (ga : Nat) (data : List Byte) (failed : List Nat) (s : State) : exec (.baleMoveComplete ga data failed) s = execBaleMoveComplete ga data failed s := rfl
@[simp] theorem exec_baleWritebackDone (ga : Nat) (failed : List Nat) (s : State) : exec (.baleWritebackDone ga failed) s = execBaleWritebackDone ga failed s := rfl
@[simp] theorem exec_deferredEviction (ga : Nat) (s : State) : exec (.deferredEviction ga) s = execDeferredEviction ga s := rfl
@[simp] theorem exec_copyComplete (entry : Nat) (s : State) : exec (.copyComplete entry) s = execCopyComplete entry s := rfl
@[simp] theorem exec_clearLongestWait (h : ReqHead) (s : State) : exec (.clearLongestWait h) s = execClearLongestWait h s := rfl
@[simp] theorem exec_snapshot (h : ReqHead) (s : State) : exec (.snapshot h) s = execSnapshot h s := rfl
@[simp] theorem exec_clipDescriptorPosted (count : BitVec 16) (s : State) : exec (.clipDescriptorPosted count) s = execClipDescriptorPosted count s := rfl
@[simp] theorem exec_outputSlotReleased (count : BitVec 16) (s : State) : exec (.outputSlotReleased count) s = execOutputSlotReleased count s := rfl
@[simp] theorem exec_awnDescriptorStart (s : State) : exec (.awnDescriptorStart) s = execAwnDescriptorStart s := rfl
@[simp] theorem exec_awnOutputWrite (s : State) : exec (.awnOutputWrite) s = execAwnOutputWrite s := rfl
@[simp] theorem exec_awnDescriptorComplete (s : State) : exec (.awnDescriptorComplete) s = execAwnDescriptorComplete s := rfl
@[simp] theorem exec_blockCompleteSignal (count : BitVec 16) (s : State) : exec (.blockCompleteSignal count) s = execBlockCompleteSignal count s := rfl
@[simp] theorem exec_roundFinishedSignal (count : BitVec 16) (s : State) : exec (.roundFinishedSignal count) s = execRoundFinishedSignal count s := rfl
@[simp] theorem exec_rotationCreditGrant (pos : Nat) (note : RotNote) (s : State) : exec (.rotationCreditGrant pos note) s = execRotationCreditGrant pos note s := rfl
@[simp] theorem exec_rotationBlockSend (pos round : Nat) (s : State) : exec (.rotationBlockSend pos round) s = execRotationBlockSend pos round s := rfl
@[simp] theorem exec_rotationBlockComplete (pos : Nat) (note : RotNote) (data : List Byte) (s : State) :
    exec (.rotationBlockComplete pos note data) s = execRotationBlockComplete pos note data s := rfl
@[simp] theorem exec_tilePost (gid : Fin 13) (index : BitVec 6) (count : BitVec 16) (s : State) : exec (.tilePost gid index count) s = execTilePost gid index count s := rfl
@[simp] theorem exec_layerCompleteMarker (gid : Fin 13) (count : BitVec 16) (s : State) : exec (.layerCompleteMarker gid count) s = execLayerCompleteMarker gid count s := rfl
@[simp] theorem exec_stook (port : Fin 64) (f : Flit) (m : StookMsg) (s : State) : exec (.stook port f m) s = execStook port f m s := rfl
@[simp] theorem exec_stookAdd (gid : Fin 13) (tile : Nat) (s : State) : exec (.stookAdd gid tile) s = execStookAdd gid tile s := rfl
@[simp] theorem exec_gleanerDeadline (gid : Fin 13) (s : State) : exec (.gleanerDeadline gid) s = execGleanerDeadline gid s := rfl
@[simp] theorem exec_dsemSignal (gid : Fin 13) (s : State) : exec (.dsemSignal gid) s = execDsemSignal gid s := rfl
@[simp] theorem exec_normContribution (count : BitVec 16) (s : State) : exec (.normContribution count) s = execNormContribution count s := rfl
@[simp] theorem exec_normRoundComplete (sv e : Word32) (s : State) : exec (.normRoundComplete sv e) s = execNormRoundComplete sv e s := rfl
@[simp] theorem exec_commitVote (count : BitVec 16) (s : State) : exec (.commitVote count) s = execCommitVote count s := rfl
@[simp] theorem exec_commitRound1 (yes : Bool) (s : State) : exec (.commitRound1 yes) s = execCommitRound1 yes s := rfl
@[simp] theorem exec_commitRound2 (yes : Bool) (s : State) : exec (.commitRound2 yes) s = execCommitRound2 yes s := rfl
@[simp] theorem exec_rollbackQuiescent (s : State) : exec (.rollbackQuiescent) s = execRollbackQuiescent s := rfl
@[simp] theorem exec_admitJob (h : ReqHead) (ga : Word64) (s : State) : exec (.admitJob h ga) s = execAdmitJob h ga s := rfl
@[simp] theorem exec_admissionAndComplete (slot : Fin 4) (s : State) : exec (.admissionAndComplete slot) s = execAdmissionAndComplete slot s := rfl
@[simp] theorem exec_admissionAndTimeout (slot : Fin 4) (s : State) : exec (.admissionAndTimeout slot) s = execAdmissionAndTimeout slot s := rfl
@[simp] theorem exec_progressLimitExpiry (slot : Fin 4) (s : State) : exec (.progressLimitExpiry slot) s = execProgressLimitExpiry slot s := rfl
@[simp] theorem exec_jobEndNotice (job : Word32) (s : State) : exec (.jobEndNotice job) s = execJobEndNotice job s := rfl
@[simp] theorem exec_completionRecord (slot : Fin 4) (s : State) : exec (.completionRecord slot) s = execCompletionRecord slot s := rfl
@[simp] theorem exec_abort (h : ReqHead) (slot : Fin 4) (s : State) : exec (.abort h slot) s = execAbort h slot s := rfl
@[simp] theorem exec_freeSlot (h : ReqHead) (slot : Fin 4) (s : State) : exec (.freeSlot h slot) s = execFreeSlot h slot s := rfl
@[simp] theorem exec_hostSig (h : ReqHead) (value : Word64) (s : State) : exec (.hostSig h value) s = execHostSig h value s := rfl
@[simp] theorem exec_cxlMemRead (port : Fin 2) (off : Nat) (e : CodeResult) (s : State) : exec (.cxlMemRead port off e) s = execCxlMemRead port off e s := rfl
@[simp] theorem exec_cxlMemWrite (port : Fin 2) (off : Nat) (data : List Byte) (s : State) : exec (.cxlMemWrite port off data) s = execCxlMemWrite port off data s := rfl
@[simp] theorem exec_cxlIoAtomicop (port : Fin 2) (off : Nat) (s : State) : exec (.cxlIoAtomicop port off) s = execCxlIoAtomicop port off s := rfl
@[simp] theorem exec_perstAssert (port : Fin 2) (s : State) : exec (.perstAssert port) s = execPerstAssert port s := rfl
@[simp] theorem exec_perstRelease (r : PerstRelease) (s : State) : exec (.perstRelease r) s = execPerstRelease r s := rfl
@[simp] theorem exec_cxlLinkUp (port : Fin 2) (width rate : BitVec 8) (s : State) : exec (.cxlLinkUp port width rate) s = execCxlLinkUp port width rate s := rfl
@[simp] theorem exec_read (h : ReqHead) (e : Entry) (set : BitVec 2) (offset : Word32) (s : State) : exec (.read h e set offset) s = execRead h e set offset s := rfl
@[simp] theorem exec_write (h : ReqHead) (e : Entry) (offset : Word32) (data : List Byte) (s : State) : exec (.write h e offset data) s = execWrite h e offset data s := rfl
@[simp] theorem exec_describe (h : ReqHead) (e : Entry) (s : State) : exec (.describe h e) s = execDescribe h e s := rfl
@[simp] theorem exec_sessionOpen (h : ReqHead) (s : State) : exec (.sessionOpen h) s = execSessionOpen h s := rfl
@[simp] theorem exec_sessionClose (h : ReqHead) (s : State) : exec (.sessionClose h) s = execSessionClose h s := rfl
@[simp] theorem exec_keepalive (h : ReqHead) (s : State) : exec (.keepalive h) s = execKeepalive h s := rfl
@[simp] theorem exec_batch (h : ReqHead) (members : List Request) (s : State) : exec (.batch h members) s = execBatch h members s := rfl
@[simp] theorem exec_sessionIdleTimeout (sid : Fin 8) (s : State) : exec (.sessionIdleTimeout sid) s = execSessionIdleTimeout sid s := rfl
@[simp] theorem exec_setEndpointId (eid : Byte) (s : State) : exec (.setEndpointId eid) s = execSetEndpointId eid s := rfl
@[simp] theorem exec_getEndpointId (s : State) : exec (.getEndpointId) s = execGetEndpointId s := rfl
@[simp] theorem exec_getMctpVersionSupport (msgType : Byte) (s : State) : exec (.getMctpVersionSupport msgType) s = execGetMctpVersionSupport msgType s := rfl
@[simp] theorem exec_getMessageTypeSupport (s : State) : exec (.getMessageTypeSupport) s = execGetMessageTypeSupport s := rfl
@[simp] theorem exec_stop (h : ReqHead) (fn : BitVec 8) (s : State) : exec (.stop h fn) s = execStop h fn s := rfl
@[simp] theorem exec_start (h : ReqHead) (fn : BitVec 8) (s : State) : exec (.start h fn) s = execStart h fn s := rfl
@[simp] theorem exec_forcedStop (h : ReqHead) (fn : BitVec 8) (s : State) : exec (.forcedStop h fn) s = execForcedStop h fn s := rfl
@[simp] theorem exec_swap (h : ReqHead) (fn : BitVec 8) (s : State) : exec (.swap h fn) s = execSwap h fn s := rfl
@[simp] theorem exec_discard (h : ReqHead) (fn : BitVec 8) (s : State) : exec (.discard h fn) s = execDiscard h fn s := rfl
@[simp] theorem exec_loadPrevious (h : ReqHead) (fn : BitVec 8) (s : State) : exec (.loadPrevious h fn) s = execLoadPrevious h fn s := rfl
@[simp] theorem exec_safePointSwap (fn : BitVec 8) (unit : Nat) (s : State) : exec (.safePointSwap fn unit) s = execSafePointSwap fn unit s := rfl
@[simp] theorem exec_stoppingComplete (fn : BitVec 8) (s : State) : exec (.stoppingComplete fn) s = execStoppingComplete fn s := rfl
@[simp] theorem exec_startingComplete (fn : BitVec 8) (s : State) : exec (.startingComplete fn) s = execStartingComplete fn s := rfl
@[simp] theorem exec_functionFault (fn : BitVec 8) (reason : BitVec 8) (place : Nat) (s : State) : exec (.functionFault fn reason place) s = execFunctionFault fn reason place s := rfl
@[simp] theorem exec_recoveryEnd (fn : BitVec 8) (test : SelfTest) (s : State) : exec (.recoveryEnd fn test) s = execRecoveryEnd fn test s := rfl
@[simp] theorem exec_storeSettings (h : ReqHead) (s : State) : exec (.storeSettings h) s = execStoreSettings h s := rfl
@[simp] theorem exec_eraseSettings (h : ReqHead) (s : State) : exec (.eraseSettings h) s = execEraseSettings h s := rfl
@[simp] theorem exec_storeComplete (s : State) : exec (.storeComplete) s = execStoreComplete s := rfl
@[simp] theorem exec_idle (port : Fin 64) (f : Flit) (s : State) : exec (.idle port f) s = execIdle port f s := rfl
@[simp] theorem exec_link (port : Fin 64) (f : Flit) (s : State) : exec (.link port f) s = execLink port f s := rfl
@[simp] theorem exec_training (port : Fin 64) (f : Flit) (m : TrainMsg) (s : State) : exec (.training port f m) s = execTraining port f m s := rfl
@[simp] theorem exec_map (port : Fin 64) (f : Flit) (m : MapMsg) (s : State) : exec (.map port f m) s = execMap port f m s := rfl
@[simp] theorem exec_urgent (port : Fin 64) (f : Flit) (m : UrgentMsg) (s : State) : exec (.urgent port f m) s = execUrgent port f m s := rfl
@[simp] theorem exec_remoteRead (port : Fin 64) (f : Flit) (s : State) : exec (.remoteRead port f) s = execRemoteRead port f s := rfl
@[simp] theorem exec_remoteWrite (port : Fin 64) (f : Flit) (s : State) : exec (.remoteWrite port f) s = execRemoteWrite port f s := rfl
@[simp] theorem exec_response (port : Fin 64) (f : Flit) (s : State) : exec (.response port f) s = execResponse port f s := rfl
@[simp] theorem exec_replayNotice (port : Fin 64) (f : Flit) (dst vc : Nat) (s : State) : exec (.replayNotice port f dst vc) s = execReplayNotice port f dst vc s := rfl
@[simp] theorem exec_ackTimeout (port : Fin 64) (s : State) : exec (.ackTimeout port) s = execAckTimeout port s := rfl
@[simp] theorem exec_replayWindowEnd (port : Fin 64) (s : State) : exec (.replayWindowEnd port) s = execReplayWindowEnd port s := rfl
@[simp] theorem exec_wavelengthLoss (port : Fin 64) (lambda : Fin 8) (s : State) : exec (.wavelengthLoss port lambda) s = execWavelengthLoss port lambda s := rfl
@[simp] theorem exec_retirePort (h : ReqHead) (n : Byte) (s : State) : exec (.retirePort h n) s = execRetirePort h n s := rfl
@[simp] theorem exec_retrainPort (h : ReqHead) (n : Byte) (s : State) : exec (.retrainPort h n) s = execRetrainPort h n s := rfl
@[simp] theorem exec_trainingStepTimeout (port : Fin 64) (s : State) : exec (.trainingStepTimeout port) s = execTrainingStepTimeout port s := rfl
@[simp] theorem exec_trainingRetry (port : Fin 64) (s : State) : exec (.trainingRetry port) s = execTrainingRetry port s := rfl
@[simp] theorem exec_transactionTimeout (port : Fin 64) (tag : BitVec 12) (s : State) : exec (.transactionTimeout port tag) s = execTransactionTimeout port tag s := rfl
@[simp] theorem exec_flowRouteMove (dst vc : Nat) (s : State) : exec (.flowRouteMove dst vc) s = execFlowRouteMove dst vc s := rfl
@[simp] theorem exec_spareReturn (s : State) : exec (.spareReturn) s = execSpareReturn s := rfl
@[simp] theorem exec_hedgerowFlitReplay (die : Fin 10) (x : HedgeTransfer) (again : Bool) (s : State) : exec (.hedgerowFlitReplay die x again) s = execHedgerowFlitReplay die x again s := rfl
@[simp] theorem exec_scrubSectorRead (stack : Fin 8) (e : CodeResult) (s : State) : exec (.scrubSectorRead stack e) s = execScrubSectorRead stack e s := rfl
@[simp] theorem exec_rowRepairComplete (b : BankId) (row : Nat) (s : State) : exec (.rowRepairComplete b row) s = execRowRepairComplete b row s := rfl
@[simp] theorem exec_bankSpareComplete (b : BankId) (s : State) : exec (.bankSpareComplete b) s = execBankSpareComplete b s := rfl
@[simp] theorem exec_seltyHeartbeat (seen : Bool) (s : State) : exec (.seltyHeartbeat seen) s = execSeltyHeartbeat seen s := rfl
@[simp] theorem exec_controllerChangeover (s : State) : exec (.controllerChangeover) s = execControllerChangeover s := rfl
@[simp] theorem exec_firmwareActivate (h : ReqHead) (s : State) : exec (.firmwareActivate h) s = execFirmwareActivate h s := rfl
@[simp] theorem exec_activationStepDone (ok : Bool) (s : State) : exec (.activationStepDone ok) s = execActivationStepDone ok s := rfl
@[simp] theorem exec_blackBoxRecordWrite (s : State) : exec (.blackBoxRecordWrite) s = execBlackBoxRecordWrite s := rfl
@[simp] theorem exec_sleep (h : ReqHead) (s : State) : exec (.sleep h) s = execSleep h s := rfl
@[simp] theorem exec_deepSleep (h : ReqHead) (s : State) : exec (.deepSleep h) s = execDeepSleep h s := rfl
@[simp] theorem exec_off (h : ReqHead) (s : State) : exec (.off h) s = execOff h s := rfl
@[simp] theorem exec_wakeN (s : State) : exec (.wakeN) s = execWakeN s := rfl
@[simp] theorem exec_wakeTimerExpiry (s : State) : exec (.wakeTimerExpiry) s = execWakeTimerExpiry s := rfl
@[simp] theorem exec_wakeExitComplete (s : State) : exec (.wakeExitComplete) s = execWakeExitComplete s := rfl
@[simp] theorem exec_idleHoldExpiry (s : State) : exec (.idleHoldExpiry) s = execIdleHoldExpiry s := rfl
@[simp] theorem exec_seltyControlPeriod (s : State) : exec (.seltyControlPeriod) s = execSeltyControlPeriod s := rfl
@[simp] theorem exec_sensorSample (n : Fin 136) (mdeg : Int) (s : State) : exec (.sensorSample n mdeg) s = execSensorSample n mdeg s := rfl
@[simp] theorem exec_pwralertAssert (s : State) : exec (.pwralertAssert) s = execPwralertAssert s := rfl
@[simp] theorem exec_pwralertDeassert (s : State) : exec (.pwralertDeassert) s = execPwralertDeassert s := rfl
@[simp] theorem exec_releaseHoldExpiry (s : State) : exec (.releaseHoldExpiry) s = execReleaseHoldExpiry s := rfl
@[simp] theorem exec_drillGateRequest (til : Tid) (s : State) : exec (.drillGateRequest til) s = execDrillGateRequest til s := rfl
@[simp] theorem exec_drillGatingGrant (til : Tid) (s : State) : exec (.drillGatingGrant til) s = execDrillGatingGrant til s := rfl
@[simp] theorem exec_drillStartGrant (til : Tid) (s : State) : exec (.drillStartGrant til) s = execDrillStartGrant til s := rfl
@[simp] theorem exec_drillRampEnd (til : Tid) (s : State) : exec (.drillRampEnd til) s = execDrillRampEnd til s := rfl
@[simp] theorem exec_inputUndervoltage (mv : Nat) (s : State) : exec (.inputUndervoltage mv) s = execInputUndervoltage mv s := rfl
@[simp] theorem exec_inputRecovered (mv : Nat) (s : State) : exec (.inputRecovered mv) s = execInputRecovered mv s := rfl
@[simp] theorem exec_inputPowerFailure (mv : Nat) (s : State) : exec (.inputPowerFailure mv) s = execInputPowerFailure mv s := rfl
@[simp] theorem exec_auxLost (s : State) : exec (.auxLost) s = execAuxLost s := rfl
@[simp] theorem exec_auxPowerOn (s : State) : exec (.auxPowerOn) s = execAuxPowerOn s := rfl
@[simp] theorem exec_mainPowerGood (mv : Nat) (s : State) : exec (.mainPowerGood mv) s = execMainPowerGood mv s := rfl
@[simp] theorem exec_imageUpload (h : ReqHead) (image : List Byte) (s : State) : exec (.imageUpload h image) s = execImageUpload h image s := rfl
@[simp] theorem exec_imageCheckComplete (s : State) : exec (.imageCheckComplete) s = execImageCheckComplete s := rfl
@[simp] theorem exec_raiseFloor (h : ReqHead) (s : State) : exec (.raiseFloor h) s = execRaiseFloor h s := rfl
@[simp] theorem exec_revoke (h : ReqHead) (value : Byte) (s : State) : exec (.revoke h value) s = execRevoke h value s := rfl
@[simp] theorem exec_newChallenge (h : ReqHead) (s : State) : exec (.newChallenge h) s = execNewChallenge h s := rfl
@[simp] theorem exec_unlockToken (h : ReqHead) (token : List Byte) (s : State) : exec (.unlockToken h token) s = execUnlockToken h token s := rfl
@[simp] theorem exec_getVersion (tr : SpdmTransport) (s : State) : exec (.getVersion tr) s = execGetVersion tr s := rfl
@[simp] theorem exec_getCapabilities (tr : SpdmTransport) (version : Byte) (s : State) : exec (.getCapabilities tr version) s = execGetCapabilities tr version s := rfl
@[simp] theorem exec_negotiateAlgorithms (tr : SpdmTransport) (o : AlgOffer) (s : State) : exec (.negotiateAlgorithms tr o) s = execNegotiateAlgorithms tr o s := rfl
@[simp] theorem exec_getDigests (tr : SpdmTransport) (s : State) : exec (.getDigests tr) s = execGetDigests tr s := rfl
@[simp] theorem exec_getCertificate (tr : SpdmTransport) (slot : Nat) (offset length : Nat) (s : State) : exec (.getCertificate tr slot offset length) s = execGetCertificate tr slot offset length s := rfl
@[simp] theorem exec_challenge (tr : SpdmTransport) (slot : Nat) (nonce : List Byte) (s : State) : exec (.challenge tr slot nonce) s = execChallenge tr slot nonce s := rfl
@[simp] theorem exec_getMeasurements (tr : SpdmTransport) (block : Nat) (signed : Bool) (nonce : List Byte) (s : State) : exec (.getMeasurements tr block signed nonce) s = execGetMeasurements tr block signed nonce s := rfl
@[simp] theorem exec_keyExchange (tr : SpdmTransport) (slot : Nat) (dhe : List Byte) (s : State) : exec (.keyExchange tr slot dhe) s = execKeyExchange tr slot dhe s := rfl
@[simp] theorem exec_finish (tr : SpdmTransport) (sess : Nat) (macOk : Bool) (s : State) : exec (.finish tr sess macOk) s = execFinish tr sess macOk s := rfl
@[simp] theorem exec_heartbeat (tr : SpdmTransport) (sess : Nat) (s : State) : exec (.heartbeat tr sess) s = execHeartbeat tr sess s := rfl
@[simp] theorem exec_endSession (tr : SpdmTransport) (sess : Nat) (s : State) : exec (.endSession tr sess) s = execEndSession tr sess s := rfl
@[simp] theorem exec_getCsr (tr : SpdmTransport) (slot : Nat) (s : State) : exec (.getCsr tr slot) s = execGetCsr tr slot s := rfl
@[simp] theorem exec_setCertificate (tr : SpdmTransport) (slot : Nat) (chain last : List Byte) (s : State) : exec (.setCertificate tr slot chain last) s = execSetCertificate tr slot chain last s := rfl
@[simp] theorem exec_snapshotComplete (s : State) : exec (.snapshotComplete) s = execSnapshotComplete s := rfl
@[simp] theorem exec_invalidationComplete (s : State) : exec (.invalidationComplete) s = execInvalidationComplete s := rfl
@[simp] theorem exec_furrowReplyArrival (t : Thr) (s : State) : exec (.furrowReplyArrival t) s = execFurrowReplyArrival t s := rfl
@[simp] theorem exec_bladeInstructionStart (til : Tid) (s : State) : exec (.bladeInstructionStart til) s = execBladeInstructionStart til s := rfl
@[simp] theorem exec_codewordLock (port : Fin 64) (s : State) : exec (.codewordLock port) s = execCodewordLock port s := rfl
@[simp] theorem exec_cxlLinkDown (port : Fin 2) (s : State) : exec (.cxlLinkDown port) s = execCxlLinkDown port s := rfl
@[simp] theorem exec_exitFromL1 (port : Fin 2) (s : State) : exec (.exitFromL1 port) s = execExitFromL1 port s := rfl
@[simp] theorem exec_dynamicAddressAssigned (a : AddrAssign) (s : State) : exec (.dynamicAddressAssigned a) s = execDynamicAddressAssigned a s := rfl
@[simp] theorem exec_i3cAddressLost (s : State) : exec (.i3cAddressLost) s = execI3cAddressLost s := rfl
@[simp] theorem exec_regulatorOvercurrent (s : State) : exec (.regulatorOvercurrent) s = execRegulatorOvercurrent s := rfl
@[simp] theorem exec_controllerRestart (ok : Bool) (s : State) : exec (.controllerRestart ok) s = execControllerRestart ok s := rfl
@[simp] theorem exec_referenceClockPresent (port : Fin 2) (s : State) : exec (.referenceClockPresent port) s = execReferenceClockPresent port s := rfl
@[simp] theorem exec_backInvalidateResponse (port : Fin 2) (line : Nat) (dirty : List Byte) (s : State) : exec (.backInvalidateResponse port line dirty) s = execBackInvalidateResponse port line dirty s := rfl
@[simp] theorem exec_unorderedIoPeerAccess (port : Fin 2) (off : Nat) (write : Bool) (data : List Byte) (s : State) : exec (.unorderedIoPeerAccess port off write data) s = execUnorderedIoPeerAccess port off write data s := rfl
@[simp] theorem exec_boundaryScan (tck tms tdi trstN : Bool) (s : State) : exec (.boundaryScan tck tms tdi trstN) s = execBoundaryScan tck tms tdi trstN s := rfl

end Sys2Proof.Machine
end

