-- ==== Sys2Proof/Laws/Kv.lean ====
section
/-! SUPPORT. Sparse maps and byte stores: what a read after a write gives, and that every write keeps the canonical form. -/
namespace Sys2Proof.Machine

variable {α : Type}

/-! ## Reads after writes -/

@[simp] theorem kvGet_nil (d : α) (i : Nat) : kvGet d [] i = d := rfl

theorem kvGet_kvPut (d : α) (m : KV α) (i j : Nat) (x : α) :
    kvGet d (kvPut m i x) j = if j = i then x else kvGet d m j := by
  induction m with
  | nil => rfl
  | cons c m ih =>
    obtain ⟨k, v⟩ := c
    by_cases h : i = k
    · subst h; by_cases g : j = i <;> simp [kvPut, kvGet, g]
    · by_cases l : i < k
      · simp [kvPut, kvGet, h, l]
      · by_cases g : j = k
        · have e : j ≠ i := fun e => h (e ▸ g)
          simp [kvPut, kvGet, h, l, g, show ¬ k = i from fun e => h e.symm]
        · simp [kvPut, kvGet, h, l, g, ih]

theorem kvGet_kvDrop (d : α) (m : KV α) (i j : Nat) :
    kvGet d (kvDrop m i) j = if j = i then d else kvGet d m j := by
  induction m with
  | nil => simp [kvDrop, kvGet]
  | cons c m ih =>
    obtain ⟨k, v⟩ := c
    rw [kvDrop] at ih ⊢
    by_cases h : k = i
    · simp only [List.filter, h, ne_eq, not_true, decide_false, ih, kvGet]
      by_cases g : j = i <;> simp [g]
    · simp only [List.filter, ne_eq, h, not_false_eq_true, decide_true, kvGet, ih]
      by_cases g : j = k
      · simp [g, h]
      · simp [g]

/-- A key reads as what was last set there; every other key as before. -/
theorem kvGet_kvSet [DecidableEq α] (d : α) (m : KV α) (i j : Nat) (x : α) :
    kvGet d (kvSet d m i x) j = if j = i then x else kvGet d m j := by
  unfold kvSet
  split
  · next h => subst h; exact kvGet_kvDrop _ m i j
  · exact kvGet_kvPut d m i j x

@[simp] theorem kvGet_kvSet_same [DecidableEq α] (d : α) (m : KV α) (i : Nat) (x : α) :
    kvGet d (kvSet d m i x) i = x := by simp [kvGet_kvSet]

theorem kvGet_kvSet_other [DecidableEq α] (d : α) (m : KV α) {i j : Nat} (x : α) (h : j ≠ i) :
    kvGet d (kvSet d m i x) j = kvGet d m j := by simp [kvGet_kvSet, h]

theorem kvGet_kvMod [DecidableEq α] (d : α) (m : KV α) (i j : Nat) (f : α → α) :
    kvGet d (kvMod d m i f) j = if j = i then f (kvGet d m i) else kvGet d m j := kvGet_kvSet d m i j _

theorem kvFind_kvPut (m : KV α) (i j : Nat) (x : α) :
    kvFind (kvPut m i x) j = if j = i then some x else kvFind m j := by
  induction m with
  | nil => rfl
  | cons c m ih =>
    obtain ⟨k, v⟩ := c
    by_cases h : i = k
    · subst h; by_cases g : j = i <;> simp [kvPut, kvFind, g]
    · by_cases l : i < k
      · simp [kvPut, kvFind, h, l]
      · by_cases g : j = k
        · simp [kvPut, kvFind, h, l, g, show ¬ k = i from fun e => h e.symm]
        · simp [kvPut, kvFind, h, l, g, ih]

theorem kvFind_kvDrop (m : KV α) (i j : Nat) :
    kvFind (kvDrop m i) j = if j = i then none else kvFind m j := by
  induction m with
  | nil => simp [kvDrop, kvFind]
  | cons c m ih =>
    obtain ⟨k, v⟩ := c
    rw [kvDrop] at ih ⊢
    by_cases h : k = i
    · simp only [List.filter, h, ne_eq, not_true, decide_false, ih, kvFind]
      by_cases g : j = i <;> simp [g]
    · simp only [List.filter, ne_eq, h, not_false_eq_true, decide_true, kvFind, ih]
      by_cases g : j = k
      · simp [g, h]
      · simp [g]

/-! ## The canonical form, as a property of lists -/

/-- Keys rise strictly exactly where every earlier key is below every later one. -/
theorem kvRising_iff (m : KV α) : kvRising m = true ↔ m.Pairwise (fun a b => a.1 < b.1) := by
  induction m with
  | nil => simp [kvRising]
  | cons c m ih =>
    obtain ⟨k, v⟩ := c
    cases m with
    | nil => simp [kvRising]
    | cons c' m =>
      obtain ⟨k', v'⟩ := c'
      simp only [kvRising, Bool.and_eq_true, decide_eq_true_eq, ih, List.pairwise_cons, List.mem_cons]
      constructor
      · rintro ⟨h, hp, hr⟩
        refine ⟨?_, hp, hr⟩
        rintro c (rfl | hc)
        · exact h
        · exact lt_trans h (hp c hc)
      · rintro ⟨h, hp, hr⟩
        exact ⟨h (k', v') (.inl rfl), hp, hr⟩

theorem mem_kvPut {m : KV α} {i : Nat} {x : α} {c : Nat × α} (h : c ∈ kvPut m i x) : c = (i, x) ∨ c ∈ m := by
  induction m with
  | nil => simpa [kvPut] using h
  | cons b m ih =>
    obtain ⟨k, v⟩ := b
    simp only [kvPut] at h
    split at h
    · simp only [List.mem_cons] at h ⊢; tauto
    · split at h
      · simp only [List.mem_cons] at h ⊢; tauto
      · simp only [List.mem_cons] at h ⊢
        rcases h with h | h
        · exact .inr (.inl h)
        · exact (ih h).imp id .inr

theorem kvPut_pairwise {m : KV α} (h : m.Pairwise (fun a b => a.1 < b.1)) (i : Nat) (x : α) :
    (kvPut m i x).Pairwise (fun a b => a.1 < b.1) := by
  induction m with
  | nil => simp [kvPut]
  | cons b m ih =>
    obtain ⟨k, v⟩ := b
    obtain ⟨hk, hm⟩ := List.pairwise_cons.1 h
    simp only [kvPut]
    split
    · next e => exact List.pairwise_cons.2 ⟨fun c hc => by simpa [e] using hk c hc, hm⟩
    · next e =>
      split
      · next l =>
        refine List.pairwise_cons.2 ⟨?_, h⟩
        rintro c hc
        rcases List.mem_cons.1 hc with rfl | hc
        · exact l
        · exact lt_trans l (hk c hc)
      · next l =>
        refine List.pairwise_cons.2 ⟨?_, ih hm⟩
        intro c hc
        rcases mem_kvPut hc with rfl | hc
        · show k < i
          omega
        · exact hk c hc

/-- Setting a key keeps the canonical form. -/
theorem kvOk_kvSet [DecidableEq α] {d : α} {m : KV α} (h : kvOk d m = true) (i : Nat) (x : α) :
    kvOk d (kvSet d m i x) = true := by
  simp only [kvOk, Bool.and_eq_true, kvRising_iff, List.all_eq_true, decide_eq_true_eq] at h ⊢
  unfold kvSet
  split
  · exact ⟨h.1.filter _, fun c hc => h.2 c (List.mem_of_mem_filter hc)⟩
  · next e =>
    refine ⟨kvPut_pairwise h.1 i x, fun c hc => ?_⟩
    rcases mem_kvPut hc with rfl | hc
    · exact e
    · exact h.2 c hc

theorem kvOk_kvMod [DecidableEq α] {d : α} {m : KV α} (h : kvOk d m = true) (i : Nat) (f : α → α) :
    kvOk d (kvMod d m i f) = true := kvOk_kvSet h i _

/-- Dropping entries keeps the canonical form. -/
theorem kvOk_filter [DecidableEq α] {d : α} {m : KV α} (h : kvOk d m = true) (p : Nat × α → Bool) :
    kvOk d (m.filter p) = true := by
  simp only [kvOk, Bool.and_eq_true, kvRising_iff, List.all_eq_true, decide_eq_true_eq] at h ⊢
  exact ⟨h.1.filter _, fun c hc => h.2 c (List.mem_of_mem_filter hc)⟩

/-! ## Byte stores -/

theorem byteAt_setByte (m : Store) (i j : Nat) (b : Byte) :
    byteAt (setByte m i b) j = if j = i then b else byteAt m j := kvGet_kvSet 0 m i j b

/-- Bytes below the run written keep what they hold. -/
theorem byteAt_writeBytes_below (l : List Byte) (m : Store) (a j : Nat) (h : j < a) :
    byteAt (writeBytes m a l) j = byteAt m j := by
  induction l generalizing m a with
  | nil => rfl
  | cons b l ih => rw [writeBytes, ih _ _ (by omega), byteAt_setByte, if_neg (by omega)]

/-- What a byte reads as after a run of bytes is written. -/
theorem byteAt_writeBytes (l : List Byte) (m : Store) (a j : Nat) :
    byteAt (writeBytes m a l) j = if a ≤ j ∧ j < a + l.length then (l[j - a]?).getD 0 else byteAt m j := by
  induction l generalizing m a with
  | nil => simp [writeBytes]
  | cons b l ih =>
    rw [writeBytes, ih, byteAt_setByte]
    by_cases e : j = a
    · subst e; simp
    · by_cases h : a + 1 ≤ j ∧ j < a + 1 + l.length
      · rw [if_pos h, if_pos (by simp only [List.length_cons]; omega)]
        obtain ⟨n, rfl⟩ : ∃ n, j = a + 1 + n := ⟨j - (a + 1), by omega⟩
        rw [show a + 1 + n - (a + 1) = n by omega, show a + 1 + n - a = n + 1 by omega]
        simp
      · rw [if_neg h, if_neg e, if_neg (by simp only [List.length_cons]; omega)]

/-- A write leaves every byte outside its run alone. -/
theorem byteAt_writeBytes_outside (m : Store) (a : Nat) (l : List Byte) (j : Nat) (h : j < a ∨ a + l.length ≤ j) :
    byteAt (writeBytes m a l) j = byteAt m j := by rw [byteAt_writeBytes, if_neg (by omega)]

theorem readBytes_length (m : Store) (a n : Nat) : (readBytes m a n).length = n := by
  induction n generalizing a with
  | zero => rfl
  | succ n ih => simp [readBytes, ih]

theorem readBytes_getElem? (m : Store) (a n i : Nat) (h : i < n) : (readBytes m a n)[i]? = some (byteAt m (a + i)) := by
  induction n generalizing a i with
  | zero => omega
  | succ n ih =>
    cases i with
    | zero => rfl
    | succ i =>
      rw [readBytes, List.getElem?_cons_succ, ih (a + 1) i (by omega)]
      rw [show a + 1 + i = a + (i + 1) by omega]

/-- A run reads back as it was written. -/
theorem readBytes_writeBytes (m : Store) (a : Nat) (l : List Byte) :
    readBytes (writeBytes m a l) a l.length = l := by
  apply List.ext_getElem?
  intro i
  by_cases h : i < l.length
  · rw [readBytes_getElem? _ _ _ _ h, byteAt_writeBytes, if_pos (by omega)]
    simp [List.getElem?_eq_getElem h]
  · rw [List.getElem?_eq_none (by rw [readBytes_length]; omega), List.getElem?_eq_none (by omega)]

/-- A read is not touched by a write of bytes outside it. -/
theorem readBytes_writeBytes_outside (m : Store) (a : Nat) (l : List Byte) (b n : Nat)
    (h : b + n ≤ a ∨ a + l.length ≤ b) : readBytes (writeBytes m a l) b n = readBytes m b n := by
  apply List.ext_getElem?
  intro i
  by_cases hi : i < n
  · rw [readBytes_getElem? _ _ _ _ hi, readBytes_getElem? _ _ _ _ hi, byteAt_writeBytes_outside _ _ _ _ (by omega)]
  · rw [List.getElem?_eq_none (by rw [readBytes_length]; omega), List.getElem?_eq_none (by rw [readBytes_length]; omega)]

theorem Memory.wf_setByte {m : Store} (h : Memory.wf m = true) (a : Nat) (b : Byte) : Memory.wf (setByte m a b) = true :=
  kvOk_kvSet h a b

/-- Every write keeps the canonical form of a byte store. -/
theorem Memory.wf_writeBytes {m : Store} (h : Memory.wf m = true) (a : Nat) (l : List Byte) :
    Memory.wf (writeBytes m a l) = true := by
  induction l generalizing m a with
  | nil => exact h
  | cons b l ih => exact ih (Memory.wf_setByte h a b) (a + 1)

theorem Memory.wf_writeAll {m : Store} (h : Memory.wf m = true) (ws : List (Nat × List Byte)) :
    Memory.wf (writeAll m ws) = true := by
  induction ws generalizing m with
  | nil => exact h
  | cons w ws ih => exact ih (Memory.wf_writeBytes h w.1 w.2)

theorem toLe_length (n v : Nat) : (toLe n v).length = n := by
  induction n generalizing v with
  | zero => rfl
  | succ n ih => simp [toLe, ih]

/-- The bytes of a number spell it again, as far as they reach. -/
theorem leNat_toLe (n v : Nat) : leNat (toLe n v) = v % 2 ^ (8 * n) := by
  induction n generalizing v with
  | zero => simp [toLe, leNat, Nat.mod_one]
  | succ n ih =>
    have e : 2 ^ (8 * (n + 1)) = 256 * 2 ^ (8 * n) := by rw [show 8 * (n + 1) = 8 + 8 * n by ring, pow_add]; norm_num
    rw [toLe, leNat, ih, e, Nat.mod_mul, BitVec.toNat_ofNat]

end Sys2Proof.Machine
end

