-- ==== Sys2Proof/Laws/Ops.lean ====
section
/-! SUPPORT. What the shared operations over Tillers, threads, registers, jobs and counts do: each said once. -/
namespace Sys2Proof.Machine

/-! ## Names -/

theorem tilKey_inj {a b : Tid} (h : tilKey a = tilKey b) : a = b := by
  obtain ⟨⟨f, hf⟩, ⟨i, hi⟩⟩ := a
  obtain ⟨⟨g, hg⟩, ⟨j, hj⟩⟩ := b
  simp only [tilKey, Tid.mk.injEq, Fin.mk.injEq] at h ⊢
  omega

theorem tilKey_eq_iff {a b : Tid} : tilKey a = tilKey b ↔ a = b := ⟨tilKey_inj, fun h => h ▸ rfl⟩

/-- The Tiller ID of a Tiller names it. -/
theorem tilOf_tilKey (t : Tid) : tilOf (tilKey t) = some t := by
  obtain ⟨⟨f, hf⟩, ⟨i, hi⟩⟩ := t
  have h1 : (256 * f + i) / 256 = f := by omega
  have h2 : (256 * f + i) % 256 = i := by omega
  simp [tilOf, tilKey, h1, h2, hf, hi]

theorem tilKey_div (t : Tid) : tilKey t / 256 = t.field.val := by
  have := t.slot.isLt; simp only [tilKey]; omega

/-! ## Tillers, threads and registers -/

theorem tilAt_setTilAt (s : State) (i j : Nat) (x : Tiller) :
    tilAt (setTilAt s i x) j = if j = i then x else tilAt s j := kvGet_kvSet _ _ _ _ _

@[simp] theorem tilAt_setTilAt_same (s : State) (i : Nat) (x : Tiller) : tilAt (setTilAt s i x) i = x := by
  simp [tilAt_setTilAt]

theorem til_setTil (s : State) (t u : Tid) (x : Tiller) : til (setTil s t x) u = if u = t then x else til s u := by
  simp [til, setTil, tilAt_setTilAt, tilKey_eq_iff]

@[simp] theorem til_setTil_same (s : State) (t : Tid) (x : Tiller) : til (setTil s t x) t = x := by simp [til_setTil]

@[simp] theorem til_modTil_same (s : State) (t : Tid) (f : Tiller → Tiller) : til (modTil s t f) t = f (til s t) := by
  simp [modTil]

theorem thr_setThr (y : Tiller) (m n : Nat) (x : Thread) : thr (setThr y m x) n = if n = m then x else thr y n :=
  kvGet_kvSet _ _ _ _ _

@[simp] theorem thr_setThr_same (y : Tiller) (n : Nat) (x : Thread) : thr (setThr y n x) n = x := by simp [thr_setThr]

theorem setThr_frame (y : Tiller) (n : Nat) (x : Thread) : setThr y n x = { y with threads := (setThr y n x).threads } := rfl

theorem thread_setThread (s : State) (t u : Thr) (x : Thread) :
    thread (setThread s t x) u = if u = t then x else thread s u := by
  obtain ⟨a, n⟩ := t
  obtain ⟨b, m⟩ := u
  simp only [thread, setThread, modTil, til_setTil, Thr.mk.injEq]
  by_cases h : b = a
  · subst h; simp [thr_setThr, Fin.ext_iff]
  · simp [h]

@[simp] theorem thread_setThread_same (s : State) (t : Thr) (x : Thread) : thread (setThread s t x) t = x := by
  simp [thread_setThread]

/-- x0 reads as zero whatever is written to it; any other register reads as what was last written (R107). -/
theorem reg_setReg (x : Thread) (r q : Reg) (v : Word64) :
    reg (setReg x r v) q = if q = 0 then 0 else if q = r then v else reg x q := by
  by_cases h : q = 0
  · simp [reg, h]
  · by_cases g : r = 0
    · subst g; rw [if_neg h, if_neg h]; simp [setReg]
    · simp only [reg, setReg, g, h, if_false, kvGet_kvSet, BitVec.toNat_inj]

theorem setReg_other (x : Thread) (r : Reg) (v : Word64) :
    (setReg x r v).st = x.st ∧ (setReg x r v).pc = x.pc ∧ (setReg x r v).startTc = x.startTc ∧
      (setReg x r v).issueWait = x.issueWait ∧ (setReg x r v).drillWait = x.drillWait ∧ (setReg x r v).cause = x.cause := by
  unfold setReg; split <;> simp

/-! ## Jobs and counts -/

theorem jobAt_setJob (s : State) (i j : Nat) (x : Job) : jobAt (setJob s i x) j = if j = i then x else jobAt s j :=
  kvGet_kvSet _ _ _ _ _

theorem counts_bump (s : State) (idx sub n k : Nat) :
    kvGet 0 (bump s idx sub n).counts k = if k = od idx sub then kvGet 0 s.counts k + n else kvGet 0 s.counts k := by
  by_cases h : k = od idx sub <;> simp [bump, kvGet_kvMod, h]

/-- A count kept per Tiller changes that Tiller's counts and the module's, and nothing else. -/
theorem bumpTil_frame (s : State) (id idx sub n : Nat) :
    bumpTil s id idx sub n = { s with tillers := (bumpTil s id idx sub n).tillers, counts := (bumpTil s id idx sub n).counts } ∧
    (∀ j, j ≠ id → tilAt (bumpTil s id idx sub n) j = tilAt s j) ∧
    tilAt (bumpTil s id idx sub n) id = { tilAt s id with counts := kvMod 0 (tilAt s id).counts (od idx sub) (· + n) } ∧
    ∀ k, k ≠ od idx sub → kvGet 0 (bumpTil s id idx sub n).counts k = kvGet 0 s.counts k := by
  refine ⟨rfl, fun j h => ?_, ?_, fun k h => ?_⟩
  · exact (tilAt_setTilAt s id j _).trans (by simp [h])
  · exact (tilAt_setTilAt s id id _).trans (by simp)
  · simp [bumpTil, counts_bump, h, setTilAt]

/-! ## The frame of an operation on one thread -/

/-- Nothing changes but the stated thread of the Tiller, the Tiller's counts and its last thread to issue, the count of waits
at issue, and the progress of jobs. -/
def OneThread (s s' : State) (id n : Nat) : Prop :=
  s' = { s with tillers := s'.tillers, jobs := s'.jobs, counts := s'.counts } ∧ OnlyProgress s s' ∧
  (∀ j, j ≠ id → tilAt s' j = tilAt s j) ∧
  tilAt s' id = { tilAt s id with
    threads := (tilAt s' id).threads, counts := (tilAt s' id).counts, turn := (tilAt s' id).turn } ∧
  ((tilAt s' id).turn = (tilAt s id).turn ∨ (tilAt s' id).turn = n) ∧
  ∀ m, m ≠ n → thr (tilAt s' id) m = thr (tilAt s id) m

theorem OneThread.refl (s : State) (id n : Nat) : OneThread s s id n :=
  ⟨rfl, ⟨fun _ => rfl, fun _ _ _ => rfl⟩, fun _ _ => rfl, rfl, .inl rfl, fun _ _ => rfl⟩

theorem OneThread.trans {a b c : State} {id n : Nat} (h : OneThread a b id n) (g : OneThread b c id n) : OneThread a c id n := by
  obtain ⟨h1, ⟨h2, h3⟩, h4, h5, h7, h6⟩ := h
  obtain ⟨g1, ⟨g2, g3⟩, g4, g5, g7, g6⟩ := g
  refine ⟨?_, ⟨fun i => ?_, fun k p q => (g3 k p q).trans (h3 k p q)⟩, fun j hj => (g4 j hj).trans (h4 j hj), ?_, ?_,
    fun m hm => (g6 m hm).trans (h6 m hm)⟩
  · rw [g1, h1]
  · rw [g2 i, h2 i]
  · rw [g5, h5]
  · rcases g7 with g | g
    · rcases h7 with h | h
      · exact .inl (g.trans h)
      · exact .inr (g.trans h)
    · exact .inr g

/-- A thread is set: only it changes. -/
theorem setTilAt_setThr_oneThread (s : State) (id n : Nat) (x : Thread) :
    OneThread s (setTilAt s id (setThr (tilAt s id) n x)) id n := by
  refine ⟨rfl, ⟨fun _ => rfl, fun _ _ _ => rfl⟩, fun j h => ?_, ?_, ?_, fun m h => ?_⟩
  · simp [tilAt_setTilAt, h]
  · simp [setThr]
  · simp [setThr]
  · simp [thr_setThr, h]

theorem setThread_oneThread (s : State) (t : Thr) (x : Thread) :
    OneThread s (setThread s t x) (tilKey t.til) t.n.val := setTilAt_setThr_oneThread s _ _ x

/-- The counts of waits at issue move. -/
theorem bumpTil_oneThread (s : State) (id idx sub k n : Nat)
    (h : od idx sub = od 0xA210 4 ∨ od idx sub = od 0xA230 2) : OneThread s (bumpTil s id idx sub k) id n := by
  obtain ⟨h1, h2, h3, h4⟩ := bumpTil_frame s id idx sub k
  refine ⟨h1, ⟨fun _ => rfl, fun c p q => h4 c ?_⟩, h2, ?_, ?_, fun m _ => ?_⟩
  · rcases h with h | h <;> rw [h] <;> assumption
  · rw [h3]
  · rw [h3]; exact .inl rfl
  · rw [h3]; rfl

theorem thr_bumpTil (s : State) (id idx sub k n : Nat) : thr (tilAt (bumpTil s id idx sub k) id) n = thr (tilAt s id) n := by
  rw [(bumpTil_frame s id idx sub k).2.2.1]; rfl

/-- The end of a wait at issue: its stamps are cleared and nothing else of the thread changes. -/
theorem settle_spec (s : State) (id n : Nat) :
    OneThread s (settle s id n) id n ∧
    thr (tilAt (settle s id n) id) n = { thr (tilAt s id) n with
      issueWait := none, drillWait := (thr (tilAt (settle s id n) id) n).drillWait } := by
  unfold settle
  simp only
  split
  · next h => exact ⟨OneThread.refl _ _ _, by rw [← h]⟩
  · split
    · exact ⟨(setTilAt_setThr_oneThread s id n _).trans (bumpTil_oneThread _ _ _ _ _ _ (.inr rfl)), by simp [thr_bumpTil]⟩
    · exact ⟨(setTilAt_setThr_oneThread s id n _).trans (bumpTil_oneThread _ _ _ _ _ _ (.inl rfl)), by simp [thr_bumpTil]⟩

theorem progress_oneThread (s : State) (job id n : Nat) : OneThread s (progress s job) id n := by
  unfold progress modJob
  split
  · refine ⟨rfl, ⟨fun j => ?_, fun _ _ _ => rfl⟩, fun _ _ => rfl, rfl, .inl rfl, fun _ _ => rfl⟩
    rw [jobAt_setJob]
    split
    · next h => subst h; rfl
    · rfl
  · exact OneThread.refl _ _ _

@[simp] theorem tilAt_progress (s : State) (job id : Nat) : tilAt (progress s job) id = tilAt s id := by
  unfold progress modJob; split <;> rfl

@[simp] theorem thread_progress (s : State) (job : Nat) (t : Thr) : thread (progress s job) t = thread s t := by
  simp [thread, til]

/-- Issuing changes the last thread to issue, and the job's progress. -/
theorem issued_oneThread (s : State) (t : Thr) : OneThread s (issued s t) (tilKey t.til) t.n.val := by
  refine OneThread.trans ?_ (progress_oneThread _ _ _ _)
  refine ⟨rfl, ⟨fun _ => rfl, fun _ _ _ => rfl⟩, fun j h => ?_, ?_, ?_, fun m _ => ?_⟩
  · simp [modTil, setTil, tilAt_setTilAt, h]
  · simp [modTil, setTil, til]
  · simp [modTil, setTil, til]
  · simp [modTil, setTil, til, thr]

@[simp] theorem thread_issued (s : State) (t : Thr) : thread (issued s t) t = thread s t := by
  simp only [issued, thread_progress]
  simp [thread, thr]

/-- Moving past an instruction changes the thread's pc alone, and who issued last. -/
theorem advance_spec (s : State) (t : Thr) (n : Nat) :
    OneThread s (advance s t n) (tilKey t.til) t.n.val ∧
    thread (advance s t n) t = { thread s t with pc := (thread s t).pc + BitVec.ofNat 64 n } := by
  refine ⟨(setThread_oneThread s t _).trans (issued_oneThread _ _), ?_⟩
  rw [advance, thread_issued, thread_setThread_same]

theorem OneThread.frame {s s' : State} {t : Thr} (h : OneThread s s' (tilKey t.til) t.n.val) : ScalarFrame s s' t 0 := by
  obtain ⟨h1, h2, h3, h4, h6, h5⟩ := h
  refine ⟨?_, h2, ⟨h3, h4, h6⟩, h5, ?_⟩
  · unfold SameModule; rw [h1]
  · rw [h1]; rfl

end Sys2Proof.Machine
end

