-- ==== Sys2Proof/Laws/Memory.lean ====
section
/-! SUPPORT. What the shared operations before and at an access to Granary do (R208 to R211, R340): each said once. -/
namespace Sys2Proof.Machine

/-! ## Folds of steps that keep to a relation -/

/-- A fold goes no further than its steps: what is reflexive and transitive holds between its first and its last state. -/
theorem foldl_within {α β : Type} (R : β → β → Prop) (refl : ∀ b, R b b) (trans : ∀ {a b c}, R a b → R b c → R a c)
    (f : β → α → β) (step : ∀ b x, R b (f b x)) : ∀ (l : List α) (b : β), R b (l.foldl f b)
  | [], b => refl b
  | x :: l, b => trans (step b x) (foldl_within R refl trans f step l (f b x))

theorem foldUpto_within {β : Type} (R : β → β → Prop) (refl : ∀ b, R b b) (trans : ∀ {a b c}, R a b → R b c → R a c)
    (n : Nat) (f : β → Nat → β) (step : ∀ b i, R b (f b i)) (b : β) : R b (foldUpto n b f) :=
  foldl_within R refl trans f step (upto n) b

/-! ## Sector requests (R208, R209) -/

/-- Nothing has changed but the stacks, the requests that wait for admission, and counts. -/
def OnlyRequests (s s' : State) : Prop :=
  s' = { s with granStacks := s'.granStacks, slotWaits := s'.slotWaits, counts := s'.counts }

theorem OnlyRequests.refl (s : State) : OnlyRequests s s := rfl

theorem OnlyRequests.trans {a b c : State} (h : OnlyRequests a b) (g : OnlyRequests b c) : OnlyRequests a c := by
  unfold OnlyRequests at *
  rw [g, h]

/-- Memory, what is valid, dirty and held, and what hosts hold are as before. -/
theorem OnlyRequests.memory {s s' : State} (h : OnlyRequests s s') :
    s'.granary = s.granary ∧ s'.held = s.held ∧ s'.valid = s.valid ∧ s'.dirty = s.dirty ∧ s'.cxl = s.cxl ∧ s'.reli = s.reli := by
  rw [h]; exact ⟨rfl, rfl, rfl, rfl, rfl, rfl⟩

theorem enter_frame (s : State) (src sec : Nat) (write : Bool) : OnlyRequests s (enter s src sec write) := rfl

theorem enter_eq (s : State) (src sec : Nat) (write : Bool) :
    enter s src sec write = bump { s with
      granStacks := (enter s src sec write).granStacks, slotWaits := (enter s src sec write).slotWaits } 0xA400 1 1 := rfl

/-- An admitted request is counted in `OD A400:01`, and of the other counts none has changed. -/
theorem count_enter (s : State) (src sec : Nat) (write : Bool) (k : Nat) :
    kvGet 0 (enter s src sec write).counts k = if k = od 0xA400 1 then kvGet 0 s.counts k + 1 else kvGet 0 s.counts k := by
  rw [enter_eq]
  exact counts_bump _ _ _ _ _

theorem entered_frame (s : State) (src a n : Nat) : OnlyRequests s (entered s src a n) :=
  foldUpto_within OnlyRequests OnlyRequests.refl OnlyRequests.trans _ _ (fun s i => enter_frame s src (a / 64 + i) false) s

theorem enterAll_frame (s : State) (src : Nat) (l : List (Nat × Nat)) (write : Bool) : OnlyRequests s (enterAll s src l write) :=
  foldl_within OnlyRequests OnlyRequests.refl OnlyRequests.trans
    (fun (s : State) (p : Nat × Nat) => (sectors p.1 p.2).foldl (fun s q => enter s src (q.1 / 64) write) s)
    (fun (s : State) (p : Nat × Nat) => foldl_within OnlyRequests OnlyRequests.refl OnlyRequests.trans
      (fun (s : State) (q : Nat × Nat) => enter s src (q.1 / 64) write)
      (fun (s : State) (q : Nat × Nat) => enter_frame s src (q.1 / 64) write) (sectors p.1 p.2) s) l s

/-- Nothing has changed but the requests that wait for admission, and counts. -/
def OnlyWaits (s s' : State) : Prop := s' = { s with slotWaits := s'.slotWaits, counts := s'.counts }

theorem OnlyWaits.refl (s : State) : OnlyWaits s s := rfl

theorem OnlyWaits.trans {a b c : State} (h : OnlyWaits a b) (g : OnlyWaits b c) : OnlyWaits a c := by
  unfold OnlyWaits at *
  rw [g, h]

theorem OnlyWaits.requests {s s' : State} (h : OnlyWaits s s') : OnlyRequests s s' := by
  unfold OnlyWaits OnlyRequests at *
  rw [h]

theorem noteWait_frame (s : State) (bank slot full room : Bool) : OnlyWaits s (noteWait s bank slot full room).1 := by
  unfold noteWait
  cases full <;> cases room <;> cases bank <;> cases slot <;> rfl

/-- A request that waits is noted; one that could be admitted changes nothing. -/
theorem waitEnter_frame (s : State) (src sec : Nat) (write : Bool) : OnlyWaits s (waitEnter s src sec write) := by
  unfold waitEnter
  split
  · exact OnlyWaits.refl s
  · dsimp only
    split
    · exact OnlyWaits.trans (noteWait_frame s _ _ _ _) rfl
    · split
      · exact OnlyWaits.refl s
      · exact OnlyWaits.trans (noteWait_frame s false false _ _) rfl

/-- The gate of a unit's accesses: open, with nothing changed, where every sector can be admitted now; else shut, with the
others waiting. -/
theorem sectorGate_spec (s : State) (src : Nat) (l : List (Nat × Nat)) (write : Bool) :
    ((sectorGate s src l write).2 = true → (sectorGate s src l write).1 = s ∧
      ∀ p ∈ l, ∀ q ∈ sectors p.1 p.2, canEnter s src (q.1 / 64) write = true) ∧
    OnlyWaits s (sectorGate s src l write).1 := by
  unfold sectorGate
  dsimp only
  split
  · rename_i h
    refine ⟨fun _ => ⟨rfl, fun p hp q hq => ?_⟩, OnlyWaits.refl s⟩
    exact List.all_eq_true.mp h _ (List.mem_flatMap.mpr ⟨p, hp, List.mem_map.mpr ⟨q, hq, rfl⟩⟩)
  · exact ⟨fun h => (Bool.noConfusion h), foldl_within OnlyWaits OnlyWaits.refl OnlyWaits.trans _
      (fun s x => waitEnter_frame s src x write) _ s⟩

/-! ## Snoops (R340) -/

/-- Nothing has changed but the snoops that are unanswered, what has been sent, and counts. -/
def OnlySnooped (s s' : State) : Prop :=
  s' = { s with cxl := { s.cxl with snoops := s'.cxl.snoops }, out := s'.out, counts := s'.counts }

theorem OnlySnooped.refl (s : State) : OnlySnooped s s := rfl

theorem OnlySnooped.trans {a b c : State} (h : OnlySnooped a b) (g : OnlySnooped b c) : OnlySnooped a c := by
  unfold OnlySnooped at *
  rw [g, h]

theorem snoopLine_frame (s : State) (p line : Nat) (inv : Bool) : OnlySnooped s (snoopLine s p line inv) := by
  unfold snoopLine
  split <;> rfl

theorem snoopSpan_frame (s : State) (a n : Nat) (write : Bool) : OnlySnooped s (snoopSpan s a n write).1 :=
  foldl_within OnlySnooped OnlySnooped.refl OnlySnooped.trans _ (fun s e =>
    foldUpto_within OnlySnooped OnlySnooped.refl OnlySnooped.trans 2 _ (fun s p => by
      split
      · exact snoopLine_frame s p e.1 write
      · exact OnlySnooped.refl s) s) _ s

theorem snoopAll_frame (s : State) (l : List (Nat × Nat)) (write : Bool) : OnlySnooped s (snoopAll s l write).1 :=
  foldl_within (fun a b : State × Bool => OnlySnooped a.1 b.1) (fun b => OnlySnooped.refl b.1) OnlySnooped.trans
    (fun (r : State × Bool) (x : Nat × Nat) => ((snoopSpan r.1 x.1 x.2 write).1, r.2 && (snoopSpan r.1 x.1 x.2 write).2))
    (fun b x => snoopSpan_frame b.1 x.1 x.2 write) l (s, true)

/-! ## Stores (R178, R410) -/

/-- A store that is held stands behind the others, and nothing else changes. -/
theorem holdStore_spec (s : State) (src : Nat) (ctx : Option CtxId) (a : Nat) (b : List Byte) :
    (holdStore s src ctx a b).held = s.held ++
      [{ source := src, ga := a, bytes := b, ctx := ctx, reserved := reservedFree s (stackOf a) (slotSource src) }] ∧
    holdStore s src ctx a b = { s with held := (holdStore s src ctx a b).held, heldMax := (holdStore s src ctx a b).heldMax } :=
  ⟨rfl, rfl⟩

theorem markDirty_granary (s : State) (ga : Nat) : (markDirty s ga).granary = s.granary := by
  unfold markDirty
  split
  · dsimp only
    split
    · split <;> rfl
    · rfl
  · rfl

theorem listBad_granary (s : State) (sec : Nat) : (listBad s sec).granary = s.granary := by
  unfold listBad
  split <;> rfl

theorem heal_granary (s : State) (sec : Nat) : (heal s sec).granary = s.granary := by
  unfold heal
  split <;> rfl

/-- A store within a sector writes its bytes, unless it is a part of an uncorrectable sector: then it writes none and says
so. -/
theorem performSector_granary (s : State) (a : Nat) (b : List Byte) :
    (performSector s a b).1.granary = if (performSector s a b).2 then s.granary else writeBytes s.granary a b := by
  unfold performSector
  by_cases hw : a % 64 = 0 ∧ b.length = 64
  · simp only [hw, and_self, decide_true, Bool.not_true, Bool.false_and, Bool.false_eq_true, if_false, if_true,
      markDirty_granary, heal_granary]
  · simp only [hw, decide_false, Bool.not_false, Bool.true_and, Bool.false_eq_true, if_false]
    split
    · simp only [if_true, listBad_granary]; rfl
    · simp only [Bool.false_eq_true, if_false, markDirty_granary]; rfl

end Sys2Proof.Machine
end

