-- ==== Sys2Proof/Laws/Links.lean ====
section
/-! SUPPORT. What sending a flit, a message or a request does (R267 to R290): each said once. -/
namespace Sys2Proof.Machine

/-- Nothing has changed but the links, what has been sent, the counter of free values, and counts. -/
def OnlySent (s s' : State) : Prop :=
  s' = { s with free := s'.free, out := s'.out, links := s'.links, counts := s'.counts }

theorem OnlySent.refl (s : State) : OnlySent s s := rfl

theorem OnlySent.trans {a b c : State} (h : OnlySent a b) (g : OnlySent b c) : OnlySent a c := by
  unfold OnlySent at *
  rw [g, h]

theorem setPort_onlySent (s : State) (p : Nat) (x : Port) : OnlySent s (setPort s p x) := by
  unfold setPort
  split <;> rfl

theorem freeSlots_onlySent (s : State) (p key n : Nat) : OnlySent s (freeSlots s p key n) := by
  unfold freeSlots
  exact setPort_onlySent _ _ _

theorem putOut_onlySent (s : State) (p : Nat) (f : OutFlit) (nak : Bool) : OnlySent s (putOut s p f nak) := by
  unfold putOut
  exact OnlySent.trans (setPort_onlySent s p _) rfl

theorem sendOne_onlySent (s : State) (p : Nat) : OnlySent s (sendOne s p) := by
  unfold sendOne
  dsimp only
  split
  · exact OnlySent.refl s
  · split
    · exact OnlySent.trans (OnlySent.trans (setPort_onlySent s p _) (putOut_onlySent _ p _ false)) (freeSlots_onlySent _ _ _ _)
    · exact OnlySent.trans (setPort_onlySent s p _) (putOut_onlySent _ p _ false)

theorem iter_within {β : Type} (R : β → β → Prop) (refl : ∀ b, R b b) (trans : ∀ {a b c}, R a b → R b c → R a c) (f : β → β)
    (step : ∀ b, R b (f b)) : ∀ (n : Nat) (b : β), R b (iter f n b)
  | 0, b => refl b
  | n + 1, b => trans (step b) (iter_within R refl trans f step n (f b))

theorem pump_onlySent (s : State) (p : Nat) : OnlySent s (pump s p) :=
  iter_within OnlySent OnlySent.refl OnlySent.trans (fun s => sendOne s p) (fun s => sendOne_onlySent s p) _ s

theorem enqueueFlits_onlySent (s : State) (p : Nat) (fs : List OutFlit) : OnlySent s (enqueueFlits s p fs) := by
  unfold enqueueFlits
  exact OnlySent.trans (setPort_onlySent s p _) (pump_onlySent _ p)

theorem placeFlit_onlySent (s : State) (p : Nat) (f : OutFlit) : OnlySent s (placeFlit s p f) := by
  unfold placeFlit
  split
  · rfl
  · exact enqueueFlits_onlySent s p [f]

theorem placeTrain_onlySent (s : State) (p : Nat) (fs : List OutFlit) : OnlySent s (placeTrain s p fs) := by
  unfold placeTrain
  split
  · exact placeFlit_onlySent s p _
  · exact enqueueFlits_onlySent s p _

/-- A train leaves at once, or waits for its route. -/
theorem leave_onlySent (s : State) (fs : List OutFlit) : OnlySent s (leave s fs) := by
  unfold leave
  split
  · exact OnlySent.refl s
  · dsimp only
    split
    · split
      · rfl
      · exact placeTrain_onlySent s _ _
    · rfl

theorem sendNote_onlySent (s : State) (typ vc dst : Nat) (n : Note) : OnlySent s (sendNote s typ vc dst n) := by
  unfold sendNote
  split
  · exact OnlySent.refl s
  · exact OnlySent.trans (b := { s with free := s.free + 1 }) rfl (leave_onlySent _ _)

theorem sendBytes_onlySent (s : State) (typ vc dst : Nat) (b : List Byte) (n : Note) : OnlySent s (sendBytes s typ vc dst b n) := by
  unfold sendBytes
  split
  · exact leave_onlySent s _
  · exact OnlySent.refl s

theorem openFlow_onlySent (s : State) (dst vc : Nat) : OnlySent s (openFlow s dst vc) := by
  unfold openFlow
  split
  · exact OnlySent.refl s
  · dsimp only
    split <;> rfl

theorem setFlow_onlySent (s : State) (dst vc : Nat) (f : Flow) : OnlySent s (setFlow s dst vc f) := rfl

theorem noteLimit_onlySent (s : State) (p : Nat) (owner : TransOwner) (dst : Nat) (on : Bool) :
    OnlySent s (noteLimit s p owner dst on) := rfl

theorem setLinks_onlySent (s : State) (l : Links) : OnlySent s { s with links := l } := rfl

/-- A request is sent, waits, or names a module that no route reaches: the links alone tell which. -/
theorem sendRequest_onlySent (s : State) (owner : TransOwner) (job dst vc ga sectors : Nat) (write : Bool) (data : List Byte) :
    OnlySent s (sendRequest s owner job dst vc ga sectors write data).1 := by
  unfold sendRequest
  dsimp only
  split
  · exact OnlySent.trans (openFlow_onlySent s dst vc) rfl
  · split
    · exact openFlow_onlySent s dst vc
    · split
      · exact OnlySent.trans (openFlow_onlySent s dst vc) (noteLimit_onlySent _ _ _ _ _)
      · exact (openFlow_onlySent s dst vc).trans ((noteLimit_onlySent _ _ _ _ _).trans
          ((setFlow_onlySent _ _ _ _).trans ((setLinks_onlySent _ _).trans (enqueueFlits_onlySent _ _ _))))

end Sys2Proof.Machine
end

