-- ==== Sys2Proof/Laws/Scalar.lean ====
section
/-! SUPPORT. What issuing a scalar instruction and writing its result do (R105, R107, R112). -/
namespace Sys2Proof.Machine

/-- An instruction with no bad field acts, its wait at issue charged, whenever the thread can run. -/
theorem issueScalar_runs {s : State} {t : Thr} {regs : List Reg} (h : CanRun s t regs 4) (word : Nat) (body : State → State) :
    issueScalar s t word regs none body = body (settle s (tilKey t.til) t.n.val) := by
  simp [issueScalar, h.1, h.2]

/-- A bad field refuses the instruction with its reason, and nothing else of it happens. -/
theorem issueScalar_refuses {s : State} {t : Thr} {regs : List Reg} (h : CanRun s t regs 4) (word r : Nat)
    (body : State → State) : issueScalar s t word regs (some r) body = refuseScalar s t word r := by
  simp [issueScalar, h.1, h.2]

/-- A thread that cannot issue does nothing. -/
theorem issueScalar_idle {s : State} {t : Thr} {regs : List Reg} (h : canIssue s t regs = false) (word : Nat)
    (bad : Option Nat) (body : State → State) : issueScalar s t word regs bad body = s := by simp [issueScalar, h]

theorem CanRun.ready {s : State} {t : Thr} {regs : List Reg} {n : Nat} (h : CanRun s t regs n) :
    (thread s t).st = .ready := by
  obtain ⟨h, -⟩ := h
  simp only [canIssue, Bool.and_eq_true] at h
  revert h
  cases (thread s t).st <;> simp [ThreadSt.isReady]

/-- The thread whose wait is charged reads the same registers at the same pc. -/
theorem settle_thread (s : State) (t : Thr) :
    (thread (settle s (tilKey t.til) t.n.val) t).st = (thread s t).st ∧
    (thread (settle s (tilKey t.til) t.n.val) t).pc = (thread s t).pc ∧
    (thread (settle s (tilKey t.til) t.n.val) t).regs = (thread s t).regs ∧
    (thread (settle s (tilKey t.til) t.n.val) t).startTc = (thread s t).startTc ∧
    ∀ r, reg (thread (settle s (tilKey t.til) t.n.val) t) r = reg (thread s t) r := by
  have h := (settle_spec s (tilKey t.til) t.n.val).2
  have e : ∀ s, thread s t = thr (tilAt s (tilKey t.til)) t.n.val := fun _ => rfl
  rw [e, h, e]
  exact ⟨rfl, rfl, rfl, rfl, fun _ => rfl⟩

/-- Nothing of the Tiller but threads and counts moves when a wait is charged. -/
theorem settle_til (s : State) (t : Thr) :
    til (settle s (tilKey t.til) t.n.val) t.til =
      { til s t.til with threads := (til (settle s (tilKey t.til) t.n.val) t.til).threads,
                         counts := (til (settle s (tilKey t.til) t.n.val) t.til).counts,
                         turn := (til (settle s (tilKey t.til) t.n.val) t.til).turn } :=
  (settle_spec s (tilKey t.til) t.n.val).1.2.2.2.1

/-- A thread set to x moves past its word: its frame, and what it holds. -/
theorem setAdvance_spec (s : State) (t : Thr) (x : Thread) (n : Nat) :
    OneThread s (advance (setThread s t x) t n) (tilKey t.til) t.n.val ∧
    thread (advance (setThread s t x) t n) t = { x with pc := x.pc + BitVec.ofNat 64 n } := by
  obtain ⟨h, g⟩ := advance_spec (setThread s t x) t n
  exact ⟨(setThread_oneThread s t x).trans h, by rw [g, thread_setThread_same]⟩

theorem wrote_setReg {s s' : State} {t : Thr} {x : Thread} {rd : Reg} {v : Word64}
    (h : thread s' t = x) (hr : ∀ r, reg x r = reg (setReg (thread s t) rd v) r) : Wrote s s' t rd v := by
  refine ⟨?_, fun r g => ?_⟩
  · rw [h, hr, reg_setReg]; simp
  · rw [h, hr, reg_setReg]
    by_cases z : r = 0
    · simp [z, reg]
    · rw [if_neg z, if_neg g]

/-- The result of an instruction: rd holds it, the thread stands at the next word, and nothing else has changed. -/
theorem result_spec {s : State} {t : Thr} (ready : (thread s t).st = .ready) (rd : Reg) (v : Word64) :
    Wrote s (result s t rd v) t rd v ∧ ReadyAt (result s t rd v) t ((thread s t).pc + 4) ∧
      OneThread s (result s t rd v) (tilKey t.til) t.n.val := by
  obtain ⟨h, g⟩ := setAdvance_spec s t (setReg (thread s t) rd v) 4
  obtain ⟨r1, r2, -⟩ := setReg_other (thread s t) rd v
  refine ⟨wrote_setReg (s' := result s t rd v) g (fun _ => rfl), ⟨?_, ?_⟩, h⟩
  · show (thread (result s t rd v) t).st = _
    rw [result, g]; exact r1.trans ready
  · show (thread (result s t rd v) t).pc = _
    rw [result, g]; simp only [r2]; rfl

/-- The same from the state before the wait at issue was charged. -/
theorem settled_result {s : State} {t : Thr} (ready : (thread s t).st = .ready) (rd : Reg) (v : Word64) :
    Wrote s (result (settle s (tilKey t.til) t.n.val) t rd v) t rd v ∧
      ReadyAt (result (settle s (tilKey t.til) t.n.val) t rd v) t ((thread s t).pc + 4) ∧
      ScalarFrame s (result (settle s (tilKey t.til) t.n.val) t rd v) t 0 := by
  obtain ⟨h1, h2, -, -, h5⟩ := settle_thread s t
  obtain ⟨⟨w1, w2⟩, r, f⟩ := result_spec (h1.trans ready) rd v
  refine ⟨⟨w1, fun q g => (w2 q g).trans (h5 q)⟩, h2 ▸ r, ?_⟩
  exact (OneThread.trans (settle_spec s _ _).1 f).frame

/-- A jump: rd holds the link and the thread stands at the destination. -/
theorem jumpTo_spec {s : State} {t : Thr} (ready : (thread s t).st = .ready) (rd : Reg) (dest : Word64) :
    Wrote s (jumpTo s t rd dest) t rd ((thread s t).pc + 4) ∧ ReadyAt (jumpTo s t rd dest) t dest ∧
      OneThread s (jumpTo s t rd dest) (tilKey t.til) t.n.val := by
  have g : thread (jumpTo s t rd dest) t = { setReg (thread s t) rd ((thread s t).pc + 4) with pc := dest } := by
    rw [jumpTo, thread_issued, thread_setThread_same]
  obtain ⟨r1, -⟩ := setReg_other (thread s t) rd ((thread s t).pc + 4)
  refine ⟨wrote_setReg g (fun _ => rfl), ⟨by rw [g]; exact r1.trans ready, by rw [g]⟩, ?_⟩
  exact (setThread_oneThread s t _).trans (issued_oneThread _ _)

theorem settled_jump {s : State} {t : Thr} (ready : (thread s t).st = .ready) (rd : Reg) (dest : Word64) :
    Wrote s (jumpTo (settle s (tilKey t.til) t.n.val) t rd dest) t rd ((thread s t).pc + 4) ∧
      ReadyAt (jumpTo (settle s (tilKey t.til) t.n.val) t rd dest) t dest ∧
      ScalarFrame s (jumpTo (settle s (tilKey t.til) t.n.val) t rd dest) t 0 := by
  obtain ⟨h1, h2, -, -, h5⟩ := settle_thread s t
  obtain ⟨⟨w1, w2⟩, r, f⟩ := jumpTo_spec (h1.trans ready) rd dest
  rw [h2] at w1
  exact ⟨⟨w1, fun q g => (w2 q g).trans (h5 q)⟩, r, (OneThread.trans (settle_spec s _ _).1 f).frame⟩

end Sys2Proof.Machine
end

