-- ==== Sys2Proof/Laws/State.lean ====
section
/-! SUPPORT. The fields that each update of the state leaves alone, one lemma for each. -/
namespace Sys2Proof.Machine
open Sys2Proof

/-! ### setTilAt -/

@[simp] theorem setTilAt_variant (s : State) (id : Nat) (x : Tiller) : (setTilAt s id x).variant = s.variant := rfl
@[simp] theorem setTilAt_clocks (s : State) (id : Nat) (x : Tiller) : (setTilAt s id x).clocks = s.clocks := rfl
@[simp] theorem setTilAt_free (s : State) (id : Nat) (x : Tiller) : (setTilAt s id x).free = s.free := rfl
@[simp] theorem setTilAt_out (s : State) (id : Nat) (x : Tiller) : (setTilAt s id x).out = s.out := rfl
@[simp] theorem setTilAt_granary (s : State) (id : Nat) (x : Tiller) : (setTilAt s id x).granary = s.granary := rfl
@[simp] theorem setTilAt_furrows (s : State) (id : Nat) (x : Tiller) : (setTilAt s id x).furrows = s.furrows := rfl
@[simp] theorem setTilAt_furrowQ (s : State) (id : Nat) (x : Tiller) : (setTilAt s id x).furrowQ = s.furrowQ := rfl
@[simp] theorem setTilAt_furrowReplies (s : State) (id : Nat) (x : Tiller) : (setTilAt s id x).furrowReplies = s.furrowReplies := rfl
@[simp] theorem setTilAt_sems (s : State) (id : Nat) (x : Tiller) : (setTilAt s id x).sems = s.sems := rfl
@[simp] theorem setTilAt_signals (s : State) (id : Nat) (x : Tiller) : (setTilAt s id x).signals = s.signals := rfl
@[simp] theorem setTilAt_urgentWait (s : State) (id : Nat) (x : Tiller) : (setTilAt s id x).urgentWait = s.urgentWait := rfl
@[simp] theorem setTilAt_nextSignal (s : State) (id : Nat) (x : Tiller) : (setTilAt s id x).nextSignal = s.nextSignal := rfl
@[simp] theorem setTilAt_granStacks (s : State) (id : Nat) (x : Tiller) : (setTilAt s id x).granStacks = s.granStacks := rfl
@[simp] theorem setTilAt_valid (s : State) (id : Nat) (x : Tiller) : (setTilAt s id x).valid = s.valid := rfl
@[simp] theorem setTilAt_dirty (s : State) (id : Nat) (x : Tiller) : (setTilAt s id x).dirty = s.dirty := rfl
@[simp] theorem setTilAt_bales (s : State) (id : Nat) (x : Tiller) : (setTilAt s id x).bales = s.bales := rfl
@[simp] theorem setTilAt_baleMax (s : State) (id : Nat) (x : Tiller) : (setTilAt s id x).baleMax = s.baleMax := rfl
@[simp] theorem setTilAt_faultWait (s : State) (id : Nat) (x : Tiller) : (setTilAt s id x).faultWait = s.faultWait := rfl
@[simp] theorem setTilAt_sowing (s : State) (id : Nat) (x : Tiller) : (setTilAt s id x).sowing = s.sowing := rfl
@[simp] theorem setTilAt_latches (s : State) (id : Nat) (x : Tiller) : (setTilAt s id x).latches = s.latches := rfl
@[simp] theorem setTilAt_held (s : State) (id : Nat) (x : Tiller) : (setTilAt s id x).held = s.held := rfl
@[simp] theorem setTilAt_heldMax (s : State) (id : Nat) (x : Tiller) : (setTilAt s id x).heldMax = s.heldMax := rfl
@[simp] theorem setTilAt_heldFailed (s : State) (id : Nat) (x : Tiller) : (setTilAt s id x).heldFailed = s.heldFailed := rfl
@[simp] theorem setTilAt_slotWaits (s : State) (id : Nat) (x : Tiller) : (setTilAt s id x).slotWaits = s.slotWaits := rfl
@[simp] theorem setTilAt_longest (s : State) (id : Nat) (x : Tiller) : (setTilAt s id x).longest = s.longest := rfl
@[simp] theorem setTilAt_streamFaults (s : State) (id : Nat) (x : Tiller) : (setTilAt s id x).streamFaults = s.streamFaults := rfl
@[simp] theorem setTilAt_awn (s : State) (id : Nat) (x : Tiller) : (setTilAt s id x).awn = s.awn := rfl
@[simp] theorem setTilAt_rot (s : State) (id : Nat) (x : Tiller) : (setTilAt s id x).rot = s.rot := rfl
@[simp] theorem setTilAt_stook (s : State) (id : Nat) (x : Tiller) : (setTilAt s id x).stook = s.stook := rfl
@[simp] theorem setTilAt_jobs (s : State) (id : Nat) (x : Tiller) : (setTilAt s id x).jobs = s.jobs := rfl
@[simp] theorem setTilAt_admitResult (s : State) (id : Nat) (x : Tiller) : (setTilAt s id x).admitResult = s.admitResult := rfl
@[simp] theorem setTilAt_admitSlot (s : State) (id : Nat) (x : Tiller) : (setTilAt s id x).admitSlot = s.admitSlot := rfl
@[simp] theorem setTilAt_admitHeld (s : State) (id : Nat) (x : Tiller) : (setTilAt s id x).admitHeld = s.admitHeld := rfl
@[simp] theorem setTilAt_links (s : State) (id : Nat) (x : Tiller) : (setTilAt s id x).links = s.links := rfl
@[simp] theorem setTilAt_cxl (s : State) (id : Nat) (x : Tiller) : (setTilAt s id x).cxl = s.cxl := rfl
@[simp] theorem setTilAt_dict (s : State) (id : Nat) (x : Tiller) : (setTilAt s id x).dict = s.dict := rfl
@[simp] theorem setTilAt_fns (s : State) (id : Nat) (x : Tiller) : (setTilAt s id x).fns = s.fns := rfl
@[simp] theorem setTilAt_counts (s : State) (id : Nat) (x : Tiller) : (setTilAt s id x).counts = s.counts := rfl
@[simp] theorem setTilAt_power (s : State) (id : Nat) (x : Tiller) : (setTilAt s id x).power = s.power := rfl
@[simp] theorem setTilAt_reli (s : State) (id : Nat) (x : Tiller) : (setTilAt s id x).reli = s.reli := rfl
@[simp] theorem setTilAt_sec (s : State) (id : Nat) (x : Tiller) : (setTilAt s id x).sec = s.sec := rfl
@[simp] theorem setTilAt_board (s : State) (id : Nat) (x : Tiller) : (setTilAt s id x).board = s.board := rfl
@[simp] theorem setTilAt_pending (s : State) (id : Nat) (x : Tiller) : (setTilAt s id x).pending = s.pending := rfl

/-! ### setTil -/

@[simp] theorem setTil_variant (s : State) (t : Tid) (x : Tiller) : (setTil s t x).variant = s.variant := rfl
@[simp] theorem setTil_clocks (s : State) (t : Tid) (x : Tiller) : (setTil s t x).clocks = s.clocks := rfl
@[simp] theorem setTil_free (s : State) (t : Tid) (x : Tiller) : (setTil s t x).free = s.free := rfl
@[simp] theorem setTil_out (s : State) (t : Tid) (x : Tiller) : (setTil s t x).out = s.out := rfl
@[simp] theorem setTil_granary (s : State) (t : Tid) (x : Tiller) : (setTil s t x).granary = s.granary := rfl
@[simp] theorem setTil_furrows (s : State) (t : Tid) (x : Tiller) : (setTil s t x).furrows = s.furrows := rfl
@[simp] theorem setTil_furrowQ (s : State) (t : Tid) (x : Tiller) : (setTil s t x).furrowQ = s.furrowQ := rfl
@[simp] theorem setTil_furrowReplies (s : State) (t : Tid) (x : Tiller) : (setTil s t x).furrowReplies = s.furrowReplies := rfl
@[simp] theorem setTil_sems (s : State) (t : Tid) (x : Tiller) : (setTil s t x).sems = s.sems := rfl
@[simp] theorem setTil_signals (s : State) (t : Tid) (x : Tiller) : (setTil s t x).signals = s.signals := rfl
@[simp] theorem setTil_urgentWait (s : State) (t : Tid) (x : Tiller) : (setTil s t x).urgentWait = s.urgentWait := rfl
@[simp] theorem setTil_nextSignal (s : State) (t : Tid) (x : Tiller) : (setTil s t x).nextSignal = s.nextSignal := rfl
@[simp] theorem setTil_granStacks (s : State) (t : Tid) (x : Tiller) : (setTil s t x).granStacks = s.granStacks := rfl
@[simp] theorem setTil_valid (s : State) (t : Tid) (x : Tiller) : (setTil s t x).valid = s.valid := rfl
@[simp] theorem setTil_dirty (s : State) (t : Tid) (x : Tiller) : (setTil s t x).dirty = s.dirty := rfl
@[simp] theorem setTil_bales (s : State) (t : Tid) (x : Tiller) : (setTil s t x).bales = s.bales := rfl
@[simp] theorem setTil_baleMax (s : State) (t : Tid) (x : Tiller) : (setTil s t x).baleMax = s.baleMax := rfl
@[simp] theorem setTil_faultWait (s : State) (t : Tid) (x : Tiller) : (setTil s t x).faultWait = s.faultWait := rfl
@[simp] theorem setTil_sowing (s : State) (t : Tid) (x : Tiller) : (setTil s t x).sowing = s.sowing := rfl
@[simp] theorem setTil_latches (s : State) (t : Tid) (x : Tiller) : (setTil s t x).latches = s.latches := rfl
@[simp] theorem setTil_held (s : State) (t : Tid) (x : Tiller) : (setTil s t x).held = s.held := rfl
@[simp] theorem setTil_heldMax (s : State) (t : Tid) (x : Tiller) : (setTil s t x).heldMax = s.heldMax := rfl
@[simp] theorem setTil_heldFailed (s : State) (t : Tid) (x : Tiller) : (setTil s t x).heldFailed = s.heldFailed := rfl
@[simp] theorem setTil_slotWaits (s : State) (t : Tid) (x : Tiller) : (setTil s t x).slotWaits = s.slotWaits := rfl
@[simp] theorem setTil_longest (s : State) (t : Tid) (x : Tiller) : (setTil s t x).longest = s.longest := rfl
@[simp] theorem setTil_streamFaults (s : State) (t : Tid) (x : Tiller) : (setTil s t x).streamFaults = s.streamFaults := rfl
@[simp] theorem setTil_awn (s : State) (t : Tid) (x : Tiller) : (setTil s t x).awn = s.awn := rfl
@[simp] theorem setTil_rot (s : State) (t : Tid) (x : Tiller) : (setTil s t x).rot = s.rot := rfl
@[simp] theorem setTil_stook (s : State) (t : Tid) (x : Tiller) : (setTil s t x).stook = s.stook := rfl
@[simp] theorem setTil_jobs (s : State) (t : Tid) (x : Tiller) : (setTil s t x).jobs = s.jobs := rfl
@[simp] theorem setTil_admitResult (s : State) (t : Tid) (x : Tiller) : (setTil s t x).admitResult = s.admitResult := rfl
@[simp] theorem setTil_admitSlot (s : State) (t : Tid) (x : Tiller) : (setTil s t x).admitSlot = s.admitSlot := rfl
@[simp] theorem setTil_admitHeld (s : State) (t : Tid) (x : Tiller) : (setTil s t x).admitHeld = s.admitHeld := rfl
@[simp] theorem setTil_links (s : State) (t : Tid) (x : Tiller) : (setTil s t x).links = s.links := rfl
@[simp] theorem setTil_cxl (s : State) (t : Tid) (x : Tiller) : (setTil s t x).cxl = s.cxl := rfl
@[simp] theorem setTil_dict (s : State) (t : Tid) (x : Tiller) : (setTil s t x).dict = s.dict := rfl
@[simp] theorem setTil_fns (s : State) (t : Tid) (x : Tiller) : (setTil s t x).fns = s.fns := rfl
@[simp] theorem setTil_counts (s : State) (t : Tid) (x : Tiller) : (setTil s t x).counts = s.counts := rfl
@[simp] theorem setTil_power (s : State) (t : Tid) (x : Tiller) : (setTil s t x).power = s.power := rfl
@[simp] theorem setTil_reli (s : State) (t : Tid) (x : Tiller) : (setTil s t x).reli = s.reli := rfl
@[simp] theorem setTil_sec (s : State) (t : Tid) (x : Tiller) : (setTil s t x).sec = s.sec := rfl
@[simp] theorem setTil_board (s : State) (t : Tid) (x : Tiller) : (setTil s t x).board = s.board := rfl
@[simp] theorem setTil_pending (s : State) (t : Tid) (x : Tiller) : (setTil s t x).pending = s.pending := rfl

/-! ### modTil -/

@[simp] theorem modTil_variant (s : State) (t : Tid) (f : Tiller → Tiller) : (modTil s t f).variant = s.variant := rfl
@[simp] theorem modTil_clocks (s : State) (t : Tid) (f : Tiller → Tiller) : (modTil s t f).clocks = s.clocks := rfl
@[simp] theorem modTil_free (s : State) (t : Tid) (f : Tiller → Tiller) : (modTil s t f).free = s.free := rfl
@[simp] theorem modTil_out (s : State) (t : Tid) (f : Tiller → Tiller) : (modTil s t f).out = s.out := rfl
@[simp] theorem modTil_granary (s : State) (t : Tid) (f : Tiller → Tiller) : (modTil s t f).granary = s.granary := rfl
@[simp] theorem modTil_furrows (s : State) (t : Tid) (f : Tiller → Tiller) : (modTil s t f).furrows = s.furrows := rfl
@[simp] theorem modTil_furrowQ (s : State) (t : Tid) (f : Tiller → Tiller) : (modTil s t f).furrowQ = s.furrowQ := rfl
@[simp] theorem modTil_furrowReplies (s : State) (t : Tid) (f : Tiller → Tiller) : (modTil s t f).furrowReplies = s.furrowReplies := rfl
@[simp] theorem modTil_sems (s : State) (t : Tid) (f : Tiller → Tiller) : (modTil s t f).sems = s.sems := rfl
@[simp] theorem modTil_signals (s : State) (t : Tid) (f : Tiller → Tiller) : (modTil s t f).signals = s.signals := rfl
@[simp] theorem modTil_urgentWait (s : State) (t : Tid) (f : Tiller → Tiller) : (modTil s t f).urgentWait = s.urgentWait := rfl
@[simp] theorem modTil_nextSignal (s : State) (t : Tid) (f : Tiller → Tiller) : (modTil s t f).nextSignal = s.nextSignal := rfl
@[simp] theorem modTil_granStacks (s : State) (t : Tid) (f : Tiller → Tiller) : (modTil s t f).granStacks = s.granStacks := rfl
@[simp] theorem modTil_valid (s : State) (t : Tid) (f : Tiller → Tiller) : (modTil s t f).valid = s.valid := rfl
@[simp] theorem modTil_dirty (s : State) (t : Tid) (f : Tiller → Tiller) : (modTil s t f).dirty = s.dirty := rfl
@[simp] theorem modTil_bales (s : State) (t : Tid) (f : Tiller → Tiller) : (modTil s t f).bales = s.bales := rfl
@[simp] theorem modTil_baleMax (s : State) (t : Tid) (f : Tiller → Tiller) : (modTil s t f).baleMax = s.baleMax := rfl
@[simp] theorem modTil_faultWait (s : State) (t : Tid) (f : Tiller → Tiller) : (modTil s t f).faultWait = s.faultWait := rfl
@[simp] theorem modTil_sowing (s : State) (t : Tid) (f : Tiller → Tiller) : (modTil s t f).sowing = s.sowing := rfl
@[simp] theorem modTil_latches (s : State) (t : Tid) (f : Tiller → Tiller) : (modTil s t f).latches = s.latches := rfl
@[simp] theorem modTil_held (s : State) (t : Tid) (f : Tiller → Tiller) : (modTil s t f).held = s.held := rfl
@[simp] theorem modTil_heldMax (s : State) (t : Tid) (f : Tiller → Tiller) : (modTil s t f).heldMax = s.heldMax := rfl
@[simp] theorem modTil_heldFailed (s : State) (t : Tid) (f : Tiller → Tiller) : (modTil s t f).heldFailed = s.heldFailed := rfl
@[simp] theorem modTil_slotWaits (s : State) (t : Tid) (f : Tiller → Tiller) : (modTil s t f).slotWaits = s.slotWaits := rfl
@[simp] theorem modTil_longest (s : State) (t : Tid) (f : Tiller → Tiller) : (modTil s t f).longest = s.longest := rfl
@[simp] theorem modTil_streamFaults (s : State) (t : Tid) (f : Tiller → Tiller) : (modTil s t f).streamFaults = s.streamFaults := rfl
@[simp] theorem modTil_awn (s : State) (t : Tid) (f : Tiller → Tiller) : (modTil s t f).awn = s.awn := rfl
@[simp] theorem modTil_rot (s : State) (t : Tid) (f : Tiller → Tiller) : (modTil s t f).rot = s.rot := rfl
@[simp] theorem modTil_stook (s : State) (t : Tid) (f : Tiller → Tiller) : (modTil s t f).stook = s.stook := rfl
@[simp] theorem modTil_jobs (s : State) (t : Tid) (f : Tiller → Tiller) : (modTil s t f).jobs = s.jobs := rfl
@[simp] theorem modTil_admitResult (s : State) (t : Tid) (f : Tiller → Tiller) : (modTil s t f).admitResult = s.admitResult := rfl
@[simp] theorem modTil_admitSlot (s : State) (t : Tid) (f : Tiller → Tiller) : (modTil s t f).admitSlot = s.admitSlot := rfl
@[simp] theorem modTil_admitHeld (s : State) (t : Tid) (f : Tiller → Tiller) : (modTil s t f).admitHeld = s.admitHeld := rfl
@[simp] theorem modTil_links (s : State) (t : Tid) (f : Tiller → Tiller) : (modTil s t f).links = s.links := rfl
@[simp] theorem modTil_cxl (s : State) (t : Tid) (f : Tiller → Tiller) : (modTil s t f).cxl = s.cxl := rfl
@[simp] theorem modTil_dict (s : State) (t : Tid) (f : Tiller → Tiller) : (modTil s t f).dict = s.dict := rfl
@[simp] theorem modTil_fns (s : State) (t : Tid) (f : Tiller → Tiller) : (modTil s t f).fns = s.fns := rfl
@[simp] theorem modTil_counts (s : State) (t : Tid) (f : Tiller → Tiller) : (modTil s t f).counts = s.counts := rfl
@[simp] theorem modTil_power (s : State) (t : Tid) (f : Tiller → Tiller) : (modTil s t f).power = s.power := rfl
@[simp] theorem modTil_reli (s : State) (t : Tid) (f : Tiller → Tiller) : (modTil s t f).reli = s.reli := rfl
@[simp] theorem modTil_sec (s : State) (t : Tid) (f : Tiller → Tiller) : (modTil s t f).sec = s.sec := rfl
@[simp] theorem modTil_board (s : State) (t : Tid) (f : Tiller → Tiller) : (modTil s t f).board = s.board := rfl
@[simp] theorem modTil_pending (s : State) (t : Tid) (f : Tiller → Tiller) : (modTil s t f).pending = s.pending := rfl

/-! ### setThread -/

@[simp] theorem setThread_variant (s : State) (t : Thr) (x : Thread) : (setThread s t x).variant = s.variant := rfl
@[simp] theorem setThread_clocks (s : State) (t : Thr) (x : Thread) : (setThread s t x).clocks = s.clocks := rfl
@[simp] theorem setThread_free (s : State) (t : Thr) (x : Thread) : (setThread s t x).free = s.free := rfl
@[simp] theorem setThread_out (s : State) (t : Thr) (x : Thread) : (setThread s t x).out = s.out := rfl
@[simp] theorem setThread_granary (s : State) (t : Thr) (x : Thread) : (setThread s t x).granary = s.granary := rfl
@[simp] theorem setThread_furrows (s : State) (t : Thr) (x : Thread) : (setThread s t x).furrows = s.furrows := rfl
@[simp] theorem setThread_furrowQ (s : State) (t : Thr) (x : Thread) : (setThread s t x).furrowQ = s.furrowQ := rfl
@[simp] theorem setThread_furrowReplies (s : State) (t : Thr) (x : Thread) : (setThread s t x).furrowReplies = s.furrowReplies := rfl
@[simp] theorem setThread_sems (s : State) (t : Thr) (x : Thread) : (setThread s t x).sems = s.sems := rfl
@[simp] theorem setThread_signals (s : State) (t : Thr) (x : Thread) : (setThread s t x).signals = s.signals := rfl
@[simp] theorem setThread_urgentWait (s : State) (t : Thr) (x : Thread) : (setThread s t x).urgentWait = s.urgentWait := rfl
@[simp] theorem setThread_nextSignal (s : State) (t : Thr) (x : Thread) : (setThread s t x).nextSignal = s.nextSignal := rfl
@[simp] theorem setThread_granStacks (s : State) (t : Thr) (x : Thread) : (setThread s t x).granStacks = s.granStacks := rfl
@[simp] theorem setThread_valid (s : State) (t : Thr) (x : Thread) : (setThread s t x).valid = s.valid := rfl
@[simp] theorem setThread_dirty (s : State) (t : Thr) (x : Thread) : (setThread s t x).dirty = s.dirty := rfl
@[simp] theorem setThread_bales (s : State) (t : Thr) (x : Thread) : (setThread s t x).bales = s.bales := rfl
@[simp] theorem setThread_baleMax (s : State) (t : Thr) (x : Thread) : (setThread s t x).baleMax = s.baleMax := rfl
@[simp] theorem setThread_faultWait (s : State) (t : Thr) (x : Thread) : (setThread s t x).faultWait = s.faultWait := rfl
@[simp] theorem setThread_sowing (s : State) (t : Thr) (x : Thread) : (setThread s t x).sowing = s.sowing := rfl
@[simp] theorem setThread_latches (s : State) (t : Thr) (x : Thread) : (setThread s t x).latches = s.latches := rfl
@[simp] theorem setThread_held (s : State) (t : Thr) (x : Thread) : (setThread s t x).held = s.held := rfl
@[simp] theorem setThread_heldMax (s : State) (t : Thr) (x : Thread) : (setThread s t x).heldMax = s.heldMax := rfl
@[simp] theorem setThread_heldFailed (s : State) (t : Thr) (x : Thread) : (setThread s t x).heldFailed = s.heldFailed := rfl
@[simp] theorem setThread_slotWaits (s : State) (t : Thr) (x : Thread) : (setThread s t x).slotWaits = s.slotWaits := rfl
@[simp] theorem setThread_longest (s : State) (t : Thr) (x : Thread) : (setThread s t x).longest = s.longest := rfl
@[simp] theorem setThread_streamFaults (s : State) (t : Thr) (x : Thread) : (setThread s t x).streamFaults = s.streamFaults := rfl
@[simp] theorem setThread_awn (s : State) (t : Thr) (x : Thread) : (setThread s t x).awn = s.awn := rfl
@[simp] theorem setThread_rot (s : State) (t : Thr) (x : Thread) : (setThread s t x).rot = s.rot := rfl
@[simp] theorem setThread_stook (s : State) (t : Thr) (x : Thread) : (setThread s t x).stook = s.stook := rfl
@[simp] theorem setThread_jobs (s : State) (t : Thr) (x : Thread) : (setThread s t x).jobs = s.jobs := rfl
@[simp] theorem setThread_admitResult (s : State) (t : Thr) (x : Thread) : (setThread s t x).admitResult = s.admitResult := rfl
@[simp] theorem setThread_admitSlot (s : State) (t : Thr) (x : Thread) : (setThread s t x).admitSlot = s.admitSlot := rfl
@[simp] theorem setThread_admitHeld (s : State) (t : Thr) (x : Thread) : (setThread s t x).admitHeld = s.admitHeld := rfl
@[simp] theorem setThread_links (s : State) (t : Thr) (x : Thread) : (setThread s t x).links = s.links := rfl
@[simp] theorem setThread_cxl (s : State) (t : Thr) (x : Thread) : (setThread s t x).cxl = s.cxl := rfl
@[simp] theorem setThread_dict (s : State) (t : Thr) (x : Thread) : (setThread s t x).dict = s.dict := rfl
@[simp] theorem setThread_fns (s : State) (t : Thr) (x : Thread) : (setThread s t x).fns = s.fns := rfl
@[simp] theorem setThread_counts (s : State) (t : Thr) (x : Thread) : (setThread s t x).counts = s.counts := rfl
@[simp] theorem setThread_power (s : State) (t : Thr) (x : Thread) : (setThread s t x).power = s.power := rfl
@[simp] theorem setThread_reli (s : State) (t : Thr) (x : Thread) : (setThread s t x).reli = s.reli := rfl
@[simp] theorem setThread_sec (s : State) (t : Thr) (x : Thread) : (setThread s t x).sec = s.sec := rfl
@[simp] theorem setThread_board (s : State) (t : Thr) (x : Thread) : (setThread s t x).board = s.board := rfl
@[simp] theorem setThread_pending (s : State) (t : Thr) (x : Thread) : (setThread s t x).pending = s.pending := rfl

/-! ### bump -/

@[simp] theorem bump_variant (s : State) (idx sub n : Nat) : (bump s idx sub n).variant = s.variant := rfl
@[simp] theorem bump_clocks (s : State) (idx sub n : Nat) : (bump s idx sub n).clocks = s.clocks := rfl
@[simp] theorem bump_free (s : State) (idx sub n : Nat) : (bump s idx sub n).free = s.free := rfl
@[simp] theorem bump_out (s : State) (idx sub n : Nat) : (bump s idx sub n).out = s.out := rfl
@[simp] theorem bump_granary (s : State) (idx sub n : Nat) : (bump s idx sub n).granary = s.granary := rfl
@[simp] theorem bump_tillers (s : State) (idx sub n : Nat) : (bump s idx sub n).tillers = s.tillers := rfl
@[simp] theorem bump_furrows (s : State) (idx sub n : Nat) : (bump s idx sub n).furrows = s.furrows := rfl
@[simp] theorem bump_furrowQ (s : State) (idx sub n : Nat) : (bump s idx sub n).furrowQ = s.furrowQ := rfl
@[simp] theorem bump_furrowReplies (s : State) (idx sub n : Nat) : (bump s idx sub n).furrowReplies = s.furrowReplies := rfl
@[simp] theorem bump_sems (s : State) (idx sub n : Nat) : (bump s idx sub n).sems = s.sems := rfl
@[simp] theorem bump_signals (s : State) (idx sub n : Nat) : (bump s idx sub n).signals = s.signals := rfl
@[simp] theorem bump_urgentWait (s : State) (idx sub n : Nat) : (bump s idx sub n).urgentWait = s.urgentWait := rfl
@[simp] theorem bump_nextSignal (s : State) (idx sub n : Nat) : (bump s idx sub n).nextSignal = s.nextSignal := rfl
@[simp] theorem bump_granStacks (s : State) (idx sub n : Nat) : (bump s idx sub n).granStacks = s.granStacks := rfl
@[simp] theorem bump_valid (s : State) (idx sub n : Nat) : (bump s idx sub n).valid = s.valid := rfl
@[simp] theorem bump_dirty (s : State) (idx sub n : Nat) : (bump s idx sub n).dirty = s.dirty := rfl
@[simp] theorem bump_bales (s : State) (idx sub n : Nat) : (bump s idx sub n).bales = s.bales := rfl
@[simp] theorem bump_baleMax (s : State) (idx sub n : Nat) : (bump s idx sub n).baleMax = s.baleMax := rfl
@[simp] theorem bump_faultWait (s : State) (idx sub n : Nat) : (bump s idx sub n).faultWait = s.faultWait := rfl
@[simp] theorem bump_sowing (s : State) (idx sub n : Nat) : (bump s idx sub n).sowing = s.sowing := rfl
@[simp] theorem bump_latches (s : State) (idx sub n : Nat) : (bump s idx sub n).latches = s.latches := rfl
@[simp] theorem bump_held (s : State) (idx sub n : Nat) : (bump s idx sub n).held = s.held := rfl
@[simp] theorem bump_heldMax (s : State) (idx sub n : Nat) : (bump s idx sub n).heldMax = s.heldMax := rfl
@[simp] theorem bump_heldFailed (s : State) (idx sub n : Nat) : (bump s idx sub n).heldFailed = s.heldFailed := rfl
@[simp] theorem bump_slotWaits (s : State) (idx sub n : Nat) : (bump s idx sub n).slotWaits = s.slotWaits := rfl
@[simp] theorem bump_longest (s : State) (idx sub n : Nat) : (bump s idx sub n).longest = s.longest := rfl
@[simp] theorem bump_streamFaults (s : State) (idx sub n : Nat) : (bump s idx sub n).streamFaults = s.streamFaults := rfl
@[simp] theorem bump_awn (s : State) (idx sub n : Nat) : (bump s idx sub n).awn = s.awn := rfl
@[simp] theorem bump_rot (s : State) (idx sub n : Nat) : (bump s idx sub n).rot = s.rot := rfl
@[simp] theorem bump_stook (s : State) (idx sub n : Nat) : (bump s idx sub n).stook = s.stook := rfl
@[simp] theorem bump_jobs (s : State) (idx sub n : Nat) : (bump s idx sub n).jobs = s.jobs := rfl
@[simp] theorem bump_admitResult (s : State) (idx sub n : Nat) : (bump s idx sub n).admitResult = s.admitResult := rfl
@[simp] theorem bump_admitSlot (s : State) (idx sub n : Nat) : (bump s idx sub n).admitSlot = s.admitSlot := rfl
@[simp] theorem bump_admitHeld (s : State) (idx sub n : Nat) : (bump s idx sub n).admitHeld = s.admitHeld := rfl
@[simp] theorem bump_links (s : State) (idx sub n : Nat) : (bump s idx sub n).links = s.links := rfl
@[simp] theorem bump_cxl (s : State) (idx sub n : Nat) : (bump s idx sub n).cxl = s.cxl := rfl
@[simp] theorem bump_dict (s : State) (idx sub n : Nat) : (bump s idx sub n).dict = s.dict := rfl
@[simp] theorem bump_fns (s : State) (idx sub n : Nat) : (bump s idx sub n).fns = s.fns := rfl
@[simp] theorem bump_power (s : State) (idx sub n : Nat) : (bump s idx sub n).power = s.power := rfl
@[simp] theorem bump_reli (s : State) (idx sub n : Nat) : (bump s idx sub n).reli = s.reli := rfl
@[simp] theorem bump_sec (s : State) (idx sub n : Nat) : (bump s idx sub n).sec = s.sec := rfl
@[simp] theorem bump_board (s : State) (idx sub n : Nat) : (bump s idx sub n).board = s.board := rfl
@[simp] theorem bump_pending (s : State) (idx sub n : Nat) : (bump s idx sub n).pending = s.pending := rfl

/-! ### bumpTil -/

@[simp] theorem bumpTil_variant (s : State) (id idx sub n : Nat) : (bumpTil s id idx sub n).variant = s.variant := rfl
@[simp] theorem bumpTil_clocks (s : State) (id idx sub n : Nat) : (bumpTil s id idx sub n).clocks = s.clocks := rfl
@[simp] theorem bumpTil_free (s : State) (id idx sub n : Nat) : (bumpTil s id idx sub n).free = s.free := rfl
@[simp] theorem bumpTil_out (s : State) (id idx sub n : Nat) : (bumpTil s id idx sub n).out = s.out := rfl
@[simp] theorem bumpTil_granary (s : State) (id idx sub n : Nat) : (bumpTil s id idx sub n).granary = s.granary := rfl
@[simp] theorem bumpTil_furrows (s : State) (id idx sub n : Nat) : (bumpTil s id idx sub n).furrows = s.furrows := rfl
@[simp] theorem bumpTil_furrowQ (s : State) (id idx sub n : Nat) : (bumpTil s id idx sub n).furrowQ = s.furrowQ := rfl
@[simp] theorem bumpTil_furrowReplies (s : State) (id idx sub n : Nat) : (bumpTil s id idx sub n).furrowReplies = s.furrowReplies := rfl
@[simp] theorem bumpTil_sems (s : State) (id idx sub n : Nat) : (bumpTil s id idx sub n).sems = s.sems := rfl
@[simp] theorem bumpTil_signals (s : State) (id idx sub n : Nat) : (bumpTil s id idx sub n).signals = s.signals := rfl
@[simp] theorem bumpTil_urgentWait (s : State) (id idx sub n : Nat) : (bumpTil s id idx sub n).urgentWait = s.urgentWait := rfl
@[simp] theorem bumpTil_nextSignal (s : State) (id idx sub n : Nat) : (bumpTil s id idx sub n).nextSignal = s.nextSignal := rfl
@[simp] theorem bumpTil_granStacks (s : State) (id idx sub n : Nat) : (bumpTil s id idx sub n).granStacks = s.granStacks := rfl
@[simp] theorem bumpTil_valid (s : State) (id idx sub n : Nat) : (bumpTil s id idx sub n).valid = s.valid := rfl
@[simp] theorem bumpTil_dirty (s : State) (id idx sub n : Nat) : (bumpTil s id idx sub n).dirty = s.dirty := rfl
@[simp] theorem bumpTil_bales (s : State) (id idx sub n : Nat) : (bumpTil s id idx sub n).bales = s.bales := rfl
@[simp] theorem bumpTil_baleMax (s : State) (id idx sub n : Nat) : (bumpTil s id idx sub n).baleMax = s.baleMax := rfl
@[simp] theorem bumpTil_faultWait (s : State) (id idx sub n : Nat) : (bumpTil s id idx sub n).faultWait = s.faultWait := rfl
@[simp] theorem bumpTil_sowing (s : State) (id idx sub n : Nat) : (bumpTil s id idx sub n).sowing = s.sowing := rfl
@[simp] theorem bumpTil_latches (s : State) (id idx sub n : Nat) : (bumpTil s id idx sub n).latches = s.latches := rfl
@[simp] theorem bumpTil_held (s : State) (id idx sub n : Nat) : (bumpTil s id idx sub n).held = s.held := rfl
@[simp] theorem bumpTil_heldMax (s : State) (id idx sub n : Nat) : (bumpTil s id idx sub n).heldMax = s.heldMax := rfl
@[simp] theorem bumpTil_heldFailed (s : State) (id idx sub n : Nat) : (bumpTil s id idx sub n).heldFailed = s.heldFailed := rfl
@[simp] theorem bumpTil_slotWaits (s : State) (id idx sub n : Nat) : (bumpTil s id idx sub n).slotWaits = s.slotWaits := rfl
@[simp] theorem bumpTil_longest (s : State) (id idx sub n : Nat) : (bumpTil s id idx sub n).longest = s.longest := rfl
@[simp] theorem bumpTil_streamFaults (s : State) (id idx sub n : Nat) : (bumpTil s id idx sub n).streamFaults = s.streamFaults := rfl
@[simp] theorem bumpTil_awn (s : State) (id idx sub n : Nat) : (bumpTil s id idx sub n).awn = s.awn := rfl
@[simp] theorem bumpTil_rot (s : State) (id idx sub n : Nat) : (bumpTil s id idx sub n).rot = s.rot := rfl
@[simp] theorem bumpTil_stook (s : State) (id idx sub n : Nat) : (bumpTil s id idx sub n).stook = s.stook := rfl
@[simp] theorem bumpTil_admitResult (s : State) (id idx sub n : Nat) : (bumpTil s id idx sub n).admitResult = s.admitResult := rfl
@[simp] theorem bumpTil_admitSlot (s : State) (id idx sub n : Nat) : (bumpTil s id idx sub n).admitSlot = s.admitSlot := rfl
@[simp] theorem bumpTil_admitHeld (s : State) (id idx sub n : Nat) : (bumpTil s id idx sub n).admitHeld = s.admitHeld := rfl
@[simp] theorem bumpTil_links (s : State) (id idx sub n : Nat) : (bumpTil s id idx sub n).links = s.links := rfl
@[simp] theorem bumpTil_cxl (s : State) (id idx sub n : Nat) : (bumpTil s id idx sub n).cxl = s.cxl := rfl
@[simp] theorem bumpTil_dict (s : State) (id idx sub n : Nat) : (bumpTil s id idx sub n).dict = s.dict := rfl
@[simp] theorem bumpTil_fns (s : State) (id idx sub n : Nat) : (bumpTil s id idx sub n).fns = s.fns := rfl
@[simp] theorem bumpTil_power (s : State) (id idx sub n : Nat) : (bumpTil s id idx sub n).power = s.power := rfl
@[simp] theorem bumpTil_reli (s : State) (id idx sub n : Nat) : (bumpTil s id idx sub n).reli = s.reli := rfl
@[simp] theorem bumpTil_sec (s : State) (id idx sub n : Nat) : (bumpTil s id idx sub n).sec = s.sec := rfl
@[simp] theorem bumpTil_board (s : State) (id idx sub n : Nat) : (bumpTil s id idx sub n).board = s.board := rfl
@[simp] theorem bumpTil_pending (s : State) (id idx sub n : Nat) : (bumpTil s id idx sub n).pending = s.pending := rfl

/-! ### emit -/

@[simp] theorem emit_variant (s : State) (o : Output) : (emit s o).variant = s.variant := rfl
@[simp] theorem emit_clocks (s : State) (o : Output) : (emit s o).clocks = s.clocks := rfl
@[simp] theorem emit_free (s : State) (o : Output) : (emit s o).free = s.free := rfl
@[simp] theorem emit_granary (s : State) (o : Output) : (emit s o).granary = s.granary := rfl
@[simp] theorem emit_tillers (s : State) (o : Output) : (emit s o).tillers = s.tillers := rfl
@[simp] theorem emit_furrows (s : State) (o : Output) : (emit s o).furrows = s.furrows := rfl
@[simp] theorem emit_furrowQ (s : State) (o : Output) : (emit s o).furrowQ = s.furrowQ := rfl
@[simp] theorem emit_furrowReplies (s : State) (o : Output) : (emit s o).furrowReplies = s.furrowReplies := rfl
@[simp] theorem emit_sems (s : State) (o : Output) : (emit s o).sems = s.sems := rfl
@[simp] theorem emit_signals (s : State) (o : Output) : (emit s o).signals = s.signals := rfl
@[simp] theorem emit_urgentWait (s : State) (o : Output) : (emit s o).urgentWait = s.urgentWait := rfl
@[simp] theorem emit_nextSignal (s : State) (o : Output) : (emit s o).nextSignal = s.nextSignal := rfl
@[simp] theorem emit_granStacks (s : State) (o : Output) : (emit s o).granStacks = s.granStacks := rfl
@[simp] theorem emit_valid (s : State) (o : Output) : (emit s o).valid = s.valid := rfl
@[simp] theorem emit_dirty (s : State) (o : Output) : (emit s o).dirty = s.dirty := rfl
@[simp] theorem emit_bales (s : State) (o : Output) : (emit s o).bales = s.bales := rfl
@[simp] theorem emit_baleMax (s : State) (o : Output) : (emit s o).baleMax = s.baleMax := rfl
@[simp] theorem emit_faultWait (s : State) (o : Output) : (emit s o).faultWait = s.faultWait := rfl
@[simp] theorem emit_sowing (s : State) (o : Output) : (emit s o).sowing = s.sowing := rfl
@[simp] theorem emit_latches (s : State) (o : Output) : (emit s o).latches = s.latches := rfl
@[simp] theorem emit_held (s : State) (o : Output) : (emit s o).held = s.held := rfl
@[simp] theorem emit_heldMax (s : State) (o : Output) : (emit s o).heldMax = s.heldMax := rfl
@[simp] theorem emit_heldFailed (s : State) (o : Output) : (emit s o).heldFailed = s.heldFailed := rfl
@[simp] theorem emit_slotWaits (s : State) (o : Output) : (emit s o).slotWaits = s.slotWaits := rfl
@[simp] theorem emit_longest (s : State) (o : Output) : (emit s o).longest = s.longest := rfl
@[simp] theorem emit_streamFaults (s : State) (o : Output) : (emit s o).streamFaults = s.streamFaults := rfl
@[simp] theorem emit_awn (s : State) (o : Output) : (emit s o).awn = s.awn := rfl
@[simp] theorem emit_rot (s : State) (o : Output) : (emit s o).rot = s.rot := rfl
@[simp] theorem emit_stook (s : State) (o : Output) : (emit s o).stook = s.stook := rfl
@[simp] theorem emit_jobs (s : State) (o : Output) : (emit s o).jobs = s.jobs := rfl
@[simp] theorem emit_admitResult (s : State) (o : Output) : (emit s o).admitResult = s.admitResult := rfl
@[simp] theorem emit_admitSlot (s : State) (o : Output) : (emit s o).admitSlot = s.admitSlot := rfl
@[simp] theorem emit_admitHeld (s : State) (o : Output) : (emit s o).admitHeld = s.admitHeld := rfl
@[simp] theorem emit_links (s : State) (o : Output) : (emit s o).links = s.links := rfl
@[simp] theorem emit_cxl (s : State) (o : Output) : (emit s o).cxl = s.cxl := rfl
@[simp] theorem emit_dict (s : State) (o : Output) : (emit s o).dict = s.dict := rfl
@[simp] theorem emit_fns (s : State) (o : Output) : (emit s o).fns = s.fns := rfl
@[simp] theorem emit_counts (s : State) (o : Output) : (emit s o).counts = s.counts := rfl
@[simp] theorem emit_power (s : State) (o : Output) : (emit s o).power = s.power := rfl
@[simp] theorem emit_reli (s : State) (o : Output) : (emit s o).reli = s.reli := rfl
@[simp] theorem emit_sec (s : State) (o : Output) : (emit s o).sec = s.sec := rfl
@[simp] theorem emit_board (s : State) (o : Output) : (emit s o).board = s.board := rfl
@[simp] theorem emit_pending (s : State) (o : Output) : (emit s o).pending = s.pending := rfl

/-! ### setJob -/

@[simp] theorem setJob_variant (s : State) (slot : Nat) (j : Job) : (setJob s slot j).variant = s.variant := rfl
@[simp] theorem setJob_clocks (s : State) (slot : Nat) (j : Job) : (setJob s slot j).clocks = s.clocks := rfl
@[simp] theorem setJob_free (s : State) (slot : Nat) (j : Job) : (setJob s slot j).free = s.free := rfl
@[simp] theorem setJob_out (s : State) (slot : Nat) (j : Job) : (setJob s slot j).out = s.out := rfl
@[simp] theorem setJob_granary (s : State) (slot : Nat) (j : Job) : (setJob s slot j).granary = s.granary := rfl
@[simp] theorem setJob_tillers (s : State) (slot : Nat) (j : Job) : (setJob s slot j).tillers = s.tillers := rfl
@[simp] theorem setJob_furrows (s : State) (slot : Nat) (j : Job) : (setJob s slot j).furrows = s.furrows := rfl
@[simp] theorem setJob_furrowQ (s : State) (slot : Nat) (j : Job) : (setJob s slot j).furrowQ = s.furrowQ := rfl
@[simp] theorem setJob_furrowReplies (s : State) (slot : Nat) (j : Job) : (setJob s slot j).furrowReplies = s.furrowReplies := rfl
@[simp] theorem setJob_sems (s : State) (slot : Nat) (j : Job) : (setJob s slot j).sems = s.sems := rfl
@[simp] theorem setJob_signals (s : State) (slot : Nat) (j : Job) : (setJob s slot j).signals = s.signals := rfl
@[simp] theorem setJob_urgentWait (s : State) (slot : Nat) (j : Job) : (setJob s slot j).urgentWait = s.urgentWait := rfl
@[simp] theorem setJob_nextSignal (s : State) (slot : Nat) (j : Job) : (setJob s slot j).nextSignal = s.nextSignal := rfl
@[simp] theorem setJob_granStacks (s : State) (slot : Nat) (j : Job) : (setJob s slot j).granStacks = s.granStacks := rfl
@[simp] theorem setJob_valid (s : State) (slot : Nat) (j : Job) : (setJob s slot j).valid = s.valid := rfl
@[simp] theorem setJob_dirty (s : State) (slot : Nat) (j : Job) : (setJob s slot j).dirty = s.dirty := rfl
@[simp] theorem setJob_bales (s : State) (slot : Nat) (j : Job) : (setJob s slot j).bales = s.bales := rfl
@[simp] theorem setJob_baleMax (s : State) (slot : Nat) (j : Job) : (setJob s slot j).baleMax = s.baleMax := rfl
@[simp] theorem setJob_faultWait (s : State) (slot : Nat) (j : Job) : (setJob s slot j).faultWait = s.faultWait := rfl
@[simp] theorem setJob_sowing (s : State) (slot : Nat) (j : Job) : (setJob s slot j).sowing = s.sowing := rfl
@[simp] theorem setJob_latches (s : State) (slot : Nat) (j : Job) : (setJob s slot j).latches = s.latches := rfl
@[simp] theorem setJob_held (s : State) (slot : Nat) (j : Job) : (setJob s slot j).held = s.held := rfl
@[simp] theorem setJob_heldMax (s : State) (slot : Nat) (j : Job) : (setJob s slot j).heldMax = s.heldMax := rfl
@[simp] theorem setJob_heldFailed (s : State) (slot : Nat) (j : Job) : (setJob s slot j).heldFailed = s.heldFailed := rfl
@[simp] theorem setJob_slotWaits (s : State) (slot : Nat) (j : Job) : (setJob s slot j).slotWaits = s.slotWaits := rfl
@[simp] theorem setJob_longest (s : State) (slot : Nat) (j : Job) : (setJob s slot j).longest = s.longest := rfl
@[simp] theorem setJob_streamFaults (s : State) (slot : Nat) (j : Job) : (setJob s slot j).streamFaults = s.streamFaults := rfl
@[simp] theorem setJob_awn (s : State) (slot : Nat) (j : Job) : (setJob s slot j).awn = s.awn := rfl
@[simp] theorem setJob_rot (s : State) (slot : Nat) (j : Job) : (setJob s slot j).rot = s.rot := rfl
@[simp] theorem setJob_stook (s : State) (slot : Nat) (j : Job) : (setJob s slot j).stook = s.stook := rfl
@[simp] theorem setJob_admitResult (s : State) (slot : Nat) (j : Job) : (setJob s slot j).admitResult = s.admitResult := rfl
@[simp] theorem setJob_admitSlot (s : State) (slot : Nat) (j : Job) : (setJob s slot j).admitSlot = s.admitSlot := rfl
@[simp] theorem setJob_admitHeld (s : State) (slot : Nat) (j : Job) : (setJob s slot j).admitHeld = s.admitHeld := rfl
@[simp] theorem setJob_links (s : State) (slot : Nat) (j : Job) : (setJob s slot j).links = s.links := rfl
@[simp] theorem setJob_cxl (s : State) (slot : Nat) (j : Job) : (setJob s slot j).cxl = s.cxl := rfl
@[simp] theorem setJob_dict (s : State) (slot : Nat) (j : Job) : (setJob s slot j).dict = s.dict := rfl
@[simp] theorem setJob_fns (s : State) (slot : Nat) (j : Job) : (setJob s slot j).fns = s.fns := rfl
@[simp] theorem setJob_counts (s : State) (slot : Nat) (j : Job) : (setJob s slot j).counts = s.counts := rfl
@[simp] theorem setJob_power (s : State) (slot : Nat) (j : Job) : (setJob s slot j).power = s.power := rfl
@[simp] theorem setJob_reli (s : State) (slot : Nat) (j : Job) : (setJob s slot j).reli = s.reli := rfl
@[simp] theorem setJob_sec (s : State) (slot : Nat) (j : Job) : (setJob s slot j).sec = s.sec := rfl
@[simp] theorem setJob_board (s : State) (slot : Nat) (j : Job) : (setJob s slot j).board = s.board := rfl
@[simp] theorem setJob_pending (s : State) (slot : Nat) (j : Job) : (setJob s slot j).pending = s.pending := rfl

/-! ### setSem -/

@[simp] theorem setSem_variant (s : State) (name : Nat) (x : Sem) : (setSem s name x).variant = s.variant := rfl
@[simp] theorem setSem_clocks (s : State) (name : Nat) (x : Sem) : (setSem s name x).clocks = s.clocks := rfl
@[simp] theorem setSem_free (s : State) (name : Nat) (x : Sem) : (setSem s name x).free = s.free := rfl
@[simp] theorem setSem_out (s : State) (name : Nat) (x : Sem) : (setSem s name x).out = s.out := rfl
@[simp] theorem setSem_granary (s : State) (name : Nat) (x : Sem) : (setSem s name x).granary = s.granary := rfl
@[simp] theorem setSem_tillers (s : State) (name : Nat) (x : Sem) : (setSem s name x).tillers = s.tillers := rfl
@[simp] theorem setSem_furrows (s : State) (name : Nat) (x : Sem) : (setSem s name x).furrows = s.furrows := rfl
@[simp] theorem setSem_furrowQ (s : State) (name : Nat) (x : Sem) : (setSem s name x).furrowQ = s.furrowQ := rfl
@[simp] theorem setSem_furrowReplies (s : State) (name : Nat) (x : Sem) : (setSem s name x).furrowReplies = s.furrowReplies := rfl
@[simp] theorem setSem_signals (s : State) (name : Nat) (x : Sem) : (setSem s name x).signals = s.signals := rfl
@[simp] theorem setSem_urgentWait (s : State) (name : Nat) (x : Sem) : (setSem s name x).urgentWait = s.urgentWait := rfl
@[simp] theorem setSem_nextSignal (s : State) (name : Nat) (x : Sem) : (setSem s name x).nextSignal = s.nextSignal := rfl
@[simp] theorem setSem_granStacks (s : State) (name : Nat) (x : Sem) : (setSem s name x).granStacks = s.granStacks := rfl
@[simp] theorem setSem_valid (s : State) (name : Nat) (x : Sem) : (setSem s name x).valid = s.valid := rfl
@[simp] theorem setSem_dirty (s : State) (name : Nat) (x : Sem) : (setSem s name x).dirty = s.dirty := rfl
@[simp] theorem setSem_bales (s : State) (name : Nat) (x : Sem) : (setSem s name x).bales = s.bales := rfl
@[simp] theorem setSem_baleMax (s : State) (name : Nat) (x : Sem) : (setSem s name x).baleMax = s.baleMax := rfl
@[simp] theorem setSem_faultWait (s : State) (name : Nat) (x : Sem) : (setSem s name x).faultWait = s.faultWait := rfl
@[simp] theorem setSem_sowing (s : State) (name : Nat) (x : Sem) : (setSem s name x).sowing = s.sowing := rfl
@[simp] theorem setSem_latches (s : State) (name : Nat) (x : Sem) : (setSem s name x).latches = s.latches := rfl
@[simp] theorem setSem_held (s : State) (name : Nat) (x : Sem) : (setSem s name x).held = s.held := rfl
@[simp] theorem setSem_heldMax (s : State) (name : Nat) (x : Sem) : (setSem s name x).heldMax = s.heldMax := rfl
@[simp] theorem setSem_heldFailed (s : State) (name : Nat) (x : Sem) : (setSem s name x).heldFailed = s.heldFailed := rfl
@[simp] theorem setSem_slotWaits (s : State) (name : Nat) (x : Sem) : (setSem s name x).slotWaits = s.slotWaits := rfl
@[simp] theorem setSem_longest (s : State) (name : Nat) (x : Sem) : (setSem s name x).longest = s.longest := rfl
@[simp] theorem setSem_streamFaults (s : State) (name : Nat) (x : Sem) : (setSem s name x).streamFaults = s.streamFaults := rfl
@[simp] theorem setSem_awn (s : State) (name : Nat) (x : Sem) : (setSem s name x).awn = s.awn := rfl
@[simp] theorem setSem_rot (s : State) (name : Nat) (x : Sem) : (setSem s name x).rot = s.rot := rfl
@[simp] theorem setSem_stook (s : State) (name : Nat) (x : Sem) : (setSem s name x).stook = s.stook := rfl
@[simp] theorem setSem_jobs (s : State) (name : Nat) (x : Sem) : (setSem s name x).jobs = s.jobs := rfl
@[simp] theorem setSem_admitResult (s : State) (name : Nat) (x : Sem) : (setSem s name x).admitResult = s.admitResult := rfl
@[simp] theorem setSem_admitSlot (s : State) (name : Nat) (x : Sem) : (setSem s name x).admitSlot = s.admitSlot := rfl
@[simp] theorem setSem_admitHeld (s : State) (name : Nat) (x : Sem) : (setSem s name x).admitHeld = s.admitHeld := rfl
@[simp] theorem setSem_links (s : State) (name : Nat) (x : Sem) : (setSem s name x).links = s.links := rfl
@[simp] theorem setSem_cxl (s : State) (name : Nat) (x : Sem) : (setSem s name x).cxl = s.cxl := rfl
@[simp] theorem setSem_dict (s : State) (name : Nat) (x : Sem) : (setSem s name x).dict = s.dict := rfl
@[simp] theorem setSem_fns (s : State) (name : Nat) (x : Sem) : (setSem s name x).fns = s.fns := rfl
@[simp] theorem setSem_counts (s : State) (name : Nat) (x : Sem) : (setSem s name x).counts = s.counts := rfl
@[simp] theorem setSem_power (s : State) (name : Nat) (x : Sem) : (setSem s name x).power = s.power := rfl
@[simp] theorem setSem_reli (s : State) (name : Nat) (x : Sem) : (setSem s name x).reli = s.reli := rfl
@[simp] theorem setSem_sec (s : State) (name : Nat) (x : Sem) : (setSem s name x).sec = s.sec := rfl
@[simp] theorem setSem_board (s : State) (name : Nat) (x : Sem) : (setSem s name x).board = s.board := rfl
@[simp] theorem setSem_pending (s : State) (name : Nat) (x : Sem) : (setSem s name x).pending = s.pending := rfl

/-! ### setStack -/

@[simp] theorem setStack_variant (s : State) (k : Nat) (x : Stack) : (setStack s k x).variant = s.variant := rfl
@[simp] theorem setStack_clocks (s : State) (k : Nat) (x : Stack) : (setStack s k x).clocks = s.clocks := rfl
@[simp] theorem setStack_free (s : State) (k : Nat) (x : Stack) : (setStack s k x).free = s.free := rfl
@[simp] theorem setStack_out (s : State) (k : Nat) (x : Stack) : (setStack s k x).out = s.out := rfl
@[simp] theorem setStack_granary (s : State) (k : Nat) (x : Stack) : (setStack s k x).granary = s.granary := rfl
@[simp] theorem setStack_tillers (s : State) (k : Nat) (x : Stack) : (setStack s k x).tillers = s.tillers := rfl
@[simp] theorem setStack_furrows (s : State) (k : Nat) (x : Stack) : (setStack s k x).furrows = s.furrows := rfl
@[simp] theorem setStack_furrowQ (s : State) (k : Nat) (x : Stack) : (setStack s k x).furrowQ = s.furrowQ := rfl
@[simp] theorem setStack_furrowReplies (s : State) (k : Nat) (x : Stack) : (setStack s k x).furrowReplies = s.furrowReplies := rfl
@[simp] theorem setStack_sems (s : State) (k : Nat) (x : Stack) : (setStack s k x).sems = s.sems := rfl
@[simp] theorem setStack_signals (s : State) (k : Nat) (x : Stack) : (setStack s k x).signals = s.signals := rfl
@[simp] theorem setStack_urgentWait (s : State) (k : Nat) (x : Stack) : (setStack s k x).urgentWait = s.urgentWait := rfl
@[simp] theorem setStack_nextSignal (s : State) (k : Nat) (x : Stack) : (setStack s k x).nextSignal = s.nextSignal := rfl
@[simp] theorem setStack_valid (s : State) (k : Nat) (x : Stack) : (setStack s k x).valid = s.valid := rfl
@[simp] theorem setStack_dirty (s : State) (k : Nat) (x : Stack) : (setStack s k x).dirty = s.dirty := rfl
@[simp] theorem setStack_bales (s : State) (k : Nat) (x : Stack) : (setStack s k x).bales = s.bales := rfl
@[simp] theorem setStack_baleMax (s : State) (k : Nat) (x : Stack) : (setStack s k x).baleMax = s.baleMax := rfl
@[simp] theorem setStack_faultWait (s : State) (k : Nat) (x : Stack) : (setStack s k x).faultWait = s.faultWait := rfl
@[simp] theorem setStack_sowing (s : State) (k : Nat) (x : Stack) : (setStack s k x).sowing = s.sowing := rfl
@[simp] theorem setStack_latches (s : State) (k : Nat) (x : Stack) : (setStack s k x).latches = s.latches := rfl
@[simp] theorem setStack_held (s : State) (k : Nat) (x : Stack) : (setStack s k x).held = s.held := rfl
@[simp] theorem setStack_heldMax (s : State) (k : Nat) (x : Stack) : (setStack s k x).heldMax = s.heldMax := rfl
@[simp] theorem setStack_heldFailed (s : State) (k : Nat) (x : Stack) : (setStack s k x).heldFailed = s.heldFailed := rfl
@[simp] theorem setStack_slotWaits (s : State) (k : Nat) (x : Stack) : (setStack s k x).slotWaits = s.slotWaits := rfl
@[simp] theorem setStack_longest (s : State) (k : Nat) (x : Stack) : (setStack s k x).longest = s.longest := rfl
@[simp] theorem setStack_streamFaults (s : State) (k : Nat) (x : Stack) : (setStack s k x).streamFaults = s.streamFaults := rfl
@[simp] theorem setStack_awn (s : State) (k : Nat) (x : Stack) : (setStack s k x).awn = s.awn := rfl
@[simp] theorem setStack_rot (s : State) (k : Nat) (x : Stack) : (setStack s k x).rot = s.rot := rfl
@[simp] theorem setStack_stook (s : State) (k : Nat) (x : Stack) : (setStack s k x).stook = s.stook := rfl
@[simp] theorem setStack_jobs (s : State) (k : Nat) (x : Stack) : (setStack s k x).jobs = s.jobs := rfl
@[simp] theorem setStack_admitResult (s : State) (k : Nat) (x : Stack) : (setStack s k x).admitResult = s.admitResult := rfl
@[simp] theorem setStack_admitSlot (s : State) (k : Nat) (x : Stack) : (setStack s k x).admitSlot = s.admitSlot := rfl
@[simp] theorem setStack_admitHeld (s : State) (k : Nat) (x : Stack) : (setStack s k x).admitHeld = s.admitHeld := rfl
@[simp] theorem setStack_links (s : State) (k : Nat) (x : Stack) : (setStack s k x).links = s.links := rfl
@[simp] theorem setStack_cxl (s : State) (k : Nat) (x : Stack) : (setStack s k x).cxl = s.cxl := rfl
@[simp] theorem setStack_dict (s : State) (k : Nat) (x : Stack) : (setStack s k x).dict = s.dict := rfl
@[simp] theorem setStack_fns (s : State) (k : Nat) (x : Stack) : (setStack s k x).fns = s.fns := rfl
@[simp] theorem setStack_counts (s : State) (k : Nat) (x : Stack) : (setStack s k x).counts = s.counts := rfl
@[simp] theorem setStack_power (s : State) (k : Nat) (x : Stack) : (setStack s k x).power = s.power := rfl
@[simp] theorem setStack_reli (s : State) (k : Nat) (x : Stack) : (setStack s k x).reli = s.reli := rfl
@[simp] theorem setStack_sec (s : State) (k : Nat) (x : Stack) : (setStack s k x).sec = s.sec := rfl
@[simp] theorem setStack_board (s : State) (k : Nat) (x : Stack) : (setStack s k x).board = s.board := rfl
@[simp] theorem setStack_pending (s : State) (k : Nat) (x : Stack) : (setStack s k x).pending = s.pending := rfl

/-! ### setValid -/

@[simp] theorem setValid_variant (s : State) (g : Nat) (v : Bool) : (setValid s g v).variant = s.variant := rfl
@[simp] theorem setValid_clocks (s : State) (g : Nat) (v : Bool) : (setValid s g v).clocks = s.clocks := rfl
@[simp] theorem setValid_free (s : State) (g : Nat) (v : Bool) : (setValid s g v).free = s.free := rfl
@[simp] theorem setValid_out (s : State) (g : Nat) (v : Bool) : (setValid s g v).out = s.out := rfl
@[simp] theorem setValid_granary (s : State) (g : Nat) (v : Bool) : (setValid s g v).granary = s.granary := rfl
@[simp] theorem setValid_tillers (s : State) (g : Nat) (v : Bool) : (setValid s g v).tillers = s.tillers := rfl
@[simp] theorem setValid_furrows (s : State) (g : Nat) (v : Bool) : (setValid s g v).furrows = s.furrows := rfl
@[simp] theorem setValid_furrowQ (s : State) (g : Nat) (v : Bool) : (setValid s g v).furrowQ = s.furrowQ := rfl
@[simp] theorem setValid_furrowReplies (s : State) (g : Nat) (v : Bool) : (setValid s g v).furrowReplies = s.furrowReplies := rfl
@[simp] theorem setValid_sems (s : State) (g : Nat) (v : Bool) : (setValid s g v).sems = s.sems := rfl
@[simp] theorem setValid_signals (s : State) (g : Nat) (v : Bool) : (setValid s g v).signals = s.signals := rfl
@[simp] theorem setValid_urgentWait (s : State) (g : Nat) (v : Bool) : (setValid s g v).urgentWait = s.urgentWait := rfl
@[simp] theorem setValid_nextSignal (s : State) (g : Nat) (v : Bool) : (setValid s g v).nextSignal = s.nextSignal := rfl
@[simp] theorem setValid_granStacks (s : State) (g : Nat) (v : Bool) : (setValid s g v).granStacks = s.granStacks := rfl
@[simp] theorem setValid_dirty (s : State) (g : Nat) (v : Bool) : (setValid s g v).dirty = s.dirty := rfl
@[simp] theorem setValid_bales (s : State) (g : Nat) (v : Bool) : (setValid s g v).bales = s.bales := rfl
@[simp] theorem setValid_baleMax (s : State) (g : Nat) (v : Bool) : (setValid s g v).baleMax = s.baleMax := rfl
@[simp] theorem setValid_faultWait (s : State) (g : Nat) (v : Bool) : (setValid s g v).faultWait = s.faultWait := rfl
@[simp] theorem setValid_sowing (s : State) (g : Nat) (v : Bool) : (setValid s g v).sowing = s.sowing := rfl
@[simp] theorem setValid_latches (s : State) (g : Nat) (v : Bool) : (setValid s g v).latches = s.latches := rfl
@[simp] theorem setValid_held (s : State) (g : Nat) (v : Bool) : (setValid s g v).held = s.held := rfl
@[simp] theorem setValid_heldMax (s : State) (g : Nat) (v : Bool) : (setValid s g v).heldMax = s.heldMax := rfl
@[simp] theorem setValid_heldFailed (s : State) (g : Nat) (v : Bool) : (setValid s g v).heldFailed = s.heldFailed := rfl
@[simp] theorem setValid_slotWaits (s : State) (g : Nat) (v : Bool) : (setValid s g v).slotWaits = s.slotWaits := rfl
@[simp] theorem setValid_longest (s : State) (g : Nat) (v : Bool) : (setValid s g v).longest = s.longest := rfl
@[simp] theorem setValid_streamFaults (s : State) (g : Nat) (v : Bool) : (setValid s g v).streamFaults = s.streamFaults := rfl
@[simp] theorem setValid_awn (s : State) (g : Nat) (v : Bool) : (setValid s g v).awn = s.awn := rfl
@[simp] theorem setValid_rot (s : State) (g : Nat) (v : Bool) : (setValid s g v).rot = s.rot := rfl
@[simp] theorem setValid_stook (s : State) (g : Nat) (v : Bool) : (setValid s g v).stook = s.stook := rfl
@[simp] theorem setValid_jobs (s : State) (g : Nat) (v : Bool) : (setValid s g v).jobs = s.jobs := rfl
@[simp] theorem setValid_admitResult (s : State) (g : Nat) (v : Bool) : (setValid s g v).admitResult = s.admitResult := rfl
@[simp] theorem setValid_admitSlot (s : State) (g : Nat) (v : Bool) : (setValid s g v).admitSlot = s.admitSlot := rfl
@[simp] theorem setValid_admitHeld (s : State) (g : Nat) (v : Bool) : (setValid s g v).admitHeld = s.admitHeld := rfl
@[simp] theorem setValid_links (s : State) (g : Nat) (v : Bool) : (setValid s g v).links = s.links := rfl
@[simp] theorem setValid_cxl (s : State) (g : Nat) (v : Bool) : (setValid s g v).cxl = s.cxl := rfl
@[simp] theorem setValid_dict (s : State) (g : Nat) (v : Bool) : (setValid s g v).dict = s.dict := rfl
@[simp] theorem setValid_fns (s : State) (g : Nat) (v : Bool) : (setValid s g v).fns = s.fns := rfl
@[simp] theorem setValid_counts (s : State) (g : Nat) (v : Bool) : (setValid s g v).counts = s.counts := rfl
@[simp] theorem setValid_power (s : State) (g : Nat) (v : Bool) : (setValid s g v).power = s.power := rfl
@[simp] theorem setValid_reli (s : State) (g : Nat) (v : Bool) : (setValid s g v).reli = s.reli := rfl
@[simp] theorem setValid_sec (s : State) (g : Nat) (v : Bool) : (setValid s g v).sec = s.sec := rfl
@[simp] theorem setValid_board (s : State) (g : Nat) (v : Bool) : (setValid s g v).board = s.board := rfl
@[simp] theorem setValid_pending (s : State) (g : Nat) (v : Bool) : (setValid s g v).pending = s.pending := rfl

/-! ### setDirty -/

@[simp] theorem setDirty_variant (s : State) (g : Nat) (v : Bool) : (setDirty s g v).variant = s.variant := rfl
@[simp] theorem setDirty_clocks (s : State) (g : Nat) (v : Bool) : (setDirty s g v).clocks = s.clocks := rfl
@[simp] theorem setDirty_free (s : State) (g : Nat) (v : Bool) : (setDirty s g v).free = s.free := rfl
@[simp] theorem setDirty_out (s : State) (g : Nat) (v : Bool) : (setDirty s g v).out = s.out := rfl
@[simp] theorem setDirty_granary (s : State) (g : Nat) (v : Bool) : (setDirty s g v).granary = s.granary := rfl
@[simp] theorem setDirty_tillers (s : State) (g : Nat) (v : Bool) : (setDirty s g v).tillers = s.tillers := rfl
@[simp] theorem setDirty_furrows (s : State) (g : Nat) (v : Bool) : (setDirty s g v).furrows = s.furrows := rfl
@[simp] theorem setDirty_furrowQ (s : State) (g : Nat) (v : Bool) : (setDirty s g v).furrowQ = s.furrowQ := rfl
@[simp] theorem setDirty_furrowReplies (s : State) (g : Nat) (v : Bool) : (setDirty s g v).furrowReplies = s.furrowReplies := rfl
@[simp] theorem setDirty_sems (s : State) (g : Nat) (v : Bool) : (setDirty s g v).sems = s.sems := rfl
@[simp] theorem setDirty_signals (s : State) (g : Nat) (v : Bool) : (setDirty s g v).signals = s.signals := rfl
@[simp] theorem setDirty_urgentWait (s : State) (g : Nat) (v : Bool) : (setDirty s g v).urgentWait = s.urgentWait := rfl
@[simp] theorem setDirty_nextSignal (s : State) (g : Nat) (v : Bool) : (setDirty s g v).nextSignal = s.nextSignal := rfl
@[simp] theorem setDirty_granStacks (s : State) (g : Nat) (v : Bool) : (setDirty s g v).granStacks = s.granStacks := rfl
@[simp] theorem setDirty_valid (s : State) (g : Nat) (v : Bool) : (setDirty s g v).valid = s.valid := rfl
@[simp] theorem setDirty_bales (s : State) (g : Nat) (v : Bool) : (setDirty s g v).bales = s.bales := rfl
@[simp] theorem setDirty_baleMax (s : State) (g : Nat) (v : Bool) : (setDirty s g v).baleMax = s.baleMax := rfl
@[simp] theorem setDirty_faultWait (s : State) (g : Nat) (v : Bool) : (setDirty s g v).faultWait = s.faultWait := rfl
@[simp] theorem setDirty_sowing (s : State) (g : Nat) (v : Bool) : (setDirty s g v).sowing = s.sowing := rfl
@[simp] theorem setDirty_latches (s : State) (g : Nat) (v : Bool) : (setDirty s g v).latches = s.latches := rfl
@[simp] theorem setDirty_held (s : State) (g : Nat) (v : Bool) : (setDirty s g v).held = s.held := rfl
@[simp] theorem setDirty_heldMax (s : State) (g : Nat) (v : Bool) : (setDirty s g v).heldMax = s.heldMax := rfl
@[simp] theorem setDirty_heldFailed (s : State) (g : Nat) (v : Bool) : (setDirty s g v).heldFailed = s.heldFailed := rfl
@[simp] theorem setDirty_slotWaits (s : State) (g : Nat) (v : Bool) : (setDirty s g v).slotWaits = s.slotWaits := rfl
@[simp] theorem setDirty_longest (s : State) (g : Nat) (v : Bool) : (setDirty s g v).longest = s.longest := rfl
@[simp] theorem setDirty_streamFaults (s : State) (g : Nat) (v : Bool) : (setDirty s g v).streamFaults = s.streamFaults := rfl
@[simp] theorem setDirty_awn (s : State) (g : Nat) (v : Bool) : (setDirty s g v).awn = s.awn := rfl
@[simp] theorem setDirty_rot (s : State) (g : Nat) (v : Bool) : (setDirty s g v).rot = s.rot := rfl
@[simp] theorem setDirty_stook (s : State) (g : Nat) (v : Bool) : (setDirty s g v).stook = s.stook := rfl
@[simp] theorem setDirty_jobs (s : State) (g : Nat) (v : Bool) : (setDirty s g v).jobs = s.jobs := rfl
@[simp] theorem setDirty_admitResult (s : State) (g : Nat) (v : Bool) : (setDirty s g v).admitResult = s.admitResult := rfl
@[simp] theorem setDirty_admitSlot (s : State) (g : Nat) (v : Bool) : (setDirty s g v).admitSlot = s.admitSlot := rfl
@[simp] theorem setDirty_admitHeld (s : State) (g : Nat) (v : Bool) : (setDirty s g v).admitHeld = s.admitHeld := rfl
@[simp] theorem setDirty_links (s : State) (g : Nat) (v : Bool) : (setDirty s g v).links = s.links := rfl
@[simp] theorem setDirty_cxl (s : State) (g : Nat) (v : Bool) : (setDirty s g v).cxl = s.cxl := rfl
@[simp] theorem setDirty_dict (s : State) (g : Nat) (v : Bool) : (setDirty s g v).dict = s.dict := rfl
@[simp] theorem setDirty_fns (s : State) (g : Nat) (v : Bool) : (setDirty s g v).fns = s.fns := rfl
@[simp] theorem setDirty_counts (s : State) (g : Nat) (v : Bool) : (setDirty s g v).counts = s.counts := rfl
@[simp] theorem setDirty_power (s : State) (g : Nat) (v : Bool) : (setDirty s g v).power = s.power := rfl
@[simp] theorem setDirty_reli (s : State) (g : Nat) (v : Bool) : (setDirty s g v).reli = s.reli := rfl
@[simp] theorem setDirty_sec (s : State) (g : Nat) (v : Bool) : (setDirty s g v).sec = s.sec := rfl
@[simp] theorem setDirty_board (s : State) (g : Nat) (v : Bool) : (setDirty s g v).board = s.board := rfl
@[simp] theorem setDirty_pending (s : State) (g : Nat) (v : Bool) : (setDirty s g v).pending = s.pending := rfl

/-! ### setBale -/

@[simp] theorem setBale_variant (s : State) (b : Bale) : (setBale s b).variant = s.variant := rfl
@[simp] theorem setBale_clocks (s : State) (b : Bale) : (setBale s b).clocks = s.clocks := rfl
@[simp] theorem setBale_free (s : State) (b : Bale) : (setBale s b).free = s.free := rfl
@[simp] theorem setBale_out (s : State) (b : Bale) : (setBale s b).out = s.out := rfl
@[simp] theorem setBale_granary (s : State) (b : Bale) : (setBale s b).granary = s.granary := rfl
@[simp] theorem setBale_tillers (s : State) (b : Bale) : (setBale s b).tillers = s.tillers := rfl
@[simp] theorem setBale_furrows (s : State) (b : Bale) : (setBale s b).furrows = s.furrows := rfl
@[simp] theorem setBale_furrowQ (s : State) (b : Bale) : (setBale s b).furrowQ = s.furrowQ := rfl
@[simp] theorem setBale_furrowReplies (s : State) (b : Bale) : (setBale s b).furrowReplies = s.furrowReplies := rfl
@[simp] theorem setBale_sems (s : State) (b : Bale) : (setBale s b).sems = s.sems := rfl
@[simp] theorem setBale_signals (s : State) (b : Bale) : (setBale s b).signals = s.signals := rfl
@[simp] theorem setBale_urgentWait (s : State) (b : Bale) : (setBale s b).urgentWait = s.urgentWait := rfl
@[simp] theorem setBale_nextSignal (s : State) (b : Bale) : (setBale s b).nextSignal = s.nextSignal := rfl
@[simp] theorem setBale_granStacks (s : State) (b : Bale) : (setBale s b).granStacks = s.granStacks := rfl
@[simp] theorem setBale_valid (s : State) (b : Bale) : (setBale s b).valid = s.valid := rfl
@[simp] theorem setBale_dirty (s : State) (b : Bale) : (setBale s b).dirty = s.dirty := rfl
@[simp] theorem setBale_baleMax (s : State) (b : Bale) : (setBale s b).baleMax = s.baleMax := rfl
@[simp] theorem setBale_faultWait (s : State) (b : Bale) : (setBale s b).faultWait = s.faultWait := rfl
@[simp] theorem setBale_sowing (s : State) (b : Bale) : (setBale s b).sowing = s.sowing := rfl
@[simp] theorem setBale_latches (s : State) (b : Bale) : (setBale s b).latches = s.latches := rfl
@[simp] theorem setBale_held (s : State) (b : Bale) : (setBale s b).held = s.held := rfl
@[simp] theorem setBale_heldMax (s : State) (b : Bale) : (setBale s b).heldMax = s.heldMax := rfl
@[simp] theorem setBale_heldFailed (s : State) (b : Bale) : (setBale s b).heldFailed = s.heldFailed := rfl
@[simp] theorem setBale_slotWaits (s : State) (b : Bale) : (setBale s b).slotWaits = s.slotWaits := rfl
@[simp] theorem setBale_longest (s : State) (b : Bale) : (setBale s b).longest = s.longest := rfl
@[simp] theorem setBale_streamFaults (s : State) (b : Bale) : (setBale s b).streamFaults = s.streamFaults := rfl
@[simp] theorem setBale_awn (s : State) (b : Bale) : (setBale s b).awn = s.awn := rfl
@[simp] theorem setBale_rot (s : State) (b : Bale) : (setBale s b).rot = s.rot := rfl
@[simp] theorem setBale_stook (s : State) (b : Bale) : (setBale s b).stook = s.stook := rfl
@[simp] theorem setBale_jobs (s : State) (b : Bale) : (setBale s b).jobs = s.jobs := rfl
@[simp] theorem setBale_admitResult (s : State) (b : Bale) : (setBale s b).admitResult = s.admitResult := rfl
@[simp] theorem setBale_admitSlot (s : State) (b : Bale) : (setBale s b).admitSlot = s.admitSlot := rfl
@[simp] theorem setBale_admitHeld (s : State) (b : Bale) : (setBale s b).admitHeld = s.admitHeld := rfl
@[simp] theorem setBale_links (s : State) (b : Bale) : (setBale s b).links = s.links := rfl
@[simp] theorem setBale_cxl (s : State) (b : Bale) : (setBale s b).cxl = s.cxl := rfl
@[simp] theorem setBale_dict (s : State) (b : Bale) : (setBale s b).dict = s.dict := rfl
@[simp] theorem setBale_fns (s : State) (b : Bale) : (setBale s b).fns = s.fns := rfl
@[simp] theorem setBale_counts (s : State) (b : Bale) : (setBale s b).counts = s.counts := rfl
@[simp] theorem setBale_power (s : State) (b : Bale) : (setBale s b).power = s.power := rfl
@[simp] theorem setBale_reli (s : State) (b : Bale) : (setBale s b).reli = s.reli := rfl
@[simp] theorem setBale_sec (s : State) (b : Bale) : (setBale s b).sec = s.sec := rfl
@[simp] theorem setBale_board (s : State) (b : Bale) : (setBale s b).board = s.board := rfl
@[simp] theorem setBale_pending (s : State) (b : Bale) : (setBale s b).pending = s.pending := rfl

/-! ### setFurrow -/

@[simp] theorem setFurrow_variant (s : State) (die num : Nat) (x : Furrow) : (setFurrow s die num x).variant = s.variant := rfl
@[simp] theorem setFurrow_clocks (s : State) (die num : Nat) (x : Furrow) : (setFurrow s die num x).clocks = s.clocks := rfl
@[simp] theorem setFurrow_free (s : State) (die num : Nat) (x : Furrow) : (setFurrow s die num x).free = s.free := rfl
@[simp] theorem setFurrow_out (s : State) (die num : Nat) (x : Furrow) : (setFurrow s die num x).out = s.out := rfl
@[simp] theorem setFurrow_granary (s : State) (die num : Nat) (x : Furrow) : (setFurrow s die num x).granary = s.granary := rfl
@[simp] theorem setFurrow_tillers (s : State) (die num : Nat) (x : Furrow) : (setFurrow s die num x).tillers = s.tillers := rfl
@[simp] theorem setFurrow_furrowQ (s : State) (die num : Nat) (x : Furrow) : (setFurrow s die num x).furrowQ = s.furrowQ := rfl
@[simp] theorem setFurrow_furrowReplies (s : State) (die num : Nat) (x : Furrow) : (setFurrow s die num x).furrowReplies = s.furrowReplies := rfl
@[simp] theorem setFurrow_sems (s : State) (die num : Nat) (x : Furrow) : (setFurrow s die num x).sems = s.sems := rfl
@[simp] theorem setFurrow_signals (s : State) (die num : Nat) (x : Furrow) : (setFurrow s die num x).signals = s.signals := rfl
@[simp] theorem setFurrow_urgentWait (s : State) (die num : Nat) (x : Furrow) : (setFurrow s die num x).urgentWait = s.urgentWait := rfl
@[simp] theorem setFurrow_nextSignal (s : State) (die num : Nat) (x : Furrow) : (setFurrow s die num x).nextSignal = s.nextSignal := rfl
@[simp] theorem setFurrow_granStacks (s : State) (die num : Nat) (x : Furrow) : (setFurrow s die num x).granStacks = s.granStacks := rfl
@[simp] theorem setFurrow_valid (s : State) (die num : Nat) (x : Furrow) : (setFurrow s die num x).valid = s.valid := rfl
@[simp] theorem setFurrow_dirty (s : State) (die num : Nat) (x : Furrow) : (setFurrow s die num x).dirty = s.dirty := rfl
@[simp] theorem setFurrow_bales (s : State) (die num : Nat) (x : Furrow) : (setFurrow s die num x).bales = s.bales := rfl
@[simp] theorem setFurrow_baleMax (s : State) (die num : Nat) (x : Furrow) : (setFurrow s die num x).baleMax = s.baleMax := rfl
@[simp] theorem setFurrow_faultWait (s : State) (die num : Nat) (x : Furrow) : (setFurrow s die num x).faultWait = s.faultWait := rfl
@[simp] theorem setFurrow_sowing (s : State) (die num : Nat) (x : Furrow) : (setFurrow s die num x).sowing = s.sowing := rfl
@[simp] theorem setFurrow_latches (s : State) (die num : Nat) (x : Furrow) : (setFurrow s die num x).latches = s.latches := rfl
@[simp] theorem setFurrow_held (s : State) (die num : Nat) (x : Furrow) : (setFurrow s die num x).held = s.held := rfl
@[simp] theorem setFurrow_heldMax (s : State) (die num : Nat) (x : Furrow) : (setFurrow s die num x).heldMax = s.heldMax := rfl
@[simp] theorem setFurrow_heldFailed (s : State) (die num : Nat) (x : Furrow) : (setFurrow s die num x).heldFailed = s.heldFailed := rfl
@[simp] theorem setFurrow_slotWaits (s : State) (die num : Nat) (x : Furrow) : (setFurrow s die num x).slotWaits = s.slotWaits := rfl
@[simp] theorem setFurrow_longest (s : State) (die num : Nat) (x : Furrow) : (setFurrow s die num x).longest = s.longest := rfl
@[simp] theorem setFurrow_streamFaults (s : State) (die num : Nat) (x : Furrow) : (setFurrow s die num x).streamFaults = s.streamFaults := rfl
@[simp] theorem setFurrow_awn (s : State) (die num : Nat) (x : Furrow) : (setFurrow s die num x).awn = s.awn := rfl
@[simp] theorem setFurrow_rot (s : State) (die num : Nat) (x : Furrow) : (setFurrow s die num x).rot = s.rot := rfl
@[simp] theorem setFurrow_stook (s : State) (die num : Nat) (x : Furrow) : (setFurrow s die num x).stook = s.stook := rfl
@[simp] theorem setFurrow_jobs (s : State) (die num : Nat) (x : Furrow) : (setFurrow s die num x).jobs = s.jobs := rfl
@[simp] theorem setFurrow_admitResult (s : State) (die num : Nat) (x : Furrow) : (setFurrow s die num x).admitResult = s.admitResult := rfl
@[simp] theorem setFurrow_admitSlot (s : State) (die num : Nat) (x : Furrow) : (setFurrow s die num x).admitSlot = s.admitSlot := rfl
@[simp] theorem setFurrow_admitHeld (s : State) (die num : Nat) (x : Furrow) : (setFurrow s die num x).admitHeld = s.admitHeld := rfl
@[simp] theorem setFurrow_links (s : State) (die num : Nat) (x : Furrow) : (setFurrow s die num x).links = s.links := rfl
@[simp] theorem setFurrow_cxl (s : State) (die num : Nat) (x : Furrow) : (setFurrow s die num x).cxl = s.cxl := rfl
@[simp] theorem setFurrow_dict (s : State) (die num : Nat) (x : Furrow) : (setFurrow s die num x).dict = s.dict := rfl
@[simp] theorem setFurrow_fns (s : State) (die num : Nat) (x : Furrow) : (setFurrow s die num x).fns = s.fns := rfl
@[simp] theorem setFurrow_counts (s : State) (die num : Nat) (x : Furrow) : (setFurrow s die num x).counts = s.counts := rfl
@[simp] theorem setFurrow_power (s : State) (die num : Nat) (x : Furrow) : (setFurrow s die num x).power = s.power := rfl
@[simp] theorem setFurrow_reli (s : State) (die num : Nat) (x : Furrow) : (setFurrow s die num x).reli = s.reli := rfl
@[simp] theorem setFurrow_sec (s : State) (die num : Nat) (x : Furrow) : (setFurrow s die num x).sec = s.sec := rfl
@[simp] theorem setFurrow_board (s : State) (die num : Nat) (x : Furrow) : (setFurrow s die num x).board = s.board := rfl
@[simp] theorem setFurrow_pending (s : State) (die num : Nat) (x : Furrow) : (setFurrow s die num x).pending = s.pending := rfl

/-! ### setCtx -/

@[simp] theorem setCtx_variant (s : State) (c : CtxId) (x : Ctx) : (setCtx s c x).variant = s.variant := rfl
@[simp] theorem setCtx_clocks (s : State) (c : CtxId) (x : Ctx) : (setCtx s c x).clocks = s.clocks := rfl
@[simp] theorem setCtx_free (s : State) (c : CtxId) (x : Ctx) : (setCtx s c x).free = s.free := rfl
@[simp] theorem setCtx_out (s : State) (c : CtxId) (x : Ctx) : (setCtx s c x).out = s.out := rfl
@[simp] theorem setCtx_granary (s : State) (c : CtxId) (x : Ctx) : (setCtx s c x).granary = s.granary := rfl
@[simp] theorem setCtx_furrows (s : State) (c : CtxId) (x : Ctx) : (setCtx s c x).furrows = s.furrows := rfl
@[simp] theorem setCtx_furrowQ (s : State) (c : CtxId) (x : Ctx) : (setCtx s c x).furrowQ = s.furrowQ := rfl
@[simp] theorem setCtx_furrowReplies (s : State) (c : CtxId) (x : Ctx) : (setCtx s c x).furrowReplies = s.furrowReplies := rfl
@[simp] theorem setCtx_sems (s : State) (c : CtxId) (x : Ctx) : (setCtx s c x).sems = s.sems := rfl
@[simp] theorem setCtx_signals (s : State) (c : CtxId) (x : Ctx) : (setCtx s c x).signals = s.signals := rfl
@[simp] theorem setCtx_urgentWait (s : State) (c : CtxId) (x : Ctx) : (setCtx s c x).urgentWait = s.urgentWait := rfl
@[simp] theorem setCtx_nextSignal (s : State) (c : CtxId) (x : Ctx) : (setCtx s c x).nextSignal = s.nextSignal := rfl
@[simp] theorem setCtx_granStacks (s : State) (c : CtxId) (x : Ctx) : (setCtx s c x).granStacks = s.granStacks := rfl
@[simp] theorem setCtx_valid (s : State) (c : CtxId) (x : Ctx) : (setCtx s c x).valid = s.valid := rfl
@[simp] theorem setCtx_dirty (s : State) (c : CtxId) (x : Ctx) : (setCtx s c x).dirty = s.dirty := rfl
@[simp] theorem setCtx_bales (s : State) (c : CtxId) (x : Ctx) : (setCtx s c x).bales = s.bales := rfl
@[simp] theorem setCtx_baleMax (s : State) (c : CtxId) (x : Ctx) : (setCtx s c x).baleMax = s.baleMax := rfl
@[simp] theorem setCtx_faultWait (s : State) (c : CtxId) (x : Ctx) : (setCtx s c x).faultWait = s.faultWait := rfl
@[simp] theorem setCtx_sowing (s : State) (c : CtxId) (x : Ctx) : (setCtx s c x).sowing = s.sowing := rfl
@[simp] theorem setCtx_latches (s : State) (c : CtxId) (x : Ctx) : (setCtx s c x).latches = s.latches := rfl
@[simp] theorem setCtx_held (s : State) (c : CtxId) (x : Ctx) : (setCtx s c x).held = s.held := rfl
@[simp] theorem setCtx_heldMax (s : State) (c : CtxId) (x : Ctx) : (setCtx s c x).heldMax = s.heldMax := rfl
@[simp] theorem setCtx_heldFailed (s : State) (c : CtxId) (x : Ctx) : (setCtx s c x).heldFailed = s.heldFailed := rfl
@[simp] theorem setCtx_slotWaits (s : State) (c : CtxId) (x : Ctx) : (setCtx s c x).slotWaits = s.slotWaits := rfl
@[simp] theorem setCtx_longest (s : State) (c : CtxId) (x : Ctx) : (setCtx s c x).longest = s.longest := rfl
@[simp] theorem setCtx_streamFaults (s : State) (c : CtxId) (x : Ctx) : (setCtx s c x).streamFaults = s.streamFaults := rfl
@[simp] theorem setCtx_awn (s : State) (c : CtxId) (x : Ctx) : (setCtx s c x).awn = s.awn := rfl
@[simp] theorem setCtx_rot (s : State) (c : CtxId) (x : Ctx) : (setCtx s c x).rot = s.rot := rfl
@[simp] theorem setCtx_stook (s : State) (c : CtxId) (x : Ctx) : (setCtx s c x).stook = s.stook := rfl
@[simp] theorem setCtx_jobs (s : State) (c : CtxId) (x : Ctx) : (setCtx s c x).jobs = s.jobs := rfl
@[simp] theorem setCtx_admitResult (s : State) (c : CtxId) (x : Ctx) : (setCtx s c x).admitResult = s.admitResult := rfl
@[simp] theorem setCtx_admitSlot (s : State) (c : CtxId) (x : Ctx) : (setCtx s c x).admitSlot = s.admitSlot := rfl
@[simp] theorem setCtx_admitHeld (s : State) (c : CtxId) (x : Ctx) : (setCtx s c x).admitHeld = s.admitHeld := rfl
@[simp] theorem setCtx_links (s : State) (c : CtxId) (x : Ctx) : (setCtx s c x).links = s.links := rfl
@[simp] theorem setCtx_cxl (s : State) (c : CtxId) (x : Ctx) : (setCtx s c x).cxl = s.cxl := rfl
@[simp] theorem setCtx_dict (s : State) (c : CtxId) (x : Ctx) : (setCtx s c x).dict = s.dict := rfl
@[simp] theorem setCtx_fns (s : State) (c : CtxId) (x : Ctx) : (setCtx s c x).fns = s.fns := rfl
@[simp] theorem setCtx_counts (s : State) (c : CtxId) (x : Ctx) : (setCtx s c x).counts = s.counts := rfl
@[simp] theorem setCtx_power (s : State) (c : CtxId) (x : Ctx) : (setCtx s c x).power = s.power := rfl
@[simp] theorem setCtx_reli (s : State) (c : CtxId) (x : Ctx) : (setCtx s c x).reli = s.reli := rfl
@[simp] theorem setCtx_sec (s : State) (c : CtxId) (x : Ctx) : (setCtx s c x).sec = s.sec := rfl
@[simp] theorem setCtx_board (s : State) (c : CtxId) (x : Ctx) : (setCtx s c x).board = s.board := rfl
@[simp] theorem setCtx_pending (s : State) (c : CtxId) (x : Ctx) : (setCtx s c x).pending = s.pending := rfl

/-! ### setFlow -/

@[simp] theorem setFlow_variant (s : State) (dst vc : Nat) (f : Flow) : (setFlow s dst vc f).variant = s.variant := rfl
@[simp] theorem setFlow_clocks (s : State) (dst vc : Nat) (f : Flow) : (setFlow s dst vc f).clocks = s.clocks := rfl
@[simp] theorem setFlow_free (s : State) (dst vc : Nat) (f : Flow) : (setFlow s dst vc f).free = s.free := rfl
@[simp] theorem setFlow_out (s : State) (dst vc : Nat) (f : Flow) : (setFlow s dst vc f).out = s.out := rfl
@[simp] theorem setFlow_granary (s : State) (dst vc : Nat) (f : Flow) : (setFlow s dst vc f).granary = s.granary := rfl
@[simp] theorem setFlow_tillers (s : State) (dst vc : Nat) (f : Flow) : (setFlow s dst vc f).tillers = s.tillers := rfl
@[simp] theorem setFlow_furrows (s : State) (dst vc : Nat) (f : Flow) : (setFlow s dst vc f).furrows = s.furrows := rfl
@[simp] theorem setFlow_furrowQ (s : State) (dst vc : Nat) (f : Flow) : (setFlow s dst vc f).furrowQ = s.furrowQ := rfl
@[simp] theorem setFlow_furrowReplies (s : State) (dst vc : Nat) (f : Flow) : (setFlow s dst vc f).furrowReplies = s.furrowReplies := rfl
@[simp] theorem setFlow_sems (s : State) (dst vc : Nat) (f : Flow) : (setFlow s dst vc f).sems = s.sems := rfl
@[simp] theorem setFlow_signals (s : State) (dst vc : Nat) (f : Flow) : (setFlow s dst vc f).signals = s.signals := rfl
@[simp] theorem setFlow_urgentWait (s : State) (dst vc : Nat) (f : Flow) : (setFlow s dst vc f).urgentWait = s.urgentWait := rfl
@[simp] theorem setFlow_nextSignal (s : State) (dst vc : Nat) (f : Flow) : (setFlow s dst vc f).nextSignal = s.nextSignal := rfl
@[simp] theorem setFlow_granStacks (s : State) (dst vc : Nat) (f : Flow) : (setFlow s dst vc f).granStacks = s.granStacks := rfl
@[simp] theorem setFlow_valid (s : State) (dst vc : Nat) (f : Flow) : (setFlow s dst vc f).valid = s.valid := rfl
@[simp] theorem setFlow_dirty (s : State) (dst vc : Nat) (f : Flow) : (setFlow s dst vc f).dirty = s.dirty := rfl
@[simp] theorem setFlow_bales (s : State) (dst vc : Nat) (f : Flow) : (setFlow s dst vc f).bales = s.bales := rfl
@[simp] theorem setFlow_baleMax (s : State) (dst vc : Nat) (f : Flow) : (setFlow s dst vc f).baleMax = s.baleMax := rfl
@[simp] theorem setFlow_faultWait (s : State) (dst vc : Nat) (f : Flow) : (setFlow s dst vc f).faultWait = s.faultWait := rfl
@[simp] theorem setFlow_sowing (s : State) (dst vc : Nat) (f : Flow) : (setFlow s dst vc f).sowing = s.sowing := rfl
@[simp] theorem setFlow_latches (s : State) (dst vc : Nat) (f : Flow) : (setFlow s dst vc f).latches = s.latches := rfl
@[simp] theorem setFlow_held (s : State) (dst vc : Nat) (f : Flow) : (setFlow s dst vc f).held = s.held := rfl
@[simp] theorem setFlow_heldMax (s : State) (dst vc : Nat) (f : Flow) : (setFlow s dst vc f).heldMax = s.heldMax := rfl
@[simp] theorem setFlow_heldFailed (s : State) (dst vc : Nat) (f : Flow) : (setFlow s dst vc f).heldFailed = s.heldFailed := rfl
@[simp] theorem setFlow_slotWaits (s : State) (dst vc : Nat) (f : Flow) : (setFlow s dst vc f).slotWaits = s.slotWaits := rfl
@[simp] theorem setFlow_longest (s : State) (dst vc : Nat) (f : Flow) : (setFlow s dst vc f).longest = s.longest := rfl
@[simp] theorem setFlow_streamFaults (s : State) (dst vc : Nat) (f : Flow) : (setFlow s dst vc f).streamFaults = s.streamFaults := rfl
@[simp] theorem setFlow_awn (s : State) (dst vc : Nat) (f : Flow) : (setFlow s dst vc f).awn = s.awn := rfl
@[simp] theorem setFlow_rot (s : State) (dst vc : Nat) (f : Flow) : (setFlow s dst vc f).rot = s.rot := rfl
@[simp] theorem setFlow_stook (s : State) (dst vc : Nat) (f : Flow) : (setFlow s dst vc f).stook = s.stook := rfl
@[simp] theorem setFlow_jobs (s : State) (dst vc : Nat) (f : Flow) : (setFlow s dst vc f).jobs = s.jobs := rfl
@[simp] theorem setFlow_admitResult (s : State) (dst vc : Nat) (f : Flow) : (setFlow s dst vc f).admitResult = s.admitResult := rfl
@[simp] theorem setFlow_admitSlot (s : State) (dst vc : Nat) (f : Flow) : (setFlow s dst vc f).admitSlot = s.admitSlot := rfl
@[simp] theorem setFlow_admitHeld (s : State) (dst vc : Nat) (f : Flow) : (setFlow s dst vc f).admitHeld = s.admitHeld := rfl
@[simp] theorem setFlow_cxl (s : State) (dst vc : Nat) (f : Flow) : (setFlow s dst vc f).cxl = s.cxl := rfl
@[simp] theorem setFlow_dict (s : State) (dst vc : Nat) (f : Flow) : (setFlow s dst vc f).dict = s.dict := rfl
@[simp] theorem setFlow_fns (s : State) (dst vc : Nat) (f : Flow) : (setFlow s dst vc f).fns = s.fns := rfl
@[simp] theorem setFlow_counts (s : State) (dst vc : Nat) (f : Flow) : (setFlow s dst vc f).counts = s.counts := rfl
@[simp] theorem setFlow_power (s : State) (dst vc : Nat) (f : Flow) : (setFlow s dst vc f).power = s.power := rfl
@[simp] theorem setFlow_reli (s : State) (dst vc : Nat) (f : Flow) : (setFlow s dst vc f).reli = s.reli := rfl
@[simp] theorem setFlow_sec (s : State) (dst vc : Nat) (f : Flow) : (setFlow s dst vc f).sec = s.sec := rfl
@[simp] theorem setFlow_board (s : State) (dst vc : Nat) (f : Flow) : (setFlow s dst vc f).board = s.board := rfl
@[simp] theorem setFlow_pending (s : State) (dst vc : Nat) (f : Flow) : (setFlow s dst vc f).pending = s.pending := rfl

/-! ### setDir -/

@[simp] theorem setDir_variant (s : State) (line bits : Nat) : (setDir s line bits).variant = s.variant := rfl
@[simp] theorem setDir_clocks (s : State) (line bits : Nat) : (setDir s line bits).clocks = s.clocks := rfl
@[simp] theorem setDir_free (s : State) (line bits : Nat) : (setDir s line bits).free = s.free := rfl
@[simp] theorem setDir_out (s : State) (line bits : Nat) : (setDir s line bits).out = s.out := rfl
@[simp] theorem setDir_granary (s : State) (line bits : Nat) : (setDir s line bits).granary = s.granary := rfl
@[simp] theorem setDir_tillers (s : State) (line bits : Nat) : (setDir s line bits).tillers = s.tillers := rfl
@[simp] theorem setDir_furrows (s : State) (line bits : Nat) : (setDir s line bits).furrows = s.furrows := rfl
@[simp] theorem setDir_furrowQ (s : State) (line bits : Nat) : (setDir s line bits).furrowQ = s.furrowQ := rfl
@[simp] theorem setDir_furrowReplies (s : State) (line bits : Nat) : (setDir s line bits).furrowReplies = s.furrowReplies := rfl
@[simp] theorem setDir_sems (s : State) (line bits : Nat) : (setDir s line bits).sems = s.sems := rfl
@[simp] theorem setDir_signals (s : State) (line bits : Nat) : (setDir s line bits).signals = s.signals := rfl
@[simp] theorem setDir_urgentWait (s : State) (line bits : Nat) : (setDir s line bits).urgentWait = s.urgentWait := rfl
@[simp] theorem setDir_nextSignal (s : State) (line bits : Nat) : (setDir s line bits).nextSignal = s.nextSignal := rfl
@[simp] theorem setDir_granStacks (s : State) (line bits : Nat) : (setDir s line bits).granStacks = s.granStacks := rfl
@[simp] theorem setDir_valid (s : State) (line bits : Nat) : (setDir s line bits).valid = s.valid := rfl
@[simp] theorem setDir_dirty (s : State) (line bits : Nat) : (setDir s line bits).dirty = s.dirty := rfl
@[simp] theorem setDir_bales (s : State) (line bits : Nat) : (setDir s line bits).bales = s.bales := rfl
@[simp] theorem setDir_baleMax (s : State) (line bits : Nat) : (setDir s line bits).baleMax = s.baleMax := rfl
@[simp] theorem setDir_faultWait (s : State) (line bits : Nat) : (setDir s line bits).faultWait = s.faultWait := rfl
@[simp] theorem setDir_sowing (s : State) (line bits : Nat) : (setDir s line bits).sowing = s.sowing := rfl
@[simp] theorem setDir_latches (s : State) (line bits : Nat) : (setDir s line bits).latches = s.latches := rfl
@[simp] theorem setDir_held (s : State) (line bits : Nat) : (setDir s line bits).held = s.held := rfl
@[simp] theorem setDir_heldMax (s : State) (line bits : Nat) : (setDir s line bits).heldMax = s.heldMax := rfl
@[simp] theorem setDir_heldFailed (s : State) (line bits : Nat) : (setDir s line bits).heldFailed = s.heldFailed := rfl
@[simp] theorem setDir_slotWaits (s : State) (line bits : Nat) : (setDir s line bits).slotWaits = s.slotWaits := rfl
@[simp] theorem setDir_longest (s : State) (line bits : Nat) : (setDir s line bits).longest = s.longest := rfl
@[simp] theorem setDir_streamFaults (s : State) (line bits : Nat) : (setDir s line bits).streamFaults = s.streamFaults := rfl
@[simp] theorem setDir_awn (s : State) (line bits : Nat) : (setDir s line bits).awn = s.awn := rfl
@[simp] theorem setDir_rot (s : State) (line bits : Nat) : (setDir s line bits).rot = s.rot := rfl
@[simp] theorem setDir_stook (s : State) (line bits : Nat) : (setDir s line bits).stook = s.stook := rfl
@[simp] theorem setDir_jobs (s : State) (line bits : Nat) : (setDir s line bits).jobs = s.jobs := rfl
@[simp] theorem setDir_admitResult (s : State) (line bits : Nat) : (setDir s line bits).admitResult = s.admitResult := rfl
@[simp] theorem setDir_admitSlot (s : State) (line bits : Nat) : (setDir s line bits).admitSlot = s.admitSlot := rfl
@[simp] theorem setDir_admitHeld (s : State) (line bits : Nat) : (setDir s line bits).admitHeld = s.admitHeld := rfl
@[simp] theorem setDir_links (s : State) (line bits : Nat) : (setDir s line bits).links = s.links := rfl
@[simp] theorem setDir_dict (s : State) (line bits : Nat) : (setDir s line bits).dict = s.dict := rfl
@[simp] theorem setDir_fns (s : State) (line bits : Nat) : (setDir s line bits).fns = s.fns := rfl
@[simp] theorem setDir_counts (s : State) (line bits : Nat) : (setDir s line bits).counts = s.counts := rfl
@[simp] theorem setDir_power (s : State) (line bits : Nat) : (setDir s line bits).power = s.power := rfl
@[simp] theorem setDir_reli (s : State) (line bits : Nat) : (setDir s line bits).reli = s.reli := rfl
@[simp] theorem setDir_sec (s : State) (line bits : Nat) : (setDir s line bits).sec = s.sec := rfl
@[simp] theorem setDir_board (s : State) (line bits : Nat) : (setDir s line bits).board = s.board := rfl
@[simp] theorem setDir_pending (s : State) (line bits : Nat) : (setDir s line bits).pending = s.pending := rfl

/-! ### fnSet -/

@[simp] theorem fnSet_variant (s : State) (fn : Nat) (c : FnCtl) : (fnSet s fn c).variant = s.variant := rfl
@[simp] theorem fnSet_clocks (s : State) (fn : Nat) (c : FnCtl) : (fnSet s fn c).clocks = s.clocks := rfl
@[simp] theorem fnSet_free (s : State) (fn : Nat) (c : FnCtl) : (fnSet s fn c).free = s.free := rfl
@[simp] theorem fnSet_out (s : State) (fn : Nat) (c : FnCtl) : (fnSet s fn c).out = s.out := rfl
@[simp] theorem fnSet_granary (s : State) (fn : Nat) (c : FnCtl) : (fnSet s fn c).granary = s.granary := rfl
@[simp] theorem fnSet_tillers (s : State) (fn : Nat) (c : FnCtl) : (fnSet s fn c).tillers = s.tillers := rfl
@[simp] theorem fnSet_furrows (s : State) (fn : Nat) (c : FnCtl) : (fnSet s fn c).furrows = s.furrows := rfl
@[simp] theorem fnSet_furrowQ (s : State) (fn : Nat) (c : FnCtl) : (fnSet s fn c).furrowQ = s.furrowQ := rfl
@[simp] theorem fnSet_furrowReplies (s : State) (fn : Nat) (c : FnCtl) : (fnSet s fn c).furrowReplies = s.furrowReplies := rfl
@[simp] theorem fnSet_sems (s : State) (fn : Nat) (c : FnCtl) : (fnSet s fn c).sems = s.sems := rfl
@[simp] theorem fnSet_signals (s : State) (fn : Nat) (c : FnCtl) : (fnSet s fn c).signals = s.signals := rfl
@[simp] theorem fnSet_urgentWait (s : State) (fn : Nat) (c : FnCtl) : (fnSet s fn c).urgentWait = s.urgentWait := rfl
@[simp] theorem fnSet_nextSignal (s : State) (fn : Nat) (c : FnCtl) : (fnSet s fn c).nextSignal = s.nextSignal := rfl
@[simp] theorem fnSet_granStacks (s : State) (fn : Nat) (c : FnCtl) : (fnSet s fn c).granStacks = s.granStacks := rfl
@[simp] theorem fnSet_valid (s : State) (fn : Nat) (c : FnCtl) : (fnSet s fn c).valid = s.valid := rfl
@[simp] theorem fnSet_dirty (s : State) (fn : Nat) (c : FnCtl) : (fnSet s fn c).dirty = s.dirty := rfl
@[simp] theorem fnSet_bales (s : State) (fn : Nat) (c : FnCtl) : (fnSet s fn c).bales = s.bales := rfl
@[simp] theorem fnSet_baleMax (s : State) (fn : Nat) (c : FnCtl) : (fnSet s fn c).baleMax = s.baleMax := rfl
@[simp] theorem fnSet_faultWait (s : State) (fn : Nat) (c : FnCtl) : (fnSet s fn c).faultWait = s.faultWait := rfl
@[simp] theorem fnSet_sowing (s : State) (fn : Nat) (c : FnCtl) : (fnSet s fn c).sowing = s.sowing := rfl
@[simp] theorem fnSet_latches (s : State) (fn : Nat) (c : FnCtl) : (fnSet s fn c).latches = s.latches := rfl
@[simp] theorem fnSet_held (s : State) (fn : Nat) (c : FnCtl) : (fnSet s fn c).held = s.held := rfl
@[simp] theorem fnSet_heldMax (s : State) (fn : Nat) (c : FnCtl) : (fnSet s fn c).heldMax = s.heldMax := rfl
@[simp] theorem fnSet_heldFailed (s : State) (fn : Nat) (c : FnCtl) : (fnSet s fn c).heldFailed = s.heldFailed := rfl
@[simp] theorem fnSet_slotWaits (s : State) (fn : Nat) (c : FnCtl) : (fnSet s fn c).slotWaits = s.slotWaits := rfl
@[simp] theorem fnSet_longest (s : State) (fn : Nat) (c : FnCtl) : (fnSet s fn c).longest = s.longest := rfl
@[simp] theorem fnSet_streamFaults (s : State) (fn : Nat) (c : FnCtl) : (fnSet s fn c).streamFaults = s.streamFaults := rfl
@[simp] theorem fnSet_awn (s : State) (fn : Nat) (c : FnCtl) : (fnSet s fn c).awn = s.awn := rfl
@[simp] theorem fnSet_rot (s : State) (fn : Nat) (c : FnCtl) : (fnSet s fn c).rot = s.rot := rfl
@[simp] theorem fnSet_stook (s : State) (fn : Nat) (c : FnCtl) : (fnSet s fn c).stook = s.stook := rfl
@[simp] theorem fnSet_jobs (s : State) (fn : Nat) (c : FnCtl) : (fnSet s fn c).jobs = s.jobs := rfl
@[simp] theorem fnSet_admitResult (s : State) (fn : Nat) (c : FnCtl) : (fnSet s fn c).admitResult = s.admitResult := rfl
@[simp] theorem fnSet_admitSlot (s : State) (fn : Nat) (c : FnCtl) : (fnSet s fn c).admitSlot = s.admitSlot := rfl
@[simp] theorem fnSet_admitHeld (s : State) (fn : Nat) (c : FnCtl) : (fnSet s fn c).admitHeld = s.admitHeld := rfl
@[simp] theorem fnSet_links (s : State) (fn : Nat) (c : FnCtl) : (fnSet s fn c).links = s.links := rfl
@[simp] theorem fnSet_cxl (s : State) (fn : Nat) (c : FnCtl) : (fnSet s fn c).cxl = s.cxl := rfl
@[simp] theorem fnSet_dict (s : State) (fn : Nat) (c : FnCtl) : (fnSet s fn c).dict = s.dict := rfl
@[simp] theorem fnSet_counts (s : State) (fn : Nat) (c : FnCtl) : (fnSet s fn c).counts = s.counts := rfl
@[simp] theorem fnSet_power (s : State) (fn : Nat) (c : FnCtl) : (fnSet s fn c).power = s.power := rfl
@[simp] theorem fnSet_reli (s : State) (fn : Nat) (c : FnCtl) : (fnSet s fn c).reli = s.reli := rfl
@[simp] theorem fnSet_sec (s : State) (fn : Nat) (c : FnCtl) : (fnSet s fn c).sec = s.sec := rfl
@[simp] theorem fnSet_board (s : State) (fn : Nat) (c : FnCtl) : (fnSet s fn c).board = s.board := rfl
@[simp] theorem fnSet_pending (s : State) (fn : Nat) (c : FnCtl) : (fnSet s fn c).pending = s.pending := rfl

/-! ### setAwn -/

@[simp] theorem setAwn_variant (s : State) (a : Awn) : (setAwn s a).variant = s.variant := rfl
@[simp] theorem setAwn_clocks (s : State) (a : Awn) : (setAwn s a).clocks = s.clocks := rfl
@[simp] theorem setAwn_free (s : State) (a : Awn) : (setAwn s a).free = s.free := rfl
@[simp] theorem setAwn_out (s : State) (a : Awn) : (setAwn s a).out = s.out := rfl
@[simp] theorem setAwn_granary (s : State) (a : Awn) : (setAwn s a).granary = s.granary := rfl
@[simp] theorem setAwn_tillers (s : State) (a : Awn) : (setAwn s a).tillers = s.tillers := rfl
@[simp] theorem setAwn_furrows (s : State) (a : Awn) : (setAwn s a).furrows = s.furrows := rfl
@[simp] theorem setAwn_furrowQ (s : State) (a : Awn) : (setAwn s a).furrowQ = s.furrowQ := rfl
@[simp] theorem setAwn_furrowReplies (s : State) (a : Awn) : (setAwn s a).furrowReplies = s.furrowReplies := rfl
@[simp] theorem setAwn_sems (s : State) (a : Awn) : (setAwn s a).sems = s.sems := rfl
@[simp] theorem setAwn_signals (s : State) (a : Awn) : (setAwn s a).signals = s.signals := rfl
@[simp] theorem setAwn_urgentWait (s : State) (a : Awn) : (setAwn s a).urgentWait = s.urgentWait := rfl
@[simp] theorem setAwn_nextSignal (s : State) (a : Awn) : (setAwn s a).nextSignal = s.nextSignal := rfl
@[simp] theorem setAwn_granStacks (s : State) (a : Awn) : (setAwn s a).granStacks = s.granStacks := rfl
@[simp] theorem setAwn_valid (s : State) (a : Awn) : (setAwn s a).valid = s.valid := rfl
@[simp] theorem setAwn_dirty (s : State) (a : Awn) : (setAwn s a).dirty = s.dirty := rfl
@[simp] theorem setAwn_bales (s : State) (a : Awn) : (setAwn s a).bales = s.bales := rfl
@[simp] theorem setAwn_baleMax (s : State) (a : Awn) : (setAwn s a).baleMax = s.baleMax := rfl
@[simp] theorem setAwn_faultWait (s : State) (a : Awn) : (setAwn s a).faultWait = s.faultWait := rfl
@[simp] theorem setAwn_sowing (s : State) (a : Awn) : (setAwn s a).sowing = s.sowing := rfl
@[simp] theorem setAwn_latches (s : State) (a : Awn) : (setAwn s a).latches = s.latches := rfl
@[simp] theorem setAwn_held (s : State) (a : Awn) : (setAwn s a).held = s.held := rfl
@[simp] theorem setAwn_heldMax (s : State) (a : Awn) : (setAwn s a).heldMax = s.heldMax := rfl
@[simp] theorem setAwn_heldFailed (s : State) (a : Awn) : (setAwn s a).heldFailed = s.heldFailed := rfl
@[simp] theorem setAwn_slotWaits (s : State) (a : Awn) : (setAwn s a).slotWaits = s.slotWaits := rfl
@[simp] theorem setAwn_longest (s : State) (a : Awn) : (setAwn s a).longest = s.longest := rfl
@[simp] theorem setAwn_streamFaults (s : State) (a : Awn) : (setAwn s a).streamFaults = s.streamFaults := rfl
@[simp] theorem setAwn_rot (s : State) (a : Awn) : (setAwn s a).rot = s.rot := rfl
@[simp] theorem setAwn_stook (s : State) (a : Awn) : (setAwn s a).stook = s.stook := rfl
@[simp] theorem setAwn_jobs (s : State) (a : Awn) : (setAwn s a).jobs = s.jobs := rfl
@[simp] theorem setAwn_admitResult (s : State) (a : Awn) : (setAwn s a).admitResult = s.admitResult := rfl
@[simp] theorem setAwn_admitSlot (s : State) (a : Awn) : (setAwn s a).admitSlot = s.admitSlot := rfl
@[simp] theorem setAwn_admitHeld (s : State) (a : Awn) : (setAwn s a).admitHeld = s.admitHeld := rfl
@[simp] theorem setAwn_links (s : State) (a : Awn) : (setAwn s a).links = s.links := rfl
@[simp] theorem setAwn_cxl (s : State) (a : Awn) : (setAwn s a).cxl = s.cxl := rfl
@[simp] theorem setAwn_dict (s : State) (a : Awn) : (setAwn s a).dict = s.dict := rfl
@[simp] theorem setAwn_fns (s : State) (a : Awn) : (setAwn s a).fns = s.fns := rfl
@[simp] theorem setAwn_counts (s : State) (a : Awn) : (setAwn s a).counts = s.counts := rfl
@[simp] theorem setAwn_power (s : State) (a : Awn) : (setAwn s a).power = s.power := rfl
@[simp] theorem setAwn_reli (s : State) (a : Awn) : (setAwn s a).reli = s.reli := rfl
@[simp] theorem setAwn_sec (s : State) (a : Awn) : (setAwn s a).sec = s.sec := rfl
@[simp] theorem setAwn_board (s : State) (a : Awn) : (setAwn s a).board = s.board := rfl
@[simp] theorem setAwn_pending (s : State) (a : Awn) : (setAwn s a).pending = s.pending := rfl

/-! ### setRot -/

@[simp] theorem setRot_variant (s : State) (r : Rotation) : (setRot s r).variant = s.variant := rfl
@[simp] theorem setRot_clocks (s : State) (r : Rotation) : (setRot s r).clocks = s.clocks := rfl
@[simp] theorem setRot_free (s : State) (r : Rotation) : (setRot s r).free = s.free := rfl
@[simp] theorem setRot_out (s : State) (r : Rotation) : (setRot s r).out = s.out := rfl
@[simp] theorem setRot_granary (s : State) (r : Rotation) : (setRot s r).granary = s.granary := rfl
@[simp] theorem setRot_tillers (s : State) (r : Rotation) : (setRot s r).tillers = s.tillers := rfl
@[simp] theorem setRot_furrows (s : State) (r : Rotation) : (setRot s r).furrows = s.furrows := rfl
@[simp] theorem setRot_furrowQ (s : State) (r : Rotation) : (setRot s r).furrowQ = s.furrowQ := rfl
@[simp] theorem setRot_furrowReplies (s : State) (r : Rotation) : (setRot s r).furrowReplies = s.furrowReplies := rfl
@[simp] theorem setRot_sems (s : State) (r : Rotation) : (setRot s r).sems = s.sems := rfl
@[simp] theorem setRot_signals (s : State) (r : Rotation) : (setRot s r).signals = s.signals := rfl
@[simp] theorem setRot_urgentWait (s : State) (r : Rotation) : (setRot s r).urgentWait = s.urgentWait := rfl
@[simp] theorem setRot_nextSignal (s : State) (r : Rotation) : (setRot s r).nextSignal = s.nextSignal := rfl
@[simp] theorem setRot_granStacks (s : State) (r : Rotation) : (setRot s r).granStacks = s.granStacks := rfl
@[simp] theorem setRot_valid (s : State) (r : Rotation) : (setRot s r).valid = s.valid := rfl
@[simp] theorem setRot_dirty (s : State) (r : Rotation) : (setRot s r).dirty = s.dirty := rfl
@[simp] theorem setRot_bales (s : State) (r : Rotation) : (setRot s r).bales = s.bales := rfl
@[simp] theorem setRot_baleMax (s : State) (r : Rotation) : (setRot s r).baleMax = s.baleMax := rfl
@[simp] theorem setRot_faultWait (s : State) (r : Rotation) : (setRot s r).faultWait = s.faultWait := rfl
@[simp] theorem setRot_sowing (s : State) (r : Rotation) : (setRot s r).sowing = s.sowing := rfl
@[simp] theorem setRot_latches (s : State) (r : Rotation) : (setRot s r).latches = s.latches := rfl
@[simp] theorem setRot_held (s : State) (r : Rotation) : (setRot s r).held = s.held := rfl
@[simp] theorem setRot_heldMax (s : State) (r : Rotation) : (setRot s r).heldMax = s.heldMax := rfl
@[simp] theorem setRot_heldFailed (s : State) (r : Rotation) : (setRot s r).heldFailed = s.heldFailed := rfl
@[simp] theorem setRot_slotWaits (s : State) (r : Rotation) : (setRot s r).slotWaits = s.slotWaits := rfl
@[simp] theorem setRot_longest (s : State) (r : Rotation) : (setRot s r).longest = s.longest := rfl
@[simp] theorem setRot_streamFaults (s : State) (r : Rotation) : (setRot s r).streamFaults = s.streamFaults := rfl
@[simp] theorem setRot_awn (s : State) (r : Rotation) : (setRot s r).awn = s.awn := rfl
@[simp] theorem setRot_stook (s : State) (r : Rotation) : (setRot s r).stook = s.stook := rfl
@[simp] theorem setRot_jobs (s : State) (r : Rotation) : (setRot s r).jobs = s.jobs := rfl
@[simp] theorem setRot_admitResult (s : State) (r : Rotation) : (setRot s r).admitResult = s.admitResult := rfl
@[simp] theorem setRot_admitSlot (s : State) (r : Rotation) : (setRot s r).admitSlot = s.admitSlot := rfl
@[simp] theorem setRot_admitHeld (s : State) (r : Rotation) : (setRot s r).admitHeld = s.admitHeld := rfl
@[simp] theorem setRot_links (s : State) (r : Rotation) : (setRot s r).links = s.links := rfl
@[simp] theorem setRot_cxl (s : State) (r : Rotation) : (setRot s r).cxl = s.cxl := rfl
@[simp] theorem setRot_dict (s : State) (r : Rotation) : (setRot s r).dict = s.dict := rfl
@[simp] theorem setRot_fns (s : State) (r : Rotation) : (setRot s r).fns = s.fns := rfl
@[simp] theorem setRot_counts (s : State) (r : Rotation) : (setRot s r).counts = s.counts := rfl
@[simp] theorem setRot_power (s : State) (r : Rotation) : (setRot s r).power = s.power := rfl
@[simp] theorem setRot_reli (s : State) (r : Rotation) : (setRot s r).reli = s.reli := rfl
@[simp] theorem setRot_sec (s : State) (r : Rotation) : (setRot s r).sec = s.sec := rfl
@[simp] theorem setRot_board (s : State) (r : Rotation) : (setRot s r).board = s.board := rfl
@[simp] theorem setRot_pending (s : State) (r : Rotation) : (setRot s r).pending = s.pending := rfl

/-! ### setGroup -/

@[simp] theorem setGroup_variant (s : State) (g : Group) : (setGroup s g).variant = s.variant := rfl
@[simp] theorem setGroup_clocks (s : State) (g : Group) : (setGroup s g).clocks = s.clocks := rfl
@[simp] theorem setGroup_free (s : State) (g : Group) : (setGroup s g).free = s.free := rfl
@[simp] theorem setGroup_out (s : State) (g : Group) : (setGroup s g).out = s.out := rfl
@[simp] theorem setGroup_granary (s : State) (g : Group) : (setGroup s g).granary = s.granary := rfl
@[simp] theorem setGroup_tillers (s : State) (g : Group) : (setGroup s g).tillers = s.tillers := rfl
@[simp] theorem setGroup_furrows (s : State) (g : Group) : (setGroup s g).furrows = s.furrows := rfl
@[simp] theorem setGroup_furrowQ (s : State) (g : Group) : (setGroup s g).furrowQ = s.furrowQ := rfl
@[simp] theorem setGroup_furrowReplies (s : State) (g : Group) : (setGroup s g).furrowReplies = s.furrowReplies := rfl
@[simp] theorem setGroup_sems (s : State) (g : Group) : (setGroup s g).sems = s.sems := rfl
@[simp] theorem setGroup_signals (s : State) (g : Group) : (setGroup s g).signals = s.signals := rfl
@[simp] theorem setGroup_urgentWait (s : State) (g : Group) : (setGroup s g).urgentWait = s.urgentWait := rfl
@[simp] theorem setGroup_nextSignal (s : State) (g : Group) : (setGroup s g).nextSignal = s.nextSignal := rfl
@[simp] theorem setGroup_granStacks (s : State) (g : Group) : (setGroup s g).granStacks = s.granStacks := rfl
@[simp] theorem setGroup_valid (s : State) (g : Group) : (setGroup s g).valid = s.valid := rfl
@[simp] theorem setGroup_dirty (s : State) (g : Group) : (setGroup s g).dirty = s.dirty := rfl
@[simp] theorem setGroup_bales (s : State) (g : Group) : (setGroup s g).bales = s.bales := rfl
@[simp] theorem setGroup_baleMax (s : State) (g : Group) : (setGroup s g).baleMax = s.baleMax := rfl
@[simp] theorem setGroup_faultWait (s : State) (g : Group) : (setGroup s g).faultWait = s.faultWait := rfl
@[simp] theorem setGroup_sowing (s : State) (g : Group) : (setGroup s g).sowing = s.sowing := rfl
@[simp] theorem setGroup_latches (s : State) (g : Group) : (setGroup s g).latches = s.latches := rfl
@[simp] theorem setGroup_held (s : State) (g : Group) : (setGroup s g).held = s.held := rfl
@[simp] theorem setGroup_heldMax (s : State) (g : Group) : (setGroup s g).heldMax = s.heldMax := rfl
@[simp] theorem setGroup_heldFailed (s : State) (g : Group) : (setGroup s g).heldFailed = s.heldFailed := rfl
@[simp] theorem setGroup_slotWaits (s : State) (g : Group) : (setGroup s g).slotWaits = s.slotWaits := rfl
@[simp] theorem setGroup_longest (s : State) (g : Group) : (setGroup s g).longest = s.longest := rfl
@[simp] theorem setGroup_streamFaults (s : State) (g : Group) : (setGroup s g).streamFaults = s.streamFaults := rfl
@[simp] theorem setGroup_awn (s : State) (g : Group) : (setGroup s g).awn = s.awn := rfl
@[simp] theorem setGroup_rot (s : State) (g : Group) : (setGroup s g).rot = s.rot := rfl
@[simp] theorem setGroup_jobs (s : State) (g : Group) : (setGroup s g).jobs = s.jobs := rfl
@[simp] theorem setGroup_admitResult (s : State) (g : Group) : (setGroup s g).admitResult = s.admitResult := rfl
@[simp] theorem setGroup_admitSlot (s : State) (g : Group) : (setGroup s g).admitSlot = s.admitSlot := rfl
@[simp] theorem setGroup_admitHeld (s : State) (g : Group) : (setGroup s g).admitHeld = s.admitHeld := rfl
@[simp] theorem setGroup_links (s : State) (g : Group) : (setGroup s g).links = s.links := rfl
@[simp] theorem setGroup_cxl (s : State) (g : Group) : (setGroup s g).cxl = s.cxl := rfl
@[simp] theorem setGroup_dict (s : State) (g : Group) : (setGroup s g).dict = s.dict := rfl
@[simp] theorem setGroup_fns (s : State) (g : Group) : (setGroup s g).fns = s.fns := rfl
@[simp] theorem setGroup_counts (s : State) (g : Group) : (setGroup s g).counts = s.counts := rfl
@[simp] theorem setGroup_power (s : State) (g : Group) : (setGroup s g).power = s.power := rfl
@[simp] theorem setGroup_reli (s : State) (g : Group) : (setGroup s g).reli = s.reli := rfl
@[simp] theorem setGroup_sec (s : State) (g : Group) : (setGroup s g).sec = s.sec := rfl
@[simp] theorem setGroup_board (s : State) (g : Group) : (setGroup s g).board = s.board := rfl
@[simp] theorem setGroup_pending (s : State) (g : Group) : (setGroup s g).pending = s.pending := rfl

/-! ### setSession -/

@[simp] theorem setSession_variant (s : State) (sid : Nat) (x : Session) : (setSession s sid x).variant = s.variant := rfl
@[simp] theorem setSession_clocks (s : State) (sid : Nat) (x : Session) : (setSession s sid x).clocks = s.clocks := rfl
@[simp] theorem setSession_free (s : State) (sid : Nat) (x : Session) : (setSession s sid x).free = s.free := rfl
@[simp] theorem setSession_out (s : State) (sid : Nat) (x : Session) : (setSession s sid x).out = s.out := rfl
@[simp] theorem setSession_granary (s : State) (sid : Nat) (x : Session) : (setSession s sid x).granary = s.granary := rfl
@[simp] theorem setSession_tillers (s : State) (sid : Nat) (x : Session) : (setSession s sid x).tillers = s.tillers := rfl
@[simp] theorem setSession_furrows (s : State) (sid : Nat) (x : Session) : (setSession s sid x).furrows = s.furrows := rfl
@[simp] theorem setSession_furrowQ (s : State) (sid : Nat) (x : Session) : (setSession s sid x).furrowQ = s.furrowQ := rfl
@[simp] theorem setSession_furrowReplies (s : State) (sid : Nat) (x : Session) : (setSession s sid x).furrowReplies = s.furrowReplies := rfl
@[simp] theorem setSession_sems (s : State) (sid : Nat) (x : Session) : (setSession s sid x).sems = s.sems := rfl
@[simp] theorem setSession_signals (s : State) (sid : Nat) (x : Session) : (setSession s sid x).signals = s.signals := rfl
@[simp] theorem setSession_urgentWait (s : State) (sid : Nat) (x : Session) : (setSession s sid x).urgentWait = s.urgentWait := rfl
@[simp] theorem setSession_nextSignal (s : State) (sid : Nat) (x : Session) : (setSession s sid x).nextSignal = s.nextSignal := rfl
@[simp] theorem setSession_granStacks (s : State) (sid : Nat) (x : Session) : (setSession s sid x).granStacks = s.granStacks := rfl
@[simp] theorem setSession_valid (s : State) (sid : Nat) (x : Session) : (setSession s sid x).valid = s.valid := rfl
@[simp] theorem setSession_dirty (s : State) (sid : Nat) (x : Session) : (setSession s sid x).dirty = s.dirty := rfl
@[simp] theorem setSession_bales (s : State) (sid : Nat) (x : Session) : (setSession s sid x).bales = s.bales := rfl
@[simp] theorem setSession_baleMax (s : State) (sid : Nat) (x : Session) : (setSession s sid x).baleMax = s.baleMax := rfl
@[simp] theorem setSession_faultWait (s : State) (sid : Nat) (x : Session) : (setSession s sid x).faultWait = s.faultWait := rfl
@[simp] theorem setSession_sowing (s : State) (sid : Nat) (x : Session) : (setSession s sid x).sowing = s.sowing := rfl
@[simp] theorem setSession_latches (s : State) (sid : Nat) (x : Session) : (setSession s sid x).latches = s.latches := rfl
@[simp] theorem setSession_held (s : State) (sid : Nat) (x : Session) : (setSession s sid x).held = s.held := rfl
@[simp] theorem setSession_heldMax (s : State) (sid : Nat) (x : Session) : (setSession s sid x).heldMax = s.heldMax := rfl
@[simp] theorem setSession_heldFailed (s : State) (sid : Nat) (x : Session) : (setSession s sid x).heldFailed = s.heldFailed := rfl
@[simp] theorem setSession_slotWaits (s : State) (sid : Nat) (x : Session) : (setSession s sid x).slotWaits = s.slotWaits := rfl
@[simp] theorem setSession_longest (s : State) (sid : Nat) (x : Session) : (setSession s sid x).longest = s.longest := rfl
@[simp] theorem setSession_streamFaults (s : State) (sid : Nat) (x : Session) : (setSession s sid x).streamFaults = s.streamFaults := rfl
@[simp] theorem setSession_awn (s : State) (sid : Nat) (x : Session) : (setSession s sid x).awn = s.awn := rfl
@[simp] theorem setSession_rot (s : State) (sid : Nat) (x : Session) : (setSession s sid x).rot = s.rot := rfl
@[simp] theorem setSession_stook (s : State) (sid : Nat) (x : Session) : (setSession s sid x).stook = s.stook := rfl
@[simp] theorem setSession_jobs (s : State) (sid : Nat) (x : Session) : (setSession s sid x).jobs = s.jobs := rfl
@[simp] theorem setSession_admitResult (s : State) (sid : Nat) (x : Session) : (setSession s sid x).admitResult = s.admitResult := rfl
@[simp] theorem setSession_admitSlot (s : State) (sid : Nat) (x : Session) : (setSession s sid x).admitSlot = s.admitSlot := rfl
@[simp] theorem setSession_admitHeld (s : State) (sid : Nat) (x : Session) : (setSession s sid x).admitHeld = s.admitHeld := rfl
@[simp] theorem setSession_links (s : State) (sid : Nat) (x : Session) : (setSession s sid x).links = s.links := rfl
@[simp] theorem setSession_cxl (s : State) (sid : Nat) (x : Session) : (setSession s sid x).cxl = s.cxl := rfl
@[simp] theorem setSession_fns (s : State) (sid : Nat) (x : Session) : (setSession s sid x).fns = s.fns := rfl
@[simp] theorem setSession_counts (s : State) (sid : Nat) (x : Session) : (setSession s sid x).counts = s.counts := rfl
@[simp] theorem setSession_power (s : State) (sid : Nat) (x : Session) : (setSession s sid x).power = s.power := rfl
@[simp] theorem setSession_reli (s : State) (sid : Nat) (x : Session) : (setSession s sid x).reli = s.reli := rfl
@[simp] theorem setSession_sec (s : State) (sid : Nat) (x : Session) : (setSession s sid x).sec = s.sec := rfl
@[simp] theorem setSession_board (s : State) (sid : Nat) (x : Session) : (setSession s sid x).board = s.board := rfl
@[simp] theorem setSession_pending (s : State) (sid : Nat) (x : Session) : (setSession s sid x).pending = s.pending := rfl

/-! ### setStaged -/

@[simp] theorem setStaged_variant (s : State) (sid : Nat) (g : Option (Entry × Nat × List Byte)) : (setStaged s sid g).variant = s.variant := rfl
@[simp] theorem setStaged_clocks (s : State) (sid : Nat) (g : Option (Entry × Nat × List Byte)) : (setStaged s sid g).clocks = s.clocks := rfl
@[simp] theorem setStaged_free (s : State) (sid : Nat) (g : Option (Entry × Nat × List Byte)) : (setStaged s sid g).free = s.free := rfl
@[simp] theorem setStaged_out (s : State) (sid : Nat) (g : Option (Entry × Nat × List Byte)) : (setStaged s sid g).out = s.out := rfl
@[simp] theorem setStaged_granary (s : State) (sid : Nat) (g : Option (Entry × Nat × List Byte)) : (setStaged s sid g).granary = s.granary := rfl
@[simp] theorem setStaged_tillers (s : State) (sid : Nat) (g : Option (Entry × Nat × List Byte)) : (setStaged s sid g).tillers = s.tillers := rfl
@[simp] theorem setStaged_furrows (s : State) (sid : Nat) (g : Option (Entry × Nat × List Byte)) : (setStaged s sid g).furrows = s.furrows := rfl
@[simp] theorem setStaged_furrowQ (s : State) (sid : Nat) (g : Option (Entry × Nat × List Byte)) : (setStaged s sid g).furrowQ = s.furrowQ := rfl
@[simp] theorem setStaged_furrowReplies (s : State) (sid : Nat) (g : Option (Entry × Nat × List Byte)) : (setStaged s sid g).furrowReplies = s.furrowReplies := rfl
@[simp] theorem setStaged_sems (s : State) (sid : Nat) (g : Option (Entry × Nat × List Byte)) : (setStaged s sid g).sems = s.sems := rfl
@[simp] theorem setStaged_signals (s : State) (sid : Nat) (g : Option (Entry × Nat × List Byte)) : (setStaged s sid g).signals = s.signals := rfl
@[simp] theorem setStaged_urgentWait (s : State) (sid : Nat) (g : Option (Entry × Nat × List Byte)) : (setStaged s sid g).urgentWait = s.urgentWait := rfl
@[simp] theorem setStaged_nextSignal (s : State) (sid : Nat) (g : Option (Entry × Nat × List Byte)) : (setStaged s sid g).nextSignal = s.nextSignal := rfl
@[simp] theorem setStaged_granStacks (s : State) (sid : Nat) (g : Option (Entry × Nat × List Byte)) : (setStaged s sid g).granStacks = s.granStacks := rfl
@[simp] theorem setStaged_valid (s : State) (sid : Nat) (g : Option (Entry × Nat × List Byte)) : (setStaged s sid g).valid = s.valid := rfl
@[simp] theorem setStaged_dirty (s : State) (sid : Nat) (g : Option (Entry × Nat × List Byte)) : (setStaged s sid g).dirty = s.dirty := rfl
@[simp] theorem setStaged_bales (s : State) (sid : Nat) (g : Option (Entry × Nat × List Byte)) : (setStaged s sid g).bales = s.bales := rfl
@[simp] theorem setStaged_baleMax (s : State) (sid : Nat) (g : Option (Entry × Nat × List Byte)) : (setStaged s sid g).baleMax = s.baleMax := rfl
@[simp] theorem setStaged_faultWait (s : State) (sid : Nat) (g : Option (Entry × Nat × List Byte)) : (setStaged s sid g).faultWait = s.faultWait := rfl
@[simp] theorem setStaged_sowing (s : State) (sid : Nat) (g : Option (Entry × Nat × List Byte)) : (setStaged s sid g).sowing = s.sowing := rfl
@[simp] theorem setStaged_latches (s : State) (sid : Nat) (g : Option (Entry × Nat × List Byte)) : (setStaged s sid g).latches = s.latches := rfl
@[simp] theorem setStaged_held (s : State) (sid : Nat) (g : Option (Entry × Nat × List Byte)) : (setStaged s sid g).held = s.held := rfl
@[simp] theorem setStaged_heldMax (s : State) (sid : Nat) (g : Option (Entry × Nat × List Byte)) : (setStaged s sid g).heldMax = s.heldMax := rfl
@[simp] theorem setStaged_heldFailed (s : State) (sid : Nat) (g : Option (Entry × Nat × List Byte)) : (setStaged s sid g).heldFailed = s.heldFailed := rfl
@[simp] theorem setStaged_slotWaits (s : State) (sid : Nat) (g : Option (Entry × Nat × List Byte)) : (setStaged s sid g).slotWaits = s.slotWaits := rfl
@[simp] theorem setStaged_longest (s : State) (sid : Nat) (g : Option (Entry × Nat × List Byte)) : (setStaged s sid g).longest = s.longest := rfl
@[simp] theorem setStaged_streamFaults (s : State) (sid : Nat) (g : Option (Entry × Nat × List Byte)) : (setStaged s sid g).streamFaults = s.streamFaults := rfl
@[simp] theorem setStaged_awn (s : State) (sid : Nat) (g : Option (Entry × Nat × List Byte)) : (setStaged s sid g).awn = s.awn := rfl
@[simp] theorem setStaged_rot (s : State) (sid : Nat) (g : Option (Entry × Nat × List Byte)) : (setStaged s sid g).rot = s.rot := rfl
@[simp] theorem setStaged_stook (s : State) (sid : Nat) (g : Option (Entry × Nat × List Byte)) : (setStaged s sid g).stook = s.stook := rfl
@[simp] theorem setStaged_jobs (s : State) (sid : Nat) (g : Option (Entry × Nat × List Byte)) : (setStaged s sid g).jobs = s.jobs := rfl
@[simp] theorem setStaged_admitResult (s : State) (sid : Nat) (g : Option (Entry × Nat × List Byte)) : (setStaged s sid g).admitResult = s.admitResult := rfl
@[simp] theorem setStaged_admitSlot (s : State) (sid : Nat) (g : Option (Entry × Nat × List Byte)) : (setStaged s sid g).admitSlot = s.admitSlot := rfl
@[simp] theorem setStaged_admitHeld (s : State) (sid : Nat) (g : Option (Entry × Nat × List Byte)) : (setStaged s sid g).admitHeld = s.admitHeld := rfl
@[simp] theorem setStaged_links (s : State) (sid : Nat) (g : Option (Entry × Nat × List Byte)) : (setStaged s sid g).links = s.links := rfl
@[simp] theorem setStaged_cxl (s : State) (sid : Nat) (g : Option (Entry × Nat × List Byte)) : (setStaged s sid g).cxl = s.cxl := rfl
@[simp] theorem setStaged_fns (s : State) (sid : Nat) (g : Option (Entry × Nat × List Byte)) : (setStaged s sid g).fns = s.fns := rfl
@[simp] theorem setStaged_counts (s : State) (sid : Nat) (g : Option (Entry × Nat × List Byte)) : (setStaged s sid g).counts = s.counts := rfl
@[simp] theorem setStaged_power (s : State) (sid : Nat) (g : Option (Entry × Nat × List Byte)) : (setStaged s sid g).power = s.power := rfl
@[simp] theorem setStaged_reli (s : State) (sid : Nat) (g : Option (Entry × Nat × List Byte)) : (setStaged s sid g).reli = s.reli := rfl
@[simp] theorem setStaged_sec (s : State) (sid : Nat) (g : Option (Entry × Nat × List Byte)) : (setStaged s sid g).sec = s.sec := rfl
@[simp] theorem setStaged_board (s : State) (sid : Nat) (g : Option (Entry × Nat × List Byte)) : (setStaged s sid g).board = s.board := rfl
@[simp] theorem setStaged_pending (s : State) (sid : Nat) (g : Option (Entry × Nat × List Byte)) : (setStaged s sid g).pending = s.pending := rfl

/-! ### setConn -/

@[simp] theorem setConn_variant (s : State) (tr : SpdmTransport) (c : SpdmConn) : (setConn s tr c).variant = s.variant := rfl
@[simp] theorem setConn_clocks (s : State) (tr : SpdmTransport) (c : SpdmConn) : (setConn s tr c).clocks = s.clocks := rfl
@[simp] theorem setConn_free (s : State) (tr : SpdmTransport) (c : SpdmConn) : (setConn s tr c).free = s.free := rfl
@[simp] theorem setConn_out (s : State) (tr : SpdmTransport) (c : SpdmConn) : (setConn s tr c).out = s.out := rfl
@[simp] theorem setConn_granary (s : State) (tr : SpdmTransport) (c : SpdmConn) : (setConn s tr c).granary = s.granary := rfl
@[simp] theorem setConn_tillers (s : State) (tr : SpdmTransport) (c : SpdmConn) : (setConn s tr c).tillers = s.tillers := rfl
@[simp] theorem setConn_furrows (s : State) (tr : SpdmTransport) (c : SpdmConn) : (setConn s tr c).furrows = s.furrows := rfl
@[simp] theorem setConn_furrowQ (s : State) (tr : SpdmTransport) (c : SpdmConn) : (setConn s tr c).furrowQ = s.furrowQ := rfl
@[simp] theorem setConn_furrowReplies (s : State) (tr : SpdmTransport) (c : SpdmConn) : (setConn s tr c).furrowReplies = s.furrowReplies := rfl
@[simp] theorem setConn_sems (s : State) (tr : SpdmTransport) (c : SpdmConn) : (setConn s tr c).sems = s.sems := rfl
@[simp] theorem setConn_signals (s : State) (tr : SpdmTransport) (c : SpdmConn) : (setConn s tr c).signals = s.signals := rfl
@[simp] theorem setConn_urgentWait (s : State) (tr : SpdmTransport) (c : SpdmConn) : (setConn s tr c).urgentWait = s.urgentWait := rfl
@[simp] theorem setConn_nextSignal (s : State) (tr : SpdmTransport) (c : SpdmConn) : (setConn s tr c).nextSignal = s.nextSignal := rfl
@[simp] theorem setConn_granStacks (s : State) (tr : SpdmTransport) (c : SpdmConn) : (setConn s tr c).granStacks = s.granStacks := rfl
@[simp] theorem setConn_valid (s : State) (tr : SpdmTransport) (c : SpdmConn) : (setConn s tr c).valid = s.valid := rfl
@[simp] theorem setConn_dirty (s : State) (tr : SpdmTransport) (c : SpdmConn) : (setConn s tr c).dirty = s.dirty := rfl
@[simp] theorem setConn_bales (s : State) (tr : SpdmTransport) (c : SpdmConn) : (setConn s tr c).bales = s.bales := rfl
@[simp] theorem setConn_baleMax (s : State) (tr : SpdmTransport) (c : SpdmConn) : (setConn s tr c).baleMax = s.baleMax := rfl
@[simp] theorem setConn_faultWait (s : State) (tr : SpdmTransport) (c : SpdmConn) : (setConn s tr c).faultWait = s.faultWait := rfl
@[simp] theorem setConn_sowing (s : State) (tr : SpdmTransport) (c : SpdmConn) : (setConn s tr c).sowing = s.sowing := rfl
@[simp] theorem setConn_latches (s : State) (tr : SpdmTransport) (c : SpdmConn) : (setConn s tr c).latches = s.latches := rfl
@[simp] theorem setConn_held (s : State) (tr : SpdmTransport) (c : SpdmConn) : (setConn s tr c).held = s.held := rfl
@[simp] theorem setConn_heldMax (s : State) (tr : SpdmTransport) (c : SpdmConn) : (setConn s tr c).heldMax = s.heldMax := rfl
@[simp] theorem setConn_heldFailed (s : State) (tr : SpdmTransport) (c : SpdmConn) : (setConn s tr c).heldFailed = s.heldFailed := rfl
@[simp] theorem setConn_slotWaits (s : State) (tr : SpdmTransport) (c : SpdmConn) : (setConn s tr c).slotWaits = s.slotWaits := rfl
@[simp] theorem setConn_longest (s : State) (tr : SpdmTransport) (c : SpdmConn) : (setConn s tr c).longest = s.longest := rfl
@[simp] theorem setConn_streamFaults (s : State) (tr : SpdmTransport) (c : SpdmConn) : (setConn s tr c).streamFaults = s.streamFaults := rfl
@[simp] theorem setConn_awn (s : State) (tr : SpdmTransport) (c : SpdmConn) : (setConn s tr c).awn = s.awn := rfl
@[simp] theorem setConn_rot (s : State) (tr : SpdmTransport) (c : SpdmConn) : (setConn s tr c).rot = s.rot := rfl
@[simp] theorem setConn_stook (s : State) (tr : SpdmTransport) (c : SpdmConn) : (setConn s tr c).stook = s.stook := rfl
@[simp] theorem setConn_jobs (s : State) (tr : SpdmTransport) (c : SpdmConn) : (setConn s tr c).jobs = s.jobs := rfl
@[simp] theorem setConn_admitResult (s : State) (tr : SpdmTransport) (c : SpdmConn) : (setConn s tr c).admitResult = s.admitResult := rfl
@[simp] theorem setConn_admitSlot (s : State) (tr : SpdmTransport) (c : SpdmConn) : (setConn s tr c).admitSlot = s.admitSlot := rfl
@[simp] theorem setConn_admitHeld (s : State) (tr : SpdmTransport) (c : SpdmConn) : (setConn s tr c).admitHeld = s.admitHeld := rfl
@[simp] theorem setConn_links (s : State) (tr : SpdmTransport) (c : SpdmConn) : (setConn s tr c).links = s.links := rfl
@[simp] theorem setConn_cxl (s : State) (tr : SpdmTransport) (c : SpdmConn) : (setConn s tr c).cxl = s.cxl := rfl
@[simp] theorem setConn_dict (s : State) (tr : SpdmTransport) (c : SpdmConn) : (setConn s tr c).dict = s.dict := rfl
@[simp] theorem setConn_fns (s : State) (tr : SpdmTransport) (c : SpdmConn) : (setConn s tr c).fns = s.fns := rfl
@[simp] theorem setConn_counts (s : State) (tr : SpdmTransport) (c : SpdmConn) : (setConn s tr c).counts = s.counts := rfl
@[simp] theorem setConn_power (s : State) (tr : SpdmTransport) (c : SpdmConn) : (setConn s tr c).power = s.power := rfl
@[simp] theorem setConn_reli (s : State) (tr : SpdmTransport) (c : SpdmConn) : (setConn s tr c).reli = s.reli := rfl
@[simp] theorem setConn_board (s : State) (tr : SpdmTransport) (c : SpdmConn) : (setConn s tr c).board = s.board := rfl
@[simp] theorem setConn_pending (s : State) (tr : SpdmTransport) (c : SpdmConn) : (setConn s tr c).pending = s.pending := rfl

/-! ### setActivation -/

@[simp] theorem setActivation_variant (s : State) (n : Nat) : (setActivation s n).variant = s.variant := rfl
@[simp] theorem setActivation_clocks (s : State) (n : Nat) : (setActivation s n).clocks = s.clocks := rfl
@[simp] theorem setActivation_free (s : State) (n : Nat) : (setActivation s n).free = s.free := rfl
@[simp] theorem setActivation_out (s : State) (n : Nat) : (setActivation s n).out = s.out := rfl
@[simp] theorem setActivation_granary (s : State) (n : Nat) : (setActivation s n).granary = s.granary := rfl
@[simp] theorem setActivation_tillers (s : State) (n : Nat) : (setActivation s n).tillers = s.tillers := rfl
@[simp] theorem setActivation_furrows (s : State) (n : Nat) : (setActivation s n).furrows = s.furrows := rfl
@[simp] theorem setActivation_furrowQ (s : State) (n : Nat) : (setActivation s n).furrowQ = s.furrowQ := rfl
@[simp] theorem setActivation_furrowReplies (s : State) (n : Nat) : (setActivation s n).furrowReplies = s.furrowReplies := rfl
@[simp] theorem setActivation_sems (s : State) (n : Nat) : (setActivation s n).sems = s.sems := rfl
@[simp] theorem setActivation_signals (s : State) (n : Nat) : (setActivation s n).signals = s.signals := rfl
@[simp] theorem setActivation_urgentWait (s : State) (n : Nat) : (setActivation s n).urgentWait = s.urgentWait := rfl
@[simp] theorem setActivation_nextSignal (s : State) (n : Nat) : (setActivation s n).nextSignal = s.nextSignal := rfl
@[simp] theorem setActivation_granStacks (s : State) (n : Nat) : (setActivation s n).granStacks = s.granStacks := rfl
@[simp] theorem setActivation_valid (s : State) (n : Nat) : (setActivation s n).valid = s.valid := rfl
@[simp] theorem setActivation_dirty (s : State) (n : Nat) : (setActivation s n).dirty = s.dirty := rfl
@[simp] theorem setActivation_bales (s : State) (n : Nat) : (setActivation s n).bales = s.bales := rfl
@[simp] theorem setActivation_baleMax (s : State) (n : Nat) : (setActivation s n).baleMax = s.baleMax := rfl
@[simp] theorem setActivation_faultWait (s : State) (n : Nat) : (setActivation s n).faultWait = s.faultWait := rfl
@[simp] theorem setActivation_sowing (s : State) (n : Nat) : (setActivation s n).sowing = s.sowing := rfl
@[simp] theorem setActivation_latches (s : State) (n : Nat) : (setActivation s n).latches = s.latches := rfl
@[simp] theorem setActivation_held (s : State) (n : Nat) : (setActivation s n).held = s.held := rfl
@[simp] theorem setActivation_heldMax (s : State) (n : Nat) : (setActivation s n).heldMax = s.heldMax := rfl
@[simp] theorem setActivation_heldFailed (s : State) (n : Nat) : (setActivation s n).heldFailed = s.heldFailed := rfl
@[simp] theorem setActivation_slotWaits (s : State) (n : Nat) : (setActivation s n).slotWaits = s.slotWaits := rfl
@[simp] theorem setActivation_longest (s : State) (n : Nat) : (setActivation s n).longest = s.longest := rfl
@[simp] theorem setActivation_streamFaults (s : State) (n : Nat) : (setActivation s n).streamFaults = s.streamFaults := rfl
@[simp] theorem setActivation_awn (s : State) (n : Nat) : (setActivation s n).awn = s.awn := rfl
@[simp] theorem setActivation_rot (s : State) (n : Nat) : (setActivation s n).rot = s.rot := rfl
@[simp] theorem setActivation_stook (s : State) (n : Nat) : (setActivation s n).stook = s.stook := rfl
@[simp] theorem setActivation_jobs (s : State) (n : Nat) : (setActivation s n).jobs = s.jobs := rfl
@[simp] theorem setActivation_admitResult (s : State) (n : Nat) : (setActivation s n).admitResult = s.admitResult := rfl
@[simp] theorem setActivation_admitSlot (s : State) (n : Nat) : (setActivation s n).admitSlot = s.admitSlot := rfl
@[simp] theorem setActivation_admitHeld (s : State) (n : Nat) : (setActivation s n).admitHeld = s.admitHeld := rfl
@[simp] theorem setActivation_links (s : State) (n : Nat) : (setActivation s n).links = s.links := rfl
@[simp] theorem setActivation_cxl (s : State) (n : Nat) : (setActivation s n).cxl = s.cxl := rfl
@[simp] theorem setActivation_dict (s : State) (n : Nat) : (setActivation s n).dict = s.dict := rfl
@[simp] theorem setActivation_fns (s : State) (n : Nat) : (setActivation s n).fns = s.fns := rfl
@[simp] theorem setActivation_counts (s : State) (n : Nat) : (setActivation s n).counts = s.counts := rfl
@[simp] theorem setActivation_power (s : State) (n : Nat) : (setActivation s n).power = s.power := rfl
@[simp] theorem setActivation_sec (s : State) (n : Nat) : (setActivation s n).sec = s.sec := rfl
@[simp] theorem setActivation_board (s : State) (n : Nat) : (setActivation s n).board = s.board := rfl
@[simp] theorem setActivation_pending (s : State) (n : Nat) : (setActivation s n).pending = s.pending := rfl

/-! ### setChangeover -/

@[simp] theorem setChangeover_variant (s : State) (b : Bool) : (setChangeover s b).variant = s.variant := rfl
@[simp] theorem setChangeover_clocks (s : State) (b : Bool) : (setChangeover s b).clocks = s.clocks := rfl
@[simp] theorem setChangeover_free (s : State) (b : Bool) : (setChangeover s b).free = s.free := rfl
@[simp] theorem setChangeover_out (s : State) (b : Bool) : (setChangeover s b).out = s.out := rfl
@[simp] theorem setChangeover_granary (s : State) (b : Bool) : (setChangeover s b).granary = s.granary := rfl
@[simp] theorem setChangeover_tillers (s : State) (b : Bool) : (setChangeover s b).tillers = s.tillers := rfl
@[simp] theorem setChangeover_furrows (s : State) (b : Bool) : (setChangeover s b).furrows = s.furrows := rfl
@[simp] theorem setChangeover_furrowQ (s : State) (b : Bool) : (setChangeover s b).furrowQ = s.furrowQ := rfl
@[simp] theorem setChangeover_furrowReplies (s : State) (b : Bool) : (setChangeover s b).furrowReplies = s.furrowReplies := rfl
@[simp] theorem setChangeover_sems (s : State) (b : Bool) : (setChangeover s b).sems = s.sems := rfl
@[simp] theorem setChangeover_signals (s : State) (b : Bool) : (setChangeover s b).signals = s.signals := rfl
@[simp] theorem setChangeover_urgentWait (s : State) (b : Bool) : (setChangeover s b).urgentWait = s.urgentWait := rfl
@[simp] theorem setChangeover_nextSignal (s : State) (b : Bool) : (setChangeover s b).nextSignal = s.nextSignal := rfl
@[simp] theorem setChangeover_granStacks (s : State) (b : Bool) : (setChangeover s b).granStacks = s.granStacks := rfl
@[simp] theorem setChangeover_valid (s : State) (b : Bool) : (setChangeover s b).valid = s.valid := rfl
@[simp] theorem setChangeover_dirty (s : State) (b : Bool) : (setChangeover s b).dirty = s.dirty := rfl
@[simp] theorem setChangeover_bales (s : State) (b : Bool) : (setChangeover s b).bales = s.bales := rfl
@[simp] theorem setChangeover_baleMax (s : State) (b : Bool) : (setChangeover s b).baleMax = s.baleMax := rfl
@[simp] theorem setChangeover_faultWait (s : State) (b : Bool) : (setChangeover s b).faultWait = s.faultWait := rfl
@[simp] theorem setChangeover_sowing (s : State) (b : Bool) : (setChangeover s b).sowing = s.sowing := rfl
@[simp] theorem setChangeover_latches (s : State) (b : Bool) : (setChangeover s b).latches = s.latches := rfl
@[simp] theorem setChangeover_held (s : State) (b : Bool) : (setChangeover s b).held = s.held := rfl
@[simp] theorem setChangeover_heldMax (s : State) (b : Bool) : (setChangeover s b).heldMax = s.heldMax := rfl
@[simp] theorem setChangeover_heldFailed (s : State) (b : Bool) : (setChangeover s b).heldFailed = s.heldFailed := rfl
@[simp] theorem setChangeover_slotWaits (s : State) (b : Bool) : (setChangeover s b).slotWaits = s.slotWaits := rfl
@[simp] theorem setChangeover_longest (s : State) (b : Bool) : (setChangeover s b).longest = s.longest := rfl
@[simp] theorem setChangeover_streamFaults (s : State) (b : Bool) : (setChangeover s b).streamFaults = s.streamFaults := rfl
@[simp] theorem setChangeover_awn (s : State) (b : Bool) : (setChangeover s b).awn = s.awn := rfl
@[simp] theorem setChangeover_rot (s : State) (b : Bool) : (setChangeover s b).rot = s.rot := rfl
@[simp] theorem setChangeover_stook (s : State) (b : Bool) : (setChangeover s b).stook = s.stook := rfl
@[simp] theorem setChangeover_jobs (s : State) (b : Bool) : (setChangeover s b).jobs = s.jobs := rfl
@[simp] theorem setChangeover_admitResult (s : State) (b : Bool) : (setChangeover s b).admitResult = s.admitResult := rfl
@[simp] theorem setChangeover_admitSlot (s : State) (b : Bool) : (setChangeover s b).admitSlot = s.admitSlot := rfl
@[simp] theorem setChangeover_admitHeld (s : State) (b : Bool) : (setChangeover s b).admitHeld = s.admitHeld := rfl
@[simp] theorem setChangeover_links (s : State) (b : Bool) : (setChangeover s b).links = s.links := rfl
@[simp] theorem setChangeover_cxl (s : State) (b : Bool) : (setChangeover s b).cxl = s.cxl := rfl
@[simp] theorem setChangeover_fns (s : State) (b : Bool) : (setChangeover s b).fns = s.fns := rfl
@[simp] theorem setChangeover_counts (s : State) (b : Bool) : (setChangeover s b).counts = s.counts := rfl
@[simp] theorem setChangeover_power (s : State) (b : Bool) : (setChangeover s b).power = s.power := rfl
@[simp] theorem setChangeover_reli (s : State) (b : Bool) : (setChangeover s b).reli = s.reli := rfl
@[simp] theorem setChangeover_sec (s : State) (b : Bool) : (setChangeover s b).sec = s.sec := rfl
@[simp] theorem setChangeover_board (s : State) (b : Bool) : (setChangeover s b).board = s.board := rfl
@[simp] theorem setChangeover_pending (s : State) (b : Bool) : (setChangeover s b).pending = s.pending := rfl

/-! ### setStep -/

@[simp] theorem setStep_variant (s : State) (n : Nat) : (setStep s n).variant = s.variant := rfl
@[simp] theorem setStep_clocks (s : State) (n : Nat) : (setStep s n).clocks = s.clocks := rfl
@[simp] theorem setStep_free (s : State) (n : Nat) : (setStep s n).free = s.free := rfl
@[simp] theorem setStep_out (s : State) (n : Nat) : (setStep s n).out = s.out := rfl
@[simp] theorem setStep_granary (s : State) (n : Nat) : (setStep s n).granary = s.granary := rfl
@[simp] theorem setStep_tillers (s : State) (n : Nat) : (setStep s n).tillers = s.tillers := rfl
@[simp] theorem setStep_furrows (s : State) (n : Nat) : (setStep s n).furrows = s.furrows := rfl
@[simp] theorem setStep_furrowQ (s : State) (n : Nat) : (setStep s n).furrowQ = s.furrowQ := rfl
@[simp] theorem setStep_furrowReplies (s : State) (n : Nat) : (setStep s n).furrowReplies = s.furrowReplies := rfl
@[simp] theorem setStep_sems (s : State) (n : Nat) : (setStep s n).sems = s.sems := rfl
@[simp] theorem setStep_signals (s : State) (n : Nat) : (setStep s n).signals = s.signals := rfl
@[simp] theorem setStep_urgentWait (s : State) (n : Nat) : (setStep s n).urgentWait = s.urgentWait := rfl
@[simp] theorem setStep_nextSignal (s : State) (n : Nat) : (setStep s n).nextSignal = s.nextSignal := rfl
@[simp] theorem setStep_granStacks (s : State) (n : Nat) : (setStep s n).granStacks = s.granStacks := rfl
@[simp] theorem setStep_valid (s : State) (n : Nat) : (setStep s n).valid = s.valid := rfl
@[simp] theorem setStep_dirty (s : State) (n : Nat) : (setStep s n).dirty = s.dirty := rfl
@[simp] theorem setStep_bales (s : State) (n : Nat) : (setStep s n).bales = s.bales := rfl
@[simp] theorem setStep_baleMax (s : State) (n : Nat) : (setStep s n).baleMax = s.baleMax := rfl
@[simp] theorem setStep_faultWait (s : State) (n : Nat) : (setStep s n).faultWait = s.faultWait := rfl
@[simp] theorem setStep_sowing (s : State) (n : Nat) : (setStep s n).sowing = s.sowing := rfl
@[simp] theorem setStep_latches (s : State) (n : Nat) : (setStep s n).latches = s.latches := rfl
@[simp] theorem setStep_held (s : State) (n : Nat) : (setStep s n).held = s.held := rfl
@[simp] theorem setStep_heldMax (s : State) (n : Nat) : (setStep s n).heldMax = s.heldMax := rfl
@[simp] theorem setStep_heldFailed (s : State) (n : Nat) : (setStep s n).heldFailed = s.heldFailed := rfl
@[simp] theorem setStep_slotWaits (s : State) (n : Nat) : (setStep s n).slotWaits = s.slotWaits := rfl
@[simp] theorem setStep_longest (s : State) (n : Nat) : (setStep s n).longest = s.longest := rfl
@[simp] theorem setStep_streamFaults (s : State) (n : Nat) : (setStep s n).streamFaults = s.streamFaults := rfl
@[simp] theorem setStep_awn (s : State) (n : Nat) : (setStep s n).awn = s.awn := rfl
@[simp] theorem setStep_rot (s : State) (n : Nat) : (setStep s n).rot = s.rot := rfl
@[simp] theorem setStep_stook (s : State) (n : Nat) : (setStep s n).stook = s.stook := rfl
@[simp] theorem setStep_jobs (s : State) (n : Nat) : (setStep s n).jobs = s.jobs := rfl
@[simp] theorem setStep_admitResult (s : State) (n : Nat) : (setStep s n).admitResult = s.admitResult := rfl
@[simp] theorem setStep_admitSlot (s : State) (n : Nat) : (setStep s n).admitSlot = s.admitSlot := rfl
@[simp] theorem setStep_admitHeld (s : State) (n : Nat) : (setStep s n).admitHeld = s.admitHeld := rfl
@[simp] theorem setStep_links (s : State) (n : Nat) : (setStep s n).links = s.links := rfl
@[simp] theorem setStep_cxl (s : State) (n : Nat) : (setStep s n).cxl = s.cxl := rfl
@[simp] theorem setStep_dict (s : State) (n : Nat) : (setStep s n).dict = s.dict := rfl
@[simp] theorem setStep_fns (s : State) (n : Nat) : (setStep s n).fns = s.fns := rfl
@[simp] theorem setStep_counts (s : State) (n : Nat) : (setStep s n).counts = s.counts := rfl
@[simp] theorem setStep_power (s : State) (n : Nat) : (setStep s n).power = s.power := rfl
@[simp] theorem setStep_reli (s : State) (n : Nat) : (setStep s n).reli = s.reli := rfl
@[simp] theorem setStep_sec (s : State) (n : Nat) : (setStep s n).sec = s.sec := rfl
@[simp] theorem setStep_pending (s : State) (n : Nat) : (setStep s n).pending = s.pending := rfl

/-! ### setTrans -/

@[simp] theorem setTrans_variant (s : State) (x y : Trans) : (setTrans s x y).variant = s.variant := rfl
@[simp] theorem setTrans_clocks (s : State) (x y : Trans) : (setTrans s x y).clocks = s.clocks := rfl
@[simp] theorem setTrans_free (s : State) (x y : Trans) : (setTrans s x y).free = s.free := rfl
@[simp] theorem setTrans_out (s : State) (x y : Trans) : (setTrans s x y).out = s.out := rfl
@[simp] theorem setTrans_granary (s : State) (x y : Trans) : (setTrans s x y).granary = s.granary := rfl
@[simp] theorem setTrans_tillers (s : State) (x y : Trans) : (setTrans s x y).tillers = s.tillers := rfl
@[simp] theorem setTrans_furrows (s : State) (x y : Trans) : (setTrans s x y).furrows = s.furrows := rfl
@[simp] theorem setTrans_furrowQ (s : State) (x y : Trans) : (setTrans s x y).furrowQ = s.furrowQ := rfl
@[simp] theorem setTrans_furrowReplies (s : State) (x y : Trans) : (setTrans s x y).furrowReplies = s.furrowReplies := rfl
@[simp] theorem setTrans_sems (s : State) (x y : Trans) : (setTrans s x y).sems = s.sems := rfl
@[simp] theorem setTrans_signals (s : State) (x y : Trans) : (setTrans s x y).signals = s.signals := rfl
@[simp] theorem setTrans_urgentWait (s : State) (x y : Trans) : (setTrans s x y).urgentWait = s.urgentWait := rfl
@[simp] theorem setTrans_nextSignal (s : State) (x y : Trans) : (setTrans s x y).nextSignal = s.nextSignal := rfl
@[simp] theorem setTrans_granStacks (s : State) (x y : Trans) : (setTrans s x y).granStacks = s.granStacks := rfl
@[simp] theorem setTrans_valid (s : State) (x y : Trans) : (setTrans s x y).valid = s.valid := rfl
@[simp] theorem setTrans_dirty (s : State) (x y : Trans) : (setTrans s x y).dirty = s.dirty := rfl
@[simp] theorem setTrans_bales (s : State) (x y : Trans) : (setTrans s x y).bales = s.bales := rfl
@[simp] theorem setTrans_baleMax (s : State) (x y : Trans) : (setTrans s x y).baleMax = s.baleMax := rfl
@[simp] theorem setTrans_faultWait (s : State) (x y : Trans) : (setTrans s x y).faultWait = s.faultWait := rfl
@[simp] theorem setTrans_sowing (s : State) (x y : Trans) : (setTrans s x y).sowing = s.sowing := rfl
@[simp] theorem setTrans_latches (s : State) (x y : Trans) : (setTrans s x y).latches = s.latches := rfl
@[simp] theorem setTrans_held (s : State) (x y : Trans) : (setTrans s x y).held = s.held := rfl
@[simp] theorem setTrans_heldMax (s : State) (x y : Trans) : (setTrans s x y).heldMax = s.heldMax := rfl
@[simp] theorem setTrans_heldFailed (s : State) (x y : Trans) : (setTrans s x y).heldFailed = s.heldFailed := rfl
@[simp] theorem setTrans_slotWaits (s : State) (x y : Trans) : (setTrans s x y).slotWaits = s.slotWaits := rfl
@[simp] theorem setTrans_longest (s : State) (x y : Trans) : (setTrans s x y).longest = s.longest := rfl
@[simp] theorem setTrans_streamFaults (s : State) (x y : Trans) : (setTrans s x y).streamFaults = s.streamFaults := rfl
@[simp] theorem setTrans_awn (s : State) (x y : Trans) : (setTrans s x y).awn = s.awn := rfl
@[simp] theorem setTrans_rot (s : State) (x y : Trans) : (setTrans s x y).rot = s.rot := rfl
@[simp] theorem setTrans_stook (s : State) (x y : Trans) : (setTrans s x y).stook = s.stook := rfl
@[simp] theorem setTrans_jobs (s : State) (x y : Trans) : (setTrans s x y).jobs = s.jobs := rfl
@[simp] theorem setTrans_admitResult (s : State) (x y : Trans) : (setTrans s x y).admitResult = s.admitResult := rfl
@[simp] theorem setTrans_admitSlot (s : State) (x y : Trans) : (setTrans s x y).admitSlot = s.admitSlot := rfl
@[simp] theorem setTrans_admitHeld (s : State) (x y : Trans) : (setTrans s x y).admitHeld = s.admitHeld := rfl
@[simp] theorem setTrans_cxl (s : State) (x y : Trans) : (setTrans s x y).cxl = s.cxl := rfl
@[simp] theorem setTrans_dict (s : State) (x y : Trans) : (setTrans s x y).dict = s.dict := rfl
@[simp] theorem setTrans_fns (s : State) (x y : Trans) : (setTrans s x y).fns = s.fns := rfl
@[simp] theorem setTrans_counts (s : State) (x y : Trans) : (setTrans s x y).counts = s.counts := rfl
@[simp] theorem setTrans_power (s : State) (x y : Trans) : (setTrans s x y).power = s.power := rfl
@[simp] theorem setTrans_reli (s : State) (x y : Trans) : (setTrans s x y).reli = s.reli := rfl
@[simp] theorem setTrans_sec (s : State) (x y : Trans) : (setTrans s x y).sec = s.sec := rfl
@[simp] theorem setTrans_board (s : State) (x y : Trans) : (setTrans s x y).board = s.board := rfl
@[simp] theorem setTrans_pending (s : State) (x y : Trans) : (setTrans s x y).pending = s.pending := rfl

/-! ### noteLimit -/

@[simp] theorem noteLimit_variant (s : State) (p : Nat) (owner : TransOwner) (dst : Nat) (on : Bool) : (noteLimit s p owner dst on).variant = s.variant := rfl
@[simp] theorem noteLimit_clocks (s : State) (p : Nat) (owner : TransOwner) (dst : Nat) (on : Bool) : (noteLimit s p owner dst on).clocks = s.clocks := rfl
@[simp] theorem noteLimit_free (s : State) (p : Nat) (owner : TransOwner) (dst : Nat) (on : Bool) : (noteLimit s p owner dst on).free = s.free := rfl
@[simp] theorem noteLimit_out (s : State) (p : Nat) (owner : TransOwner) (dst : Nat) (on : Bool) : (noteLimit s p owner dst on).out = s.out := rfl
@[simp] theorem noteLimit_granary (s : State) (p : Nat) (owner : TransOwner) (dst : Nat) (on : Bool) : (noteLimit s p owner dst on).granary = s.granary := rfl
@[simp] theorem noteLimit_tillers (s : State) (p : Nat) (owner : TransOwner) (dst : Nat) (on : Bool) : (noteLimit s p owner dst on).tillers = s.tillers := rfl
@[simp] theorem noteLimit_furrows (s : State) (p : Nat) (owner : TransOwner) (dst : Nat) (on : Bool) : (noteLimit s p owner dst on).furrows = s.furrows := rfl
@[simp] theorem noteLimit_furrowQ (s : State) (p : Nat) (owner : TransOwner) (dst : Nat) (on : Bool) : (noteLimit s p owner dst on).furrowQ = s.furrowQ := rfl
@[simp] theorem noteLimit_furrowReplies (s : State) (p : Nat) (owner : TransOwner) (dst : Nat) (on : Bool) : (noteLimit s p owner dst on).furrowReplies = s.furrowReplies := rfl
@[simp] theorem noteLimit_sems (s : State) (p : Nat) (owner : TransOwner) (dst : Nat) (on : Bool) : (noteLimit s p owner dst on).sems = s.sems := rfl
@[simp] theorem noteLimit_signals (s : State) (p : Nat) (owner : TransOwner) (dst : Nat) (on : Bool) : (noteLimit s p owner dst on).signals = s.signals := rfl
@[simp] theorem noteLimit_urgentWait (s : State) (p : Nat) (owner : TransOwner) (dst : Nat) (on : Bool) : (noteLimit s p owner dst on).urgentWait = s.urgentWait := rfl
@[simp] theorem noteLimit_nextSignal (s : State) (p : Nat) (owner : TransOwner) (dst : Nat) (on : Bool) : (noteLimit s p owner dst on).nextSignal = s.nextSignal := rfl
@[simp] theorem noteLimit_granStacks (s : State) (p : Nat) (owner : TransOwner) (dst : Nat) (on : Bool) : (noteLimit s p owner dst on).granStacks = s.granStacks := rfl
@[simp] theorem noteLimit_valid (s : State) (p : Nat) (owner : TransOwner) (dst : Nat) (on : Bool) : (noteLimit s p owner dst on).valid = s.valid := rfl
@[simp] theorem noteLimit_dirty (s : State) (p : Nat) (owner : TransOwner) (dst : Nat) (on : Bool) : (noteLimit s p owner dst on).dirty = s.dirty := rfl
@[simp] theorem noteLimit_bales (s : State) (p : Nat) (owner : TransOwner) (dst : Nat) (on : Bool) : (noteLimit s p owner dst on).bales = s.bales := rfl
@[simp] theorem noteLimit_baleMax (s : State) (p : Nat) (owner : TransOwner) (dst : Nat) (on : Bool) : (noteLimit s p owner dst on).baleMax = s.baleMax := rfl
@[simp] theorem noteLimit_faultWait (s : State) (p : Nat) (owner : TransOwner) (dst : Nat) (on : Bool) : (noteLimit s p owner dst on).faultWait = s.faultWait := rfl
@[simp] theorem noteLimit_sowing (s : State) (p : Nat) (owner : TransOwner) (dst : Nat) (on : Bool) : (noteLimit s p owner dst on).sowing = s.sowing := rfl
@[simp] theorem noteLimit_latches (s : State) (p : Nat) (owner : TransOwner) (dst : Nat) (on : Bool) : (noteLimit s p owner dst on).latches = s.latches := rfl
@[simp] theorem noteLimit_held (s : State) (p : Nat) (owner : TransOwner) (dst : Nat) (on : Bool) : (noteLimit s p owner dst on).held = s.held := rfl
@[simp] theorem noteLimit_heldMax (s : State) (p : Nat) (owner : TransOwner) (dst : Nat) (on : Bool) : (noteLimit s p owner dst on).heldMax = s.heldMax := rfl
@[simp] theorem noteLimit_heldFailed (s : State) (p : Nat) (owner : TransOwner) (dst : Nat) (on : Bool) : (noteLimit s p owner dst on).heldFailed = s.heldFailed := rfl
@[simp] theorem noteLimit_slotWaits (s : State) (p : Nat) (owner : TransOwner) (dst : Nat) (on : Bool) : (noteLimit s p owner dst on).slotWaits = s.slotWaits := rfl
@[simp] theorem noteLimit_longest (s : State) (p : Nat) (owner : TransOwner) (dst : Nat) (on : Bool) : (noteLimit s p owner dst on).longest = s.longest := rfl
@[simp] theorem noteLimit_streamFaults (s : State) (p : Nat) (owner : TransOwner) (dst : Nat) (on : Bool) : (noteLimit s p owner dst on).streamFaults = s.streamFaults := rfl
@[simp] theorem noteLimit_awn (s : State) (p : Nat) (owner : TransOwner) (dst : Nat) (on : Bool) : (noteLimit s p owner dst on).awn = s.awn := rfl
@[simp] theorem noteLimit_rot (s : State) (p : Nat) (owner : TransOwner) (dst : Nat) (on : Bool) : (noteLimit s p owner dst on).rot = s.rot := rfl
@[simp] theorem noteLimit_stook (s : State) (p : Nat) (owner : TransOwner) (dst : Nat) (on : Bool) : (noteLimit s p owner dst on).stook = s.stook := rfl
@[simp] theorem noteLimit_jobs (s : State) (p : Nat) (owner : TransOwner) (dst : Nat) (on : Bool) : (noteLimit s p owner dst on).jobs = s.jobs := rfl
@[simp] theorem noteLimit_admitResult (s : State) (p : Nat) (owner : TransOwner) (dst : Nat) (on : Bool) : (noteLimit s p owner dst on).admitResult = s.admitResult := rfl
@[simp] theorem noteLimit_admitSlot (s : State) (p : Nat) (owner : TransOwner) (dst : Nat) (on : Bool) : (noteLimit s p owner dst on).admitSlot = s.admitSlot := rfl
@[simp] theorem noteLimit_admitHeld (s : State) (p : Nat) (owner : TransOwner) (dst : Nat) (on : Bool) : (noteLimit s p owner dst on).admitHeld = s.admitHeld := rfl
@[simp] theorem noteLimit_cxl (s : State) (p : Nat) (owner : TransOwner) (dst : Nat) (on : Bool) : (noteLimit s p owner dst on).cxl = s.cxl := rfl
@[simp] theorem noteLimit_dict (s : State) (p : Nat) (owner : TransOwner) (dst : Nat) (on : Bool) : (noteLimit s p owner dst on).dict = s.dict := rfl
@[simp] theorem noteLimit_fns (s : State) (p : Nat) (owner : TransOwner) (dst : Nat) (on : Bool) : (noteLimit s p owner dst on).fns = s.fns := rfl
@[simp] theorem noteLimit_counts (s : State) (p : Nat) (owner : TransOwner) (dst : Nat) (on : Bool) : (noteLimit s p owner dst on).counts = s.counts := rfl
@[simp] theorem noteLimit_power (s : State) (p : Nat) (owner : TransOwner) (dst : Nat) (on : Bool) : (noteLimit s p owner dst on).power = s.power := rfl
@[simp] theorem noteLimit_reli (s : State) (p : Nat) (owner : TransOwner) (dst : Nat) (on : Bool) : (noteLimit s p owner dst on).reli = s.reli := rfl
@[simp] theorem noteLimit_sec (s : State) (p : Nat) (owner : TransOwner) (dst : Nat) (on : Bool) : (noteLimit s p owner dst on).sec = s.sec := rfl
@[simp] theorem noteLimit_board (s : State) (p : Nat) (owner : TransOwner) (dst : Nat) (on : Bool) : (noteLimit s p owner dst on).board = s.board := rfl
@[simp] theorem noteLimit_pending (s : State) (p : Nat) (owner : TransOwner) (dst : Nat) (on : Bool) : (noteLimit s p owner dst on).pending = s.pending := rfl

/-! ### applyCold -/

@[simp] theorem applyCold_variant (s : State) (fn : Nat) : (applyCold s fn).variant = s.variant := rfl
@[simp] theorem applyCold_clocks (s : State) (fn : Nat) : (applyCold s fn).clocks = s.clocks := rfl
@[simp] theorem applyCold_free (s : State) (fn : Nat) : (applyCold s fn).free = s.free := rfl
@[simp] theorem applyCold_out (s : State) (fn : Nat) : (applyCold s fn).out = s.out := rfl
@[simp] theorem applyCold_granary (s : State) (fn : Nat) : (applyCold s fn).granary = s.granary := rfl
@[simp] theorem applyCold_tillers (s : State) (fn : Nat) : (applyCold s fn).tillers = s.tillers := rfl
@[simp] theorem applyCold_furrows (s : State) (fn : Nat) : (applyCold s fn).furrows = s.furrows := rfl
@[simp] theorem applyCold_furrowQ (s : State) (fn : Nat) : (applyCold s fn).furrowQ = s.furrowQ := rfl
@[simp] theorem applyCold_furrowReplies (s : State) (fn : Nat) : (applyCold s fn).furrowReplies = s.furrowReplies := rfl
@[simp] theorem applyCold_sems (s : State) (fn : Nat) : (applyCold s fn).sems = s.sems := rfl
@[simp] theorem applyCold_signals (s : State) (fn : Nat) : (applyCold s fn).signals = s.signals := rfl
@[simp] theorem applyCold_urgentWait (s : State) (fn : Nat) : (applyCold s fn).urgentWait = s.urgentWait := rfl
@[simp] theorem applyCold_nextSignal (s : State) (fn : Nat) : (applyCold s fn).nextSignal = s.nextSignal := rfl
@[simp] theorem applyCold_granStacks (s : State) (fn : Nat) : (applyCold s fn).granStacks = s.granStacks := rfl
@[simp] theorem applyCold_valid (s : State) (fn : Nat) : (applyCold s fn).valid = s.valid := rfl
@[simp] theorem applyCold_dirty (s : State) (fn : Nat) : (applyCold s fn).dirty = s.dirty := rfl
@[simp] theorem applyCold_bales (s : State) (fn : Nat) : (applyCold s fn).bales = s.bales := rfl
@[simp] theorem applyCold_baleMax (s : State) (fn : Nat) : (applyCold s fn).baleMax = s.baleMax := rfl
@[simp] theorem applyCold_faultWait (s : State) (fn : Nat) : (applyCold s fn).faultWait = s.faultWait := rfl
@[simp] theorem applyCold_sowing (s : State) (fn : Nat) : (applyCold s fn).sowing = s.sowing := rfl
@[simp] theorem applyCold_latches (s : State) (fn : Nat) : (applyCold s fn).latches = s.latches := rfl
@[simp] theorem applyCold_held (s : State) (fn : Nat) : (applyCold s fn).held = s.held := rfl
@[simp] theorem applyCold_heldMax (s : State) (fn : Nat) : (applyCold s fn).heldMax = s.heldMax := rfl
@[simp] theorem applyCold_heldFailed (s : State) (fn : Nat) : (applyCold s fn).heldFailed = s.heldFailed := rfl
@[simp] theorem applyCold_slotWaits (s : State) (fn : Nat) : (applyCold s fn).slotWaits = s.slotWaits := rfl
@[simp] theorem applyCold_longest (s : State) (fn : Nat) : (applyCold s fn).longest = s.longest := rfl
@[simp] theorem applyCold_streamFaults (s : State) (fn : Nat) : (applyCold s fn).streamFaults = s.streamFaults := rfl
@[simp] theorem applyCold_awn (s : State) (fn : Nat) : (applyCold s fn).awn = s.awn := rfl
@[simp] theorem applyCold_rot (s : State) (fn : Nat) : (applyCold s fn).rot = s.rot := rfl
@[simp] theorem applyCold_stook (s : State) (fn : Nat) : (applyCold s fn).stook = s.stook := rfl
@[simp] theorem applyCold_jobs (s : State) (fn : Nat) : (applyCold s fn).jobs = s.jobs := rfl
@[simp] theorem applyCold_admitResult (s : State) (fn : Nat) : (applyCold s fn).admitResult = s.admitResult := rfl
@[simp] theorem applyCold_admitSlot (s : State) (fn : Nat) : (applyCold s fn).admitSlot = s.admitSlot := rfl
@[simp] theorem applyCold_admitHeld (s : State) (fn : Nat) : (applyCold s fn).admitHeld = s.admitHeld := rfl
@[simp] theorem applyCold_links (s : State) (fn : Nat) : (applyCold s fn).links = s.links := rfl
@[simp] theorem applyCold_cxl (s : State) (fn : Nat) : (applyCold s fn).cxl = s.cxl := rfl
@[simp] theorem applyCold_fns (s : State) (fn : Nat) : (applyCold s fn).fns = s.fns := rfl
@[simp] theorem applyCold_counts (s : State) (fn : Nat) : (applyCold s fn).counts = s.counts := rfl
@[simp] theorem applyCold_power (s : State) (fn : Nat) : (applyCold s fn).power = s.power := rfl
@[simp] theorem applyCold_reli (s : State) (fn : Nat) : (applyCold s fn).reli = s.reli := rfl
@[simp] theorem applyCold_sec (s : State) (fn : Nat) : (applyCold s fn).sec = s.sec := rfl
@[simp] theorem applyCold_board (s : State) (fn : Nat) : (applyCold s fn).board = s.board := rfl
@[simp] theorem applyCold_pending (s : State) (fn : Nat) : (applyCold s fn).pending = s.pending := rfl

/-! ### drawFree -/

@[simp] theorem drawFree_variant (s : State) : (drawFree s).2.variant = s.variant := rfl
@[simp] theorem drawFree_clocks (s : State) : (drawFree s).2.clocks = s.clocks := rfl
@[simp] theorem drawFree_free (s : State) : (drawFree s).2.free = s.free + 1 := rfl
@[simp] theorem drawFree_out (s : State) : (drawFree s).2.out = s.out := rfl
@[simp] theorem drawFree_granary (s : State) : (drawFree s).2.granary = s.granary := rfl
@[simp] theorem drawFree_tillers (s : State) : (drawFree s).2.tillers = s.tillers := rfl
@[simp] theorem drawFree_furrows (s : State) : (drawFree s).2.furrows = s.furrows := rfl
@[simp] theorem drawFree_furrowQ (s : State) : (drawFree s).2.furrowQ = s.furrowQ := rfl
@[simp] theorem drawFree_furrowReplies (s : State) : (drawFree s).2.furrowReplies = s.furrowReplies := rfl
@[simp] theorem drawFree_sems (s : State) : (drawFree s).2.sems = s.sems := rfl
@[simp] theorem drawFree_signals (s : State) : (drawFree s).2.signals = s.signals := rfl
@[simp] theorem drawFree_urgentWait (s : State) : (drawFree s).2.urgentWait = s.urgentWait := rfl
@[simp] theorem drawFree_nextSignal (s : State) : (drawFree s).2.nextSignal = s.nextSignal := rfl
@[simp] theorem drawFree_granStacks (s : State) : (drawFree s).2.granStacks = s.granStacks := rfl
@[simp] theorem drawFree_valid (s : State) : (drawFree s).2.valid = s.valid := rfl
@[simp] theorem drawFree_dirty (s : State) : (drawFree s).2.dirty = s.dirty := rfl
@[simp] theorem drawFree_bales (s : State) : (drawFree s).2.bales = s.bales := rfl
@[simp] theorem drawFree_baleMax (s : State) : (drawFree s).2.baleMax = s.baleMax := rfl
@[simp] theorem drawFree_faultWait (s : State) : (drawFree s).2.faultWait = s.faultWait := rfl
@[simp] theorem drawFree_sowing (s : State) : (drawFree s).2.sowing = s.sowing := rfl
@[simp] theorem drawFree_latches (s : State) : (drawFree s).2.latches = s.latches := rfl
@[simp] theorem drawFree_held (s : State) : (drawFree s).2.held = s.held := rfl
@[simp] theorem drawFree_heldMax (s : State) : (drawFree s).2.heldMax = s.heldMax := rfl
@[simp] theorem drawFree_heldFailed (s : State) : (drawFree s).2.heldFailed = s.heldFailed := rfl
@[simp] theorem drawFree_slotWaits (s : State) : (drawFree s).2.slotWaits = s.slotWaits := rfl
@[simp] theorem drawFree_longest (s : State) : (drawFree s).2.longest = s.longest := rfl
@[simp] theorem drawFree_streamFaults (s : State) : (drawFree s).2.streamFaults = s.streamFaults := rfl
@[simp] theorem drawFree_awn (s : State) : (drawFree s).2.awn = s.awn := rfl
@[simp] theorem drawFree_rot (s : State) : (drawFree s).2.rot = s.rot := rfl
@[simp] theorem drawFree_stook (s : State) : (drawFree s).2.stook = s.stook := rfl
@[simp] theorem drawFree_jobs (s : State) : (drawFree s).2.jobs = s.jobs := rfl
@[simp] theorem drawFree_admitResult (s : State) : (drawFree s).2.admitResult = s.admitResult := rfl
@[simp] theorem drawFree_admitSlot (s : State) : (drawFree s).2.admitSlot = s.admitSlot := rfl
@[simp] theorem drawFree_admitHeld (s : State) : (drawFree s).2.admitHeld = s.admitHeld := rfl
@[simp] theorem drawFree_links (s : State) : (drawFree s).2.links = s.links := rfl
@[simp] theorem drawFree_cxl (s : State) : (drawFree s).2.cxl = s.cxl := rfl
@[simp] theorem drawFree_dict (s : State) : (drawFree s).2.dict = s.dict := rfl
@[simp] theorem drawFree_fns (s : State) : (drawFree s).2.fns = s.fns := rfl
@[simp] theorem drawFree_counts (s : State) : (drawFree s).2.counts = s.counts := rfl
@[simp] theorem drawFree_power (s : State) : (drawFree s).2.power = s.power := rfl
@[simp] theorem drawFree_reli (s : State) : (drawFree s).2.reli = s.reli := rfl
@[simp] theorem drawFree_sec (s : State) : (drawFree s).2.sec = s.sec := rfl
@[simp] theorem drawFree_board (s : State) : (drawFree s).2.board = s.board := rfl
@[simp] theorem drawFree_pending (s : State) : (drawFree s).2.pending = s.pending := rfl

/-! ### drawBytes -/

@[simp] theorem drawBytes_variant (s : State) : (drawBytes s).2.variant = s.variant := rfl
@[simp] theorem drawBytes_clocks (s : State) : (drawBytes s).2.clocks = s.clocks := rfl
@[simp] theorem drawBytes_free (s : State) : (drawBytes s).2.free = s.free + 1 := rfl
@[simp] theorem drawBytes_out (s : State) : (drawBytes s).2.out = s.out := rfl
@[simp] theorem drawBytes_granary (s : State) : (drawBytes s).2.granary = s.granary := rfl
@[simp] theorem drawBytes_tillers (s : State) : (drawBytes s).2.tillers = s.tillers := rfl
@[simp] theorem drawBytes_furrows (s : State) : (drawBytes s).2.furrows = s.furrows := rfl
@[simp] theorem drawBytes_furrowQ (s : State) : (drawBytes s).2.furrowQ = s.furrowQ := rfl
@[simp] theorem drawBytes_furrowReplies (s : State) : (drawBytes s).2.furrowReplies = s.furrowReplies := rfl
@[simp] theorem drawBytes_sems (s : State) : (drawBytes s).2.sems = s.sems := rfl
@[simp] theorem drawBytes_signals (s : State) : (drawBytes s).2.signals = s.signals := rfl
@[simp] theorem drawBytes_urgentWait (s : State) : (drawBytes s).2.urgentWait = s.urgentWait := rfl
@[simp] theorem drawBytes_nextSignal (s : State) : (drawBytes s).2.nextSignal = s.nextSignal := rfl
@[simp] theorem drawBytes_granStacks (s : State) : (drawBytes s).2.granStacks = s.granStacks := rfl
@[simp] theorem drawBytes_valid (s : State) : (drawBytes s).2.valid = s.valid := rfl
@[simp] theorem drawBytes_dirty (s : State) : (drawBytes s).2.dirty = s.dirty := rfl
@[simp] theorem drawBytes_bales (s : State) : (drawBytes s).2.bales = s.bales := rfl
@[simp] theorem drawBytes_baleMax (s : State) : (drawBytes s).2.baleMax = s.baleMax := rfl
@[simp] theorem drawBytes_faultWait (s : State) : (drawBytes s).2.faultWait = s.faultWait := rfl
@[simp] theorem drawBytes_sowing (s : State) : (drawBytes s).2.sowing = s.sowing := rfl
@[simp] theorem drawBytes_latches (s : State) : (drawBytes s).2.latches = s.latches := rfl
@[simp] theorem drawBytes_held (s : State) : (drawBytes s).2.held = s.held := rfl
@[simp] theorem drawBytes_heldMax (s : State) : (drawBytes s).2.heldMax = s.heldMax := rfl
@[simp] theorem drawBytes_heldFailed (s : State) : (drawBytes s).2.heldFailed = s.heldFailed := rfl
@[simp] theorem drawBytes_slotWaits (s : State) : (drawBytes s).2.slotWaits = s.slotWaits := rfl
@[simp] theorem drawBytes_longest (s : State) : (drawBytes s).2.longest = s.longest := rfl
@[simp] theorem drawBytes_streamFaults (s : State) : (drawBytes s).2.streamFaults = s.streamFaults := rfl
@[simp] theorem drawBytes_awn (s : State) : (drawBytes s).2.awn = s.awn := rfl
@[simp] theorem drawBytes_rot (s : State) : (drawBytes s).2.rot = s.rot := rfl
@[simp] theorem drawBytes_stook (s : State) : (drawBytes s).2.stook = s.stook := rfl
@[simp] theorem drawBytes_jobs (s : State) : (drawBytes s).2.jobs = s.jobs := rfl
@[simp] theorem drawBytes_admitResult (s : State) : (drawBytes s).2.admitResult = s.admitResult := rfl
@[simp] theorem drawBytes_admitSlot (s : State) : (drawBytes s).2.admitSlot = s.admitSlot := rfl
@[simp] theorem drawBytes_admitHeld (s : State) : (drawBytes s).2.admitHeld = s.admitHeld := rfl
@[simp] theorem drawBytes_links (s : State) : (drawBytes s).2.links = s.links := rfl
@[simp] theorem drawBytes_cxl (s : State) : (drawBytes s).2.cxl = s.cxl := rfl
@[simp] theorem drawBytes_dict (s : State) : (drawBytes s).2.dict = s.dict := rfl
@[simp] theorem drawBytes_fns (s : State) : (drawBytes s).2.fns = s.fns := rfl
@[simp] theorem drawBytes_counts (s : State) : (drawBytes s).2.counts = s.counts := rfl
@[simp] theorem drawBytes_power (s : State) : (drawBytes s).2.power = s.power := rfl
@[simp] theorem drawBytes_reli (s : State) : (drawBytes s).2.reli = s.reli := rfl
@[simp] theorem drawBytes_sec (s : State) : (drawBytes s).2.sec = s.sec := rfl
@[simp] theorem drawBytes_board (s : State) : (drawBytes s).2.board = s.board := rfl
@[simp] theorem drawBytes_pending (s : State) : (drawBytes s).2.pending = s.pending := rfl

/-! ### What they write -/

@[simp] theorem emit_out (s : State) (o : Output) : (emit s o).out = o :: s.out := rfl
@[simp] theorem setAwn_awn (s : State) (a : Awn) : (setAwn s a).awn = a := rfl
@[simp] theorem setRot_rot (s : State) (r : Rotation) : (setRot s r).rot = r := rfl
@[simp] theorem setActivation_activation (s : State) (n : Nat) : (setActivation s n).reli.activation = n := rfl
@[simp] theorem setChangeover_changeover (s : State) (b : Bool) : (setChangeover s b).dict.changeover = b := rfl
@[simp] theorem setStep_step (s : State) (n : Nat) : (setStep s n).board.step = n := rfl

/-! ### What a port's update leaves alone -/

theorem setPort_frame (s : State) (p : Nat) (x : Port) : setPort s p x = { s with links := (setPort s p x).links } := by
  unfold setPort; split <;> rfl

theorem setCxlPort_frame (s : State) (p : Nat) (x : CxlPort) :
    setCxlPort s p x = { s with cxl := (setCxlPort s p x).cxl } := by
  unfold setCxlPort; split <;> rfl

end Sys2Proof.Machine
end

