-- ==== Sys2Proof/Tests/Slice0.lean ====
section
/-! SUPPORT. Tests: what the manual says of single commands, ill-formed commands refused by their check, and states that
meet the hypotheses of the statements. -/
open Sys2Proof Sys2Proof.Machine

section

set_option Elab.async false

/-! ## A small world -/

namespace Sys2Proof.Tests

/-- Tiller 0.5, and its thread 0. -/
def tt : Tid := ⟨0, 5⟩
def th : Thr := ⟨tt, 0⟩

/-- Thread 0 of a Tiller of job 7, ready at address 0 with these registers. -/
def till (regs : KV Word64) : Tiller :=
  { Tiller.reset with job := 7, threads := [(0, { Thread.reset with st := .ready, regs := regs })] }

/-- The module after start-up, in Run, with that Tiller; its MCTP endpoint has its address and its ID. -/
def world (y : Tiller) : State :=
  { State.reset with
    tillers := [(tilKey tt, y)], power := { Power.reset with st := .run },
    board := { Board.reset with i3c := some 9, eid := 0x1D } }

def plain : State := world (till [])

/-- The words of a tile instruction: marker, opcode, and fields at their lowest bit. -/
def tile (op : Nat) (fields : List (Nat × Nat)) : Word128 :=
  BitVec.ofNat 128 (fields.foldl (fun a f => a + f.2 * 2 ^ f.1) (0x1F * 2 ^ 27 + op * 2 ^ 22))

/-- A tile instruction in flight. -/
def flying (id : Nat) (op : TileOp) (stage : Stage) : InFlight := ⟨id, 0, 0, 0, op, [], [], stage, 0⟩

end Sys2Proof.Tests

open Sys2Proof.Tests

/-! ## The hypotheses of the statements are met -/

theorem test_meets_IntegerOperationsWriteTheirResult :
    CanRun plain th [1, 2, 3] 4 ∧ CanRun plain th [0, 31, 31] 4 ∧ CanRun plain th [1, 2] 4 ∧ CanRun plain th [0] 4 ∧
      (63 : BitVec 8).toNat < 64 ∧ 64 ≤ (64 : BitVec 8).toNat := by
  unfold CanRun; decide +kernel

theorem test_meets_FloatOperationsWriteTheirResult : CanRun plain th [1, 2, 3] 4 ∧ CanRun plain th [1, 2, 0] 4 := by
  unfold CanRun; decide +kernel

/-- The last double word of the Hopper, an odd address, and the first address past it. -/
theorem test_meets_LoadsReadTheHopper :
    CanRun (world (till [(1, 8388600)])) th [2, 1] 4 ∧ hopperAddress (world (till [(1, 8388600)])) th 1 0 % 8 = 0 ∧
      hopperAddress (world (till [(1, 8388600)])) th 1 0 + 8 ≤ 8388608 ∧ CanRun (world (till [(1, 8388609)])) th [2, 1] 4 ∧
      hopperAddress (world (till [(1, 8388609)])) th 1 0x7FFF % 2 = 0 ∧
      ¬ hopperAddress (world (till [(1, 8388609)])) th 1 0x7FFF + 2 ≤ 8388608 ∧
      ¬ hopperAddress (world (till [(1, 1)])) th 1 0 % 2 = 0 := by
  unfold CanRun; decide +kernel

theorem test_meets_StoreWritesItsBytesOnly :
    CanRun (world (till [(1, 8388600)])) th [2, 1] 4 ∧ hopperAddress (world (till [(1, 8388600)])) th 1 0 % 8 = 0 ∧
      hopperAddress (world (till [(1, 8388600)])) th 1 0 + 8 ≤ 8388608 := by
  unfold CanRun; decide +kernel

theorem test_meets_BranchesAndJumpsMoveThePc :
    CanRun plain th [1, 2] 4 ∧ (5 : BitVec 3).toNat ≤ 5 ∧ 6 ≤ (6 : BitVec 3).toNat ∧ taken 5 0 0 ∧ ¬ taken 4 0 0 ∧
      CanRun plain th [1] 4 ∧ CanRun plain th [1, 2, 0] 4 := by
  unfold CanRun taken; decide +kernel

theorem test_meets_FenceHaltAndRdidComplete :
    CanRun plain th [0, 0, 0] 4 ∧ CanRun plain th [1, 0, 0] 4 ∧ othersRun plain th :=
  ⟨by unfold CanRun; decide +kernel, by unfold CanRun; decide +kernel, .inl (by decide +kernel)⟩

namespace Sys2Proof.Tests

/-- Counter 127 of Field 0 is job 7's, and register 1 names it. -/
def counting : State := { world (till [(1, 127)]) with furrows := [(furKey 0 127, { Furrow.reset with job := 7 })] }

/-- Counter 63 of Headland A is job 7's, and register 1 names it with epoch 1. -/
def countingA : State := { world (till [(1, 0x1803F)]) with furrows := [(furKey 8 63, { Furrow.reset with job := 7 })] }

/-- Thread 0 waits for a counter's reply into x31. -/
def asking : Tiller := { till [] with threads := [(0, { Thread.reset with st := .waitFurrow 31 })] }

def ask (die : Nat) : FurrowReq := ⟨die, 63, th, none, 0, 0, 0⟩

/-- The dictionary arms counter 63 of Headland A. -/
def arming : FurrowReq := ⟨8, 63, none, some 1, 0, 0, 4⟩

/-- The name of semaphore 63 of Tiller 0.5. -/
def sem63 : Nat := 256 * 5 + 63

/-- Thread 0 waits for 2 of that semaphore, which holds n. -/
def queueing (n : Nat) : State :=
  { world { till [] with threads := [(0, { Thread.reset with st := .waitSem sem63 2 0 })] } with
    sems := [(sem63, ⟨n, [.thread th 2], []⟩)] }

/-- A host's signal of 2 to that semaphore, which holds n. -/
def hostSignal (n : Nat) : State :=
  { plain with sems := [(sem63, ⟨n, [], []⟩)], signals := [⟨0, .host, sem63, 2, 0, 0⟩] }

end Sys2Proof.Tests

theorem test_meets_TakeAndArmAskTheCounter :
    (CanRun counting th [2, 1, 0] 4 ∧ CanRun counting th [2, 1, 1] 4 ∧ (reg (thread counting th) 1).toNat < 2 ^ 16 ∧
      furName ((reg (thread counting th) 1).toNat % 2 ^ 16) = some (0, 127) ∧ MayAsk counting th 0 127) ∧
    (CanRun countingA th [2, 1, 0] 4 ∧ (reg (thread countingA th) 1).toNat < 2 ^ 32 ∧
      furName ((reg (thread countingA th) 1).toNat % 2 ^ 16) = some (8, 63) ∧ MayAsk countingA th 8 63) := by
  unfold CanRun MayAsk; decide +kernel

theorem test_meets_CounterServesItsOldestRequest :
    (thread (world asking) th).st = .waitFurrow 31 ∧ (ask 8).thr = some th ∧ th.til.field.val = 0 ∧
      (∀ d ∈ [0, 8], { world asking with furrowQ := [ask d] }.furrowQ.find? (fun q => decide (q.die = d ∧ q.num = 63)) =
        some (ask d)) ∧
      { world asking with furrowReplies := [(th, 1)] }.furrowReplies.find? (fun q => decide (q.1 = th)) = some (th, 1) ∧
      { plain with furrowQ := [arming] }.furrowQ.find? (fun q => decide (q.die = 8 ∧ q.num = 63)) = some arming := by
  decide +kernel

theorem test_meets_SigSendsItsSignal :
    CanRun (world (till [(1, 0x53F)])) th [0, 1, 0] 4 ∧ nameOk 0x53F ∧
      sigAllowed (world (till [(1, 0x53F)])) 7 (reg (thread (world (till [(1, 0x53F)])) th) 1).toNat = true ∧
      urgentCount (world (till [(1, 0x53F)])) tt < 3 := by
  unfold CanRun nameOk; decide +kernel

theorem test_meets_WaitAndTrywaitTakeTheirCount :
    (reg (thread (world (till [(1, 0x53F)])) th) 1).toNat = sem63 ∧ nameOk sem63 ∧ semTil sem63 = some (tilKey tt) ∧
      CanRun (world (till [(1, 0x53F)])) th [0, 1, 0] 4 ∧ CanRun (world (till [(1, 0x53F)])) th [31, 1, 0] 4 ∧
      (sem { world (till [(1, 0x53F)]) with sems := [(sem63, ⟨1, [], []⟩)] } sem63).count = 1 := by
  unfold CanRun nameOk; decide +kernel

theorem test_meets_SignalsArriveAndTheOldestWaiterIsServed :
    ((hostSignal 65533).signals.find? (fun o => decide (o.id = 0)) = some ⟨0, .host, sem63, 2, 0, 0⟩ ∧ sem63 / 65536 ≠ 8 ∧
      sendable (hostSignal 65533) ⟨0, .host, sem63, 2, 0, 0⟩ = true ∧ (sem (hostSignal 65533) sem63).count + 2 ≤ 65535 ∧
      65535 < (sem (hostSignal 65534) sem63).count + 2 ∧ slotOf (hostSignal 65534) 0 = none ∧
      sendable (world { till [] with flights := [flying 0 (.discard 0) .queued] })
        ⟨0, .thread th 0 0, sem63, 2, 1, 7⟩ = false) ∧
    ((sem (queueing 1) sem63).waiters = [.thread th 2] ∧ (sem (queueing 1) sem63).count < 2 ∧
      2 ≤ (sem (queueing 2) sem63).count ∧ (thread (queueing 2) th).st = .waitSem sem63 2 0) := by
  decide +kernel

namespace Sys2Proof.Tests

/-- A Hopper that holds a 2 × 2 FP32 tile at 64, descriptors of ATTF, ATTB and BCONV at 128, 192 and 256, a 64 × 64 BF16
tile in layout A at 8192 and one in layout B at 16384; their elements are zeros. -/
def benchHopper : KV Byte :=
  [(68, 1), (70, 1), (72, 64), (73, 1)] ++
  [(129, 32), (133, 64), (137, 64), (166, 16), (172, 64), (176, 64), (184, 1)] ++
  [(193, 32), (197, 64), (201, 64), (205, 32), (209, 64), (213, 64), (217, 64), (230, 16), (248, 17), (280, 64)] ++
  [(8192, 1), (8193, 1), (8196, 63), (8198, 63), (8200, 64), (8201, 32)] ++
  [(16384, 17), (16385, 1), (16388, 63), (16390, 63), (16392, 64), (16393, 32)]

/-- A Tiller with that Hopper, its Sheaves 5, 6 and 7 open in PLAIN mode. -/
def bench : Tiller :=
  { till [] with
    hopper := benchHopper,
    sheaves := [(5, ⟨.plain, 0, [], false⟩), (6, ⟨.plain, 0, [], false⟩), (7, ⟨.plain, 0, [], false⟩)] }

/-- A Blade word: source a and, where there is one, b at 64, destination 1 MiB, two columns. -/
def bladeTile (op code : Nat) (hasB : Bool) : Word128 :=
  tile op [(106, 1), (84, if hasB then 1 else 0), (62, 16384), (56, code), (39, 1)]

/-- Such a word can issue, passes the checks of its word, and its operands fit. -/
def BladeIssues (op code : Nat) (hasB topk : Bool) (rowsB : Nat) (w : Word128) : Prop :=
  TileReady (world bench) th w op (bladeRegs w) ∧ bits w 61 56 = code ∧ bladeDecode w true hasB topk = none ∧
    (bladeExtents (thread (world bench) th) w).1 = none ∧ 2 * (bits w 16 12 + 1) ≤ bladeCols (world bench) th w ∧
    BladeFits (world bench) th (bladeA (world bench) th w)
      (if hasB then some (bladeB (world bench) th w, rowsB) else none)
      (bladeRows (world bench) th w) (bladeCols (world bench) th w) (bladeDst (world bench) th w)
      (outSize 0 (bladeRows (world bench) th w) (bladeCols (world bench) th w))

/-- A BCVT of one element of the tile at 64 to 1 MiB, as FP32. -/
def bcvtTile : Word128 := tile 0x0A [(106, 1), (84, 16384), (63, 3)]

/-- A BCONV whose descriptor names operation op, over the tile at 64 with its weights there too. -/
def convBench (op : Nat) : Tiller := { bench with hopper := (256, BitVec.ofNat 8 op) :: benchHopper }

def convWord : Word128 := tile 0x0B [(106, 4), (84, 1), (62, 16384)]

/-- MMA of the tiles at 16384 and 8192 into Sheaf 7, and the attention instructions on Sheaves 5 and 6, or 5 to 7. -/
def mmaTile : Word128 := tile 0x00 [(106, 256), (84, 128), (45, 7)]
def attfTile : Word128 := tile 0x01 [(106, 2), (75, 5), (72, 6)]
def attbTile : Word128 := tile 0x02 [(106, 3), (75, 5), (72, 6), (69, 7)]

/-- What the statement asks of an attention instruction of the bench. -/
def AttIssues (back : Bool) (w : Word128) : Prop :=
  let a := attWord (thread (world bench) th) w
  TileReady (world bench) th w (if back then 0x02 else 0x01) [0, 0, 0] ∧ onlyBits w.toNat (attBits back) = true ∧
    attEarly back bench 0 a = none ∧ attDescCheck bench a.ds a.q a.v back = none ∧
    firstOf ((attRoles (attDesc bench a.ds) a.q a.v back).map (roleCheck bench a.dim)) = none ∧
    hazard bench 0 (attReads back bench a) [((attDesc bench a.ds).scr, scratchBytes)] = false ∧
    mayFinalize bench a.s2 = false ∧ finalizedRow bench a.s2 a.q = false

/-- SOPEN of Sheaf 0: EC mode, empty, or loaded from the FP32 tile at 64. SPASS, ACT 0 or 1, of Sheaf 7. -/
def sopenTile (ld : Nat) : Word128 := tile 0x04 [(106, if ld = 0 then 0 else 1), (41, ld)]
def spassTile (act thr : Nat) : Word128 := tile 0x06 [(45, 7), (43, act), (40, thr)]

/-- The drain of row 0, column 0 of Sheaf 7 to 1 MiB, closing it. -/
def drainTile : Word128 := tile 0x05 [(106, 16384), (85, 3), (45, 7), (32, 1)]

def drainOp (out : Nat) (close : Bool) : TileOp := .sdrain 1048576 1 1 7 out close ⟨0, 0, 0, 0, 0, 3⟩

/-- That drain of live job 7 in flight; with the Drill about to add row 0 of the first group of an MMA to the Sheaf, its buffer READY. -/
def draining (stage : Stage) : State :=
  { world { bench with flights := [flying 3 (drainOp 0 true) stage], nextId := 4 } with
    jobs := [(0, { Job.reset with st := 2, man := { Manifest.reset with job := 7 } })] }

/-- An addition of the tile at 64 to itself in flight. -/
def addOp : TileOp := .belt .add 64 64 1048576 2 2 0
def adding (stage : Stage) : Tiller := { bench with flights := [flying 0 addOp stage] }

def mmaOp : TileOp := .mma 16384 8192 2 1 32 7 false 0

def drillOfMma : DrillExec := ⟨0, 0, 0, 0, none, 0, hdrBytes bench 16384, hdrBytes bench 8192, [], [], [], 0, 0⟩

def drilling (st : BufSt) : Tiller :=
  { bench with
    flights := [flying 0 mmaOp .running], nextId := 1,
    drill := some drillOfMma,
    bufA := { StashBuf.reset with st := st, wt := 16384, fmt := 1, g0 := 0, ng := 1, col0 := 0, ncols := 1 } }

/-- An instruction waits for the idle Drill; a Stash buffer wants one line more; a Drill waits for a buffer that wants none. -/
def waiting (op : TileOp) : Tiller := { bench with drillQueue := [0], gate := .running, flights := [flying 0 op .queued] }
def filling : Tiller :=
  { bench with bufA := { StashBuf.reset with
      st := .filling, wt := 16384, fmt := 1, head := hdrBytes bench 16384, ng := 1, ncols := 1, want := [257] } }
def stalled : Tiller := { drilling .filling with drill := some { drillOfMma with stallSince := some 0 } }

/-- ATTF and ATTB of the bench; causal keys from position kp on. -/
def attfOp (kp : Nat) : TileOp := .attf 128 (BitVec.ofNat 64 (kp * 2 ^ 20)) 0 2 2 1 32 5 6
def attbOp : TileOp := .attb 192 0 0 2 2 0 32 5 6 7

end Sys2Proof.Tests

theorem test_meets_BladeFunctionsAreAccepted :
    (∀ p ∈ beltRowsOfTable, BladeIssues 8 p.2.2 (beltHasB p.2.1) false 1 (bladeTile 8 p.2.2 (beltHasB p.2.1))) ∧
    (∀ p ∈ browRowsOfTable,
      BladeIssues 9 p.2.2 (browHasB p.2.1) (p.2.1 == .topk) 1 (bladeTile 9 p.2.2 (browHasB p.2.1))) := by
  unfold BladeIssues TileReady CanRun BladeFits; decide +kernel

theorem test_meets_ConversionsAndConvolutionsAreAccepted :
    (TileReady (world bench) th bcvtTile 0x0A [0, 0, 0, 0, 0] ∧ regField bcvtTile 127 123 = 0 ∧ regField bcvtTile 8 4 = 0 ∧
      bcvtDecode bcvtTile = none ∧ (bcvtExtents (world bench) th bcvtTile).1 = none ∧
      outSize (bits bcvtTile 45 42) 1 1 ≤ 64 * bits bcvtTile 78 63 ∧
      BladeFits (world bench) th (bladeA (world bench) th bcvtTile) none 1 1 (bladeB (world bench) th bcvtTile)
        (64 * bits bcvtTile 78 63)) ∧
    (∀ op ∈ [0, 1, 2, 3, 4], TileReady (world (convBench op)) th convWord 0x0B [0, 0, 0] ∧
      onlyBits convWord.toNat [(127, 106), (105, 84), (83, 62), (55, 49), (31, 22)] = true ∧
      (convDesc (convBench op) 256).op = op ∧ bladeA (world (convBench op)) th convWord = 256 ∧
      convEarly (convBench op) 256 1048576 1 = none ∧
      convOperands (convBench op) (convDesc (convBench op) 256) 64 1 = none ∧
      hazard (convBench op) 0 (convReads (convBench op) 256 64) [(1048576, 192)] = false) := by
  unfold TileReady CanRun BladeFits; decide +kernel

theorem test_meets_DrillInstructionsAreAccepted :
    (TileReady (world bench) th mmaTile 0x00 [0, 0, 0, 0] ∧ mmaDecode mmaTile = none ∧
      mmaEarly bench 0 (mmaWord (thread (world bench) th) mmaTile) = none ∧ drillRoom (world bench) th = true ∧
      mmaOperands bench (mmaWord (thread (world bench) th) mmaTile) = none) ∧
    AttIssues false attfTile ∧ AttIssues true attbTile := by
  unfold AttIssues TileReady CanRun; decide +kernel

theorem test_meets_SheafOpenPassAndDiscard :
    (TileReady (world bench) th (sopenTile 0) 0x04 [0] ∧ sopenDecode (sopenTile 0) = none ∧
      sheafOf bench (bits (sopenTile 0) 47 45) = none ∧ bits (sopenTile 0) 42 41 = 0) ∧
    (TileReady (world bench) th (sopenTile 2) 0x04 [0] ∧ sopenDecode (sopenTile 2) = none ∧
      addrOf (thread (world bench) th) (bits (sopenTile 2) 127 106) = 64 ∧ loadCheck bench 64 1 2 = none ∧
      drainRoom bench = true ∧ hazard bench 0 [tileRange bench 64] [] = false) ∧
    (TileReady (world bench) th (spassTile 0 7) 0x06 [] ∧ spassDecode (spassTile 0 7) = none ∧
      TileReady (world bench) th (spassTile 1 0) 0x06 [] ∧ spassDecode (spassTile 1 0) = none ∧
      sheafOf bench (bits (spassTile 1 0) 47 45) = some ⟨.plain, 0, [], false⟩) := by
  unfold TileReady CanRun; decide +kernel

theorem test_meets_BadTileWordsAndSheavesAreRefused :
    (TileReady plain th (tile 0x06 [(45, 7)]) 0x06 [] ∧ spassDecode (tile 0x06 [(45, 7)]) = none ∧
      ownCheck (til plain tt) 0 7 ≠ none) ∧
    (TileReady (world bench) th (tile 0x04 [(45, 7)]) 0x04 [0] ∧ sopenDecode (tile 0x04 [(45, 7)]) = none) ∧
    (TileReady plain th (tile 0x00 [(38, 1)]) 0x00 [0, 0, 0, 0] ∧ bits (tile 0x00 [(38, 1)]) 38 32 ≠ 0) ∧
    (∀ act ∈ [0, 1], TileReady plain th (tile 0x06 [(127, 1), (43, act)]) 0x06 [] ∧
      bits (tile 0x06 [(127, 1), (43, act)]) 127 48 ≠ 0 ∧ bits (tile 0x06 [(127, 1), (43, act)]) 44 43 = act) ∧
    slotOf plain 7 = none := by
  unfold TileReady CanRun; decide +kernel

theorem test_meets_DrainsWriteTheSheaf :
    (TileReady (world bench) th drainTile 0x05 [0, 0, 0] ∧ sdrainDecode drainTile = none ∧
      sdrainCheck bench 0 (drainWord (thread (world bench) th) drainTile) = none ∧ drainRoom bench = true ∧
      (drainWord (thread (world bench) th) drainTile).dst = 1048576) ∧
    (∀ stage ∈ [Stage.queued, .running], flight (til (draining stage) tt) 3 = some (flying 3 (drainOp 0 true) stage) ∧
      earlierLanded (til (draining stage) tt) 3 7 = true ∧ earlierAdded (til (draining stage) tt) 3 7 = true ∧
      (til (draining stage) tt).staging = none ∧
      jobLive (jobOf (draining stage) (til (draining stage) tt).job) = true ∧ sheafOf (til (draining stage) tt) 7 = some ⟨.plain, 0, [], false⟩) := by
  unfold TileReady CanRun; decide +kernel

theorem test_meets_BladeRunsInOrderAndWritesItsResult :
    (adding .queued).blade = none ∧
      (adding .queued).flights.find? (fun g => bladeFlight g && decide (g.stage = .queued)) = some (flying 0 addOp .queued) ∧
      flight (adding .running) 0 = some (flying 0 addOp .running) := by
  decide +kernel

theorem test_meets_PartialsLandRowByRow :
    (∀ st ∈ [BufSt.ready, .filling], (drilling st).drill =
        some drillOfMma ∧ flightOp (drilling st) 0 = some mmaOp) ∧
    CanLand (world (drilling .ready)) tt drillOfMma 16384 1 32 7 ∧
    ¬ CanLand (world (drilling .filling)) tt drillOfMma 16384 1 32 7 ∧
    pairClass (Hdr.parse (hdrBytes bench 16384)).fmt (Hdr.parse (hdrBytes bench 8192)).fmt ≠ 0 ∧
    sheafOf (drilling .ready) 7 = some ⟨.plain, 0, [], false⟩ := by
  unfold CanLand; decide +kernel

theorem test_meets_DrillStartsAndFillsItsStash :
    (∀ op ∈ [mmaOp, attfOp 0, attfOp 4, attbOp], (waiting op).drill = none ∧ (waiting op).drillQueue = [0] ∧
      (waiting op).blade = none ∧ (waiting op).gate = .running ∧ flightOp (waiting op) 0 = some op) ∧
    whollyMasked bench 128 0 2 2 1 = false ∧ whollyMasked bench 128 (BitVec.ofNat 64 (4 * 2 ^ 20)) 2 2 1 = true ∧
    (attDesc bench 128).fin = false := by
  decide +kernel

theorem test_meets_StashFills :
    (moveHeads filling).bufA.want = [257] ∧ (moveHeads filling).bufB.want = [] ∧
      feedRoom (moveHeads filling) (moveHeads filling).bufA 257 = true ∧
      [].any (fun r : BankReq => decide (hopBank r.addr = hopBank (64 * 257)) && beatsFill 0 r) = false ∧
      [(⟨0, 0, 64 * 257⟩ : BankReq)].any (fun r => decide (hopBank r.addr = hopBank (64 * 257)) && beatsFill 0 r) = true := by
  decide +kernel

theorem test_meets_StashIsReady :
    (iter moveHeads 16 filling).drill = none ∧
      (iter moveHeads 16 stalled).drill = some { drillOfMma with stallSince := some 0 } ∧
      flightOp (iter moveHeads 16 stalled) 0 = some mmaOp ∧
      readyFor { iter moveHeads 16 stalled with bufA := { (iter moveHeads 16 stalled).bufA with st := .ready } } 16384 1 1 32
        (drillWidth stalled) 0 0 = true := by
  decide +kernel

namespace Sys2Proof.Tests

/-- Context 3 of the Tiller. -/
def cc : CtxId := ⟨tt, 3⟩

/-- STRM start, or stop, of context 3 with the descriptor at 64. -/
def strmTile (act : Nat) : Word128 := tile 0x0C [(106, if act = 0 then 1 else 0), (44, 3), (37, act)]

/-- A Hopper with a descriptor of this mode at 64: slots of 64 bytes at 1 MiB, one element; a SEND or a RELAY to the Tiller
itself, a RECV or a RELAY from it. -/
def modeHopper (m : Nat) : KV Byte :=
  (if m = 4 ∨ m = 6 then [(64 + 59, 0x50)] else []) ++ (if m = 5 ∨ m = 6 then [(64 + 62, 5)] else []) ++
    [(64 + 65, BitVec.ofNat 8 (16 * m))] ++ (if m = 2 then [] else [(64 + 84, if m = 6 then 2 else 1)]) ++
    [(64 + 92, 64), (64 + 98, 16)] ++ (if m < 2 then [(64 + 100, 1)] else []) ++ (if m = 2 then [] else [(64 + 104, 1)])

/-- A job 7 in slot 0, ACTIVE, whose page 0 is Granary from 0, and whose Windrow tables lie in the first MiB. -/
def job7 : Job :=
  { Job.reset with
    st := 2, man := { Manifest.reset with job := 7, regions := [(0, 1048576)] }, xlate := [(0, 2 ^ 62 + 2 ^ 61)] }

def starting (m : Nat) : State := { world { till [] with hopper := modeHopper m } with jobs := [(0, job7)] }

/-- A descriptor's bytes from its fields. -/
def descOf (fields : List ((Nat × Nat) × Nat)) : List Byte := toLe 128 (fields.foldl (fun a f => a + f.2 * 2 ^ f.1.2) 0)

/-- A LINEAR stream of 2 elements of 64 bytes, two to a chunk, one slot at 1 MiB, with these further fields. -/
def linearDesc (more : List ((Nat × Nat) × Nat)) : List Byte :=
  descOf ([(dNE, 2), (dNROWS, 2), (dCM1, 1), (dHSTR, 1), (dNSLOT, 1), (dHSLOT, 128), (dHB, 1048576), (dGSTR, 64)] ++ more)

def streamOf (desc : List Byte) : Ctx := { Ctx.reset with st := .running, desc := desc, job := 7 }

/-- The module with that context, and job 7. -/
def streaming (x : Ctx) : State := { world { till [] with ctxs := [(3, x)] } with jobs := [(0, job7)] }

/-- Its chunk 0, read but for its last notice. -/
def readChunk (done : Bool) : Chunk := ⟨0, 2, 2, 0, [(1048576, [1, 2])], (0, 0, 0), none, false, done, false, [], []⟩

def chunked (done : Bool) : Ctx :=
  { streamOf (linearDesc [(dUEE, 1), (dUE, sem63), (dDFE, 1), (dDF, sem63)]) with
    nextChunk := 1, nextElem := 2, chunks := [(0, readChunk done)] }

/-- Contexts 3, a RECV, and 4, a SEND that names it. -/
def pairDesc (mode : Nat) (more : List ((Nat × Nat) × Nat)) : List Byte :=
  descOf ([(dMODE, mode), (dNE, 1), (dNSLOT, 1), (dHSLOT, 64)] ++ more)

def pairWorld : State :=
  world { till [] with ctxs := [(3, streamOf (pairDesc 5 [(dPRED, 5), (dPCTX, 4)])),
                                (4, streamOf (pairDesc 4 [(dSUCC, 5), (dSCTX, 3)]))] }

/-- A WALK of the table at 0, whose header gives it 2 pages; its latch taken, or not. -/
def walking (latch : Bool) : State :=
  { world { till [] with ctxs := [(3, { streamOf (descOf [(dMODE, 2), (dHSLOT, 64)]) with
      latched := latch, table := if latch then (toLe 64 2) else [] })] } with granary := [(0, 2)] }

end Sys2Proof.Tests

theorem test_meets_StreamStartsAndStops :
    (∀ m ∈ [0, 1, 2, 3, 4, 5, 6], TileReady (starting m) th (strmTile 0) 0x0C [0, 0] ∧ strmDecode (strmTile 0) = none ∧
      bits (strmTile 0) 38 37 = 0 ∧ addrOf (thread (starting m) th) (bits (strmTile 0) 127 106) = 64 ∧
      regionCheck 64 128 = none ∧ dget (leNat (hop (til (starting m) tt) 64 128)) dMODE = m ∧
      (ctxAt (starting m) (strmCtx th (strmTile 0))).st = .idle ∧
      descCheck (starting m) th (leNat (hop (til (starting m) tt) 64 128)) 0 = none) ∧
    (TileReady plain th (strmTile 1) 0x0C [] ∧ strmDecode (strmTile 1) = none ∧ bits (strmTile 1) 38 37 = 1 ∧
      (ctxAt plain cc).st = .idle ∧ (ctxAt (streaming (streamOf [])) cc).st ≠ .idle ∧
      TileReady (streaming (streamOf [])) th (strmTile 1) 0x0C []) := by
  unfold TileReady CanRun; decide +kernel

theorem test_meets_StreamsTakeTheirCountsInTurn :
    (∃ x ∈ [streamOf (linearDesc [(dUFE, 1), (dUF, sem63)])], streamOn (streaming x) cc = true ∧ dflag x.d dUFE = true ∧
      x.ufQueued = false ∧ exhausted x = false ∧ x.uf = x.nextChunk) ∧
    (∃ x ∈ [{ streamOf (linearDesc [(dDEE, 1), (dDE, sem63), (dNE, 2)]) with nextChunk := 1 }],
      streamOn (streaming x) cc = true ∧ dflag x.d dDEE = true ∧ x.deQueued = false ∧ wantsDe x = true ∧
      isRelay x = false) := by
  decide +kernel

/-- The chunk ends with the stream's last element, in its last row. -/
theorem test_meets_LinearChunksAreReadElementByElement :
    (∃ x ∈ [streamOf (linearDesc [(dDIR, 1)])], streamOn (streaming x) cc = true ∧ dget x.d dMODE = 0 ∧
      dflag x.d dTILE = false ∧ x.pinned = none ∧ kvFind x.chunks 0 = none ∧ mayBegin x 0 = true ∧
      (∀ e ∈ chunkElems x 0, e < dget x.d dNROWS) ∧ 0 * (dget x.d dCM1 + 1) < dget x.d dNE ∧ dflag x.d dDIR = true) ∧
    (∃ x ∈ [streamOf (linearDesc [])], streamOn (streaming x) cc = true ∧ dget x.d dMODE = 0 ∧
      dflag x.d dTILE = false ∧ x.pinned = none ∧ kvFind x.chunks 0 = none ∧ mayBegin x 0 = true ∧
      0 * (dget x.d dCM1 + 1) < dget x.d dNE ∧ dflag x.d dDIR = false ∧ 0 = x.done ∧
      (∀ e ∈ chunkElems x 0, e < dget x.d dNROWS) ∧ (chunkElems x 0).length = 2 ∧
      (∀ p ∈ [(0, 0), (1, 1)], (chunkElems x 0)[p.1]? = some p.2 ∧
        jobRead (elemsTaken (streaming x) cc x 0 p.1 (fun _ => List.replicate 64 0)) 7 (srcTil tt) x.cache
          (x.base + p.2 * dget x.d dGSTR) (elemBytes x.d) = .ok (List.replicate 64 0))) := by
  decide +kernel

theorem test_meets_ChunksAreAnnouncedInOrder :
    (streamOn (streaming (chunked false)) cc = true ∧ kvFind (chunked false).chunks 0 = some (readChunk false) ∧
      (readChunk false).readDone = false ∧ (readChunk false).dropped = false ∧ (readChunk false).next = (readChunk false).stop) ∧
    (streamOn (streaming (chunked true)) cc = true ∧ kvFind (chunked true).chunks (chunked true).done = some (readChunk true) ∧
      (readChunk true).readDone = true ∧ dflag (chunked true).d dDIR = false ∧ isReceiver (chunked true) = false) ∧
    (∃ x ∈ [{ chunked true with chunks := [], done := 1 }], streamOn (streaming x) cc = true ∧ streamFinished x = true ∧
      (streaming x).held = []) := by
  decide +kernel

theorem test_meets_GrantsAndWalks :
    (∃ x ∈ [ctxAt pairWorld cc], streamOn pairWorld cc = true ∧ dget x.d dMODE = 5 ∧ x.grants < totalChunks x.d ∧
      dflag x.d dDEE = false ∧ senderOf pairWorld cc = some ⟨tt, 4⟩ ∧ dget (ctxAt pairWorld ⟨tt, 4⟩).d dMODE = 4 ∧
      (dget (ctxAt pairWorld ⟨tt, 4⟩).d dNE, dget (ctxAt pairWorld ⟨tt, 4⟩).d dELM1, dget (ctxAt pairWorld ⟨tt, 4⟩).d dCM1) =
        (dget x.d dNE, dget x.d dELM1, dget x.d dCM1)) ∧
    (streamOn (walking false) cc = true ∧ dget (ctxAt (walking false) cc).d dMODE = 2 ∧ (walking false).held = [] ∧
      (ctxAt (walking false) cc).latched = false ∧ localRead (walking false) (srcTil tt) 0 64 = .ok (toLe 64 2) ∧
      dget (ctxAt (walking false) cc).d dTA = 0 ∧ tableBad 2 = false ∧ leNat (toLe 64 2) = 2 ∧
      dget (ctxAt (walking false) cc).d dHSL < wtHpp 2) ∧
    (streamOn (walking true) cc = true ∧ (ctxAt (walking true) cc).latched = true ∧
      (ctxAt (walking true) cc).released = false ∧ (walking true).held = [] ∧ entryRefused (List.replicate 8 0) = false ∧
      ∀ n ∈ walkPages (ctxAt (walking true) cc), localRead (walking true) (srcTil tt)
        (64 + 8 * (n % wtS (leNat ((ctxAt (walking true) cc).table.take 64)))) 8 = .ok (List.replicate 8 0)) := by
  decide +kernel

namespace Sys2Proof.Tests

/-- A read, or a write of one byte, of sector 0 by the Tiller; a stack that has admitted n of them. -/
def sectorReq (write : Bool) : SectorReq := ⟨.tiller th, 0, write, if write then 63 else 0, if write then [9] else []⟩
def stacked (write : Bool) (n : Nat) : State :=
  { plain with granStacks := [(0, { Stack.reset with
      admitted := (upto n).map (fun i => ⟨i, sectorReq write, true, 0⟩), nextId := n })] }

/-- Sixty-four requests of Headland B fill the bank of sector 0. -/
def bankFilled : State :=
  { plain with granStacks := [(0, { Stack.reset with
      admitted := (upto 64).map (fun i => ⟨i, { sectorReq true with source := .headlandB }, true, 0⟩), nextId := 64 })] }

def bank0 : BankId := ⟨0, 0, 31⟩

/-- Stack 0 has scrubbed its last sector but one; row 16 383 of bank 31 waits for its copy, and so does bank 31. -/
def wearing : State :=
  { plain with granStacks := [(0, { Stack.reset with
      scrubPos := stackSectors - 1, rowWait := [31 * 16384 + 16383], bankCopy := [31] })] }

/-- Bytes of a Sowing entry of a kind at 0: 4096 bytes at job address 0, or for COPY in page 1; BIND of page 0 to another
frame, WAIT for semaphore 2. -/
def entryBytes (k : Nat) : KV Byte :=
  [(0, BitVec.ofNat 8 k)] ++ (if k = 6 then [(9, 0x20)] else []) ++ (if k < 4 ∨ k = 5 then [(13, 16)] else []) ++
    (if k = 3 then [(18, 0x20), (25, 0x10), (26, 0x20)] else []) ++ (if k = 4 then [(26, 0x60)] else [])

def bale (st : BaleSt) (pins : Nat) : Bale :=
  ⟨2097152, 0, 4096, st, false, false, pins, 0, [], [], [], [], [], [], 7⟩

/-- Job 7 holds the Sowing engine with that entry; its page 0 lies in Barn with frame 1, its page 1 in Granary. -/
def sowing (k : Nat) : State :=
  { plain with
    granary := entryBytes k, jobs := [(0, { job7 with xlate := [(0, 2 ^ 63 + 2 ^ 61 + 2 ^ 21), (1, 2 ^ 62 + 2 ^ 61 + 2 ^ 22)] })],
    sowing := { Sowing.reset with holder := 7, entries := 2, credit := 1 },
    valid := if k = 4 then [(512, true)] else [],
    bales := if k = 1 then [bale .fetching 0] else if k = 2 ∨ k = 5 then [bale .clean 1] else [] }

def sowEntry (k : Nat) : SowEntry := SowEntry.parse (gran (sowing k) 0 32)

/-- The bale in the directory, its page's Barn addresses behind port 0. -/
def barned (b : Bale) : State :=
  { plain with bales := [b], dict := { Dict.reset with active := [(od 0x6031 1, 1073741824), (od 0x6032 1, 1)] } }

theorem may_start {s : State} {e : SowEntry} {raw : List Byte} {kind : Nat}
    (h : presentEntry s = some (e, raw) ∧ entryBad s e raw = false ∧ e.kind = kind ∧
      (∀ p ∈ sectors (s.sowing.base + 32 * s.sowing.next) 32, canEnter s srcEngine (p.1 / 64) false = true) ∧
      badIn s (s.sowing.base + 32 * s.sowing.next) 32 = [] ∧ heldByWait s = false ∧ s.sowing.flights.length < 64 ∧
      flightEntry s s.sowing.next = none ∧ entryWait s e = none)
    (q : snoopSpan s (s.sowing.base + 32 * s.sowing.next) 32 false = (s, true)) : EntryMayStart s e kind :=
  ⟨⟨raw, h.1, h.2.1⟩, h.2.2.1, q, h.2.2.2⟩

end Sys2Proof.Tests

/-- Sector 0 takes a reserved slot with 31 of them held and a shared one with 33; with 64 of another source its bank is full; a thread with 64 outstanding, and a source with 64
waiting in its retry buffer, wait at issue. -/
theorem test_meets_GranaryRequestsTakeASlot :
    2 ^ 33 ≤ (⟨.headlandB, 2 ^ 33, false, 0, []⟩ : SectorReq).sector ∧ stackOf (64 * (sectorReq true).sector) = 0 ∧
      (∀ n ∈ [31, 33], granaryOn (stacked true n) = true ∧ sourceFull (stacked true n) 0 (sectorReq true) = false ∧
        bankFull (stacked true n) 0 = false ∧ behindOwn 0 (stackAt (stacked true n) 0).retry (.tiller th) 0 = false) ∧
      reservedFree (stacked true 31) 0 (.tiller th) = true ∧
      (reservedFree (stacked true 33) 0 (.tiller th) = false ∧ sharedFree (stacked true 33) 0 = true ∧
        sharedTurn (stacked true 33) 0 false 0 = true) ∧
      granaryOn { plain with power := { Power.reset with st := .sleep } } = false ∧
      (granaryOn bankFilled = true ∧ sourceFull bankFilled 0 (sectorReq true) = false ∧ bankFull bankFilled 0 = true ∧
        (stackAt bankFilled 0).retry.all (·.bank) = true) ∧ sourceFull (stacked true 64) 0 (sectorReq true) = true ∧
      sourceFull { plain with granStacks := [(0, { Stack.reset with retry := List.replicate 64 ⟨sectorReq true, true, false, 0⟩ })] }
        0 (sectorReq true) = true := by
  decide +kernel

theorem test_meets_GranaryAccessesReadAndWriteTheirSector :
    (∀ w ∈ [true, false], (stackAt (stacked w 1) 0).admitted = [⟨0, sectorReq w, true, 0⟩] ∧
      (stacked w 1).reli.bad.elem 0 = false) ∧
    latched (stacked true 1) 63 1 = false ∧ arriving (stacked true 1) 63 = false ∧ (stacked true 1).held = [] ∧
    latched { stacked true 1 with latches := [(0, [cc])] } 63 1 = true ∧
    AccessIsNext (stacked true 1) 0 ⟨0, sectorReq true, true, 0⟩ ∧ AccessIsNext (stacked false 1) 0 ⟨0, sectorReq false, true, 0⟩ ∧
    AccessIsNext { stacked true 1 with latches := [(0, [cc])] } 0 ⟨0, sectorReq true, true, 0⟩ :=
  ⟨by decide +kernel, by decide +kernel, by decide +kernel, by decide +kernel,
    by decide +kernel, ⟨by decide +kernel, by decide +kernel, by decide +kernel, rfl, by decide, rfl⟩,
    ⟨by decide +kernel, by decide +kernel, by decide +kernel, rfl, by decide, rfl⟩,
    ⟨by decide +kernel, by decide +kernel, by decide +kernel, rfl, by decide, rfl⟩⟩

/-- The bank of sector 0 is queued, and waits for bank 1 of its channel; bank 1 need not wait. -/
theorem test_meets_BankRefresh :
    bankQueued (stackAt (stacked true 1) 0) 0 = true ∧
    (∃ i, i < 32 ∧ (stackAt (stacked true 1) 0).refreshed.elem (32 * 0 + i) = false ∧
      bankQueued (stackAt (stacked true 1) 0) (32 * 0 + i) = false) ∧
    bankQueued (stackAt (stacked true 1) 0) 1 = false ∧
    (∃ x ∈ [{ stackAt (stacked true 1) 0 with refreshed := (upto 31).map (· + 1) }], bankQueued x 0 = true ∧
      ∀ i, i < 32 → x.refreshed.elem i = true ∨ bankQueued x i = true) :=
  ⟨by decide +kernel, ⟨1, by decide +kernel⟩, by decide +kernel, by decide +kernel⟩

theorem test_meets_ScrubAndSparingGoOn :
    scrubRuns wearing = true ∧ canEnter wearing (reqSource .scrub) (0 * stackSectors + (stackAt wearing 0).scrubPos) false = true ∧
      wearing.reli.bad.elem (stackSectors - 1) = false ∧
      (stackAt wearing 0).scrubPos + 1 = stackSectors ∧ bankOf bank0 * 16384 + 16383 = 31 * 16384 + 16383 ∧
      (stackAt wearing 0).rowWait.elem (31 * 16384 + 16383) = true ∧ (stackAt wearing 0).bankCopy.elem (bankOf bank0) = true ∧
      wearing.board.step = 11 ∧ wearing.reli.bridges.elem (9, planeAt wearing 9 (planeOf 12288)) = false ∧ planeOf 12288 = 3 := by
  decide +kernel

theorem test_meets_SowingEntriesActByTheirKind :
    (EntryMayStart (sowing 0) (sowEntry 0) 0 ∧ EntryMayStart (sowing 1) (sowEntry 1) 1 ∧
      EntryMayStart (sowing 2) (sowEntry 2) 2 ∧ EntryMayStart (sowing 3) (sowEntry 3) 3 ∧
      EntryMayStart (sowing 4) (sowEntry 4) 4 ∧ EntryMayStart (sowing 5) (sowEntry 5) 5 ∧
      EntryMayStart (sowing 6) (sowEntry 6) 6 ∧ EntryMayStart (sowing 7) (sowEntry 7) 7) ∧
    (baleNamed (sowing 0) (entryGa (sowing 0) (sowEntry 0)) = none ∧
      baleNamed (sowing 1) (entryGa (sowing 1) (sowEntry 1)) = some (bale .fetching 0) ∧
      baleNamed (sowing 2) (entryGa (sowing 2) (sowEntry 2)) = some (bale .clean 1) ∧ (sowEntry 2).unpin = false ∧
      (bale .clean 1).pins ≠ 0 ∧ (sowing 4).sowing.flights = [] ∧ (sowing 5).sowing.flights = [] ∧ bindReady (sowing 4) (sowEntry 4).ja = false ∧
      (sowEntry 5).len ≠ 0 ∧ baleNamed (sowing 5) (entryGa (sowing 5) (sowEntry 5)) = some (bale .clean 1) ∧
      (sowing 5).bales.filter (fun c => decide (c.ga = 2097152 ∧ c.len = (sowEntry 5).len)) = [bale .clean 1] ∧
      (sowing 5).sowing.holder ≠ 0 ∧ plain.sowing.holder = 0) :=
  ⟨⟨may_start (raw := gran (sowing 0) 0 32) (by decide +kernel) rfl, may_start (raw := gran (sowing 1) 0 32) (by decide +kernel) rfl,
    may_start (raw := gran (sowing 2) 0 32) (by decide +kernel) rfl, may_start (raw := gran (sowing 3) 0 32) (by decide +kernel) rfl,
    may_start (raw := gran (sowing 4) 0 32) (by decide +kernel) rfl, may_start (raw := gran (sowing 5) 0 32) (by decide +kernel) rfl,
    may_start (raw := gran (sowing 6) 0 32) (by decide +kernel) rfl, may_start (raw := gran (sowing 7) 0 32) (by decide +kernel) rfl⟩,
    by decide +kernel⟩

theorem test_meets_BarnAnswersMoveBales :
    (∃ b ∈ [{ bale .fetching 0 with asked := [(2097152, 0)] }], baleNamed (barned b) b.ga = some b ∧ b.st = .fetching ∧
      invalidOf (barned b) b = [2097152] ∧ (∀ g ∈ invalidOf (barned b) b, (b.asked.map (·.1)).elem g = true) ∧
      (∀ g ∈ invalidOf (barned b) b, ∀ p ∈ sectors g 4096, canEnter (barned b) srcEngine (p.1 / 64) true = true) ∧
      (barned b).held = [] ∧ b.onMove = [] ∧ b.onWrite = [] ∧ dirtyOf (barned b) b = []) ∧
    snoopAll (barned (bale .fetching 0)) [(2097152, 4096)] true = (barned (bale .fetching 0), true) ∧
    (∃ b ∈ [{ bale .writing 0 with writing := [(2097152, 0)], job := 0 }], baleNamed (barned b) b.ga = some b ∧
      b.st = .writing ∧ b.evicting = false ∧ b.onWrite = [] ∧ b.demand = 0 ∧ dirtyOf (barned b) b = [] ∧
      slotOf (barned b) b.job = none) ∧
    (∃ b ∈ [{ bale .clean 0 with evictPending := true }], baleNamed (barned b) b.ga = some b ∧ b.evictPending = true ∧
      b.st = .clean ∧ b.pins = 0 ∧ b.demand = 0) ∧
    (∃ f ∈ [(⟨0, 3, 0, 0, 4096, 4096, none, false, [], [], some 0⟩ : SowFlight)],
      flightEntry { plain with sowing := { Sowing.reset with flights := [f] } } 0 = some f ∧ f.kind = 3 ∧
      f.remoteWrites = some 0 ∧ plain.held.any (fun h => decide (h.source = srcEngine)) = false) :=
  ⟨by decide +kernel, rfl, by decide +kernel, by decide +kernel, by decide +kernel⟩

namespace Sys2Proof.Tests

/-- A stem descriptor of 128 frames of one pixel: two output tiles of BF16, a ring of one slot of 65 lines, weights of FP8 at
4096, FSEM the semaphore of the Tiller. -/
def clipBytes : KV Byte :=
  [(9, 16), (32, 64), (40, 128), (61, 128), (62, 5), (68, 65), (70, 1), (72, 64), (73, 16), (76, 63), (77, 5)]

def clip : List Byte := readBytes clipBytes 0 128

/-- Job 7 holds the Awn engine, whose ring at 0 holds that descriptor, or one with a reserved bit set; this run is under way. -/
def awnWorld (bad : Bool) (run : Option AwnRun) (credits : Nat) : State :=
  { plain with
    granary := clipBytes ++ (if bad then [(100, 1)] else []) ++ [(4096, 22), (4097, 6), (4104, 192)],
    jobs := [(0, job7)],
    awn := { Awn.reset with holder := 7, entries := 2, posts := 1, run := run, credits := credits } }

def stemRun (tile : Nat) : AwnRun := ⟨clip, [], [], tile, 0, 0, 0, [], none, false⟩

/-- This member, 1 of an Acre of two, whose port 30 leads to member 0, in the Rotation of job 7. -/
def linked : State :=
  { plain with
    jobs := [(0, { job7 with man := { job7.man with mlst := [0, 1], span := 2 } })],
    dict := { Dict.reset with cold := [(od 0x5000 1, 1), (od 0x5000 2, 1), (od 0x5000 3, 2)] },
    links := { Links.reset with ports := [(30, { Port.reset with st := 4, peer := 0 })] } }

def rotating : State :=
  { linked with
    rot := { Rotation.reset with holder := 7, g := 2, pos := 1, slots := 2, slotb := 64, members := [0, 1], blockSigs := 1,
                                 credits := [(0, 1)], granted := [(1, 1)],
                                 sent := [(0, 3)] } }

/-- A flit of a type from member 0 to this member, its CRC right. -/
def bareFlit (nak : Bool) (nsec : Nat) (payload : List Byte) : Flit :=
  ⟨1, 0, nak, 0, false, 0, 0, false, 0, 1, 0, 9, BitVec.ofNat 3 nsec, 0, payload, 0, none, [], false⟩

def flitOf (nak : Bool) (typ nsec : Nat) (payload : List Byte) : Flit :=
  { bareFlit nak nsec payload with crc := BitVec.ofNat 32 (crc32 (flitBytes (bareFlit nak nsec payload) typ)) }

theorem xor_lt {a b : Nat} (h : a < 2 ^ 32) (i : b < 2 ^ 32) : Nat.xor a b < 2 ^ 32 := Nat.xor_lt_two_pow h i

theorem crcBit_lt {c : Nat} (h : c < 2 ^ 32) : crcBit c < 2 ^ 32 := by
  unfold crcBit
  split
  · exact xor_lt (Nat.mod_lt _ (by decide)) (by decide)
  · omega

theorem crc32_lt (l : List Byte) : crc32 l < 2 ^ 32 := by
  have step : ∀ (c : Nat) (b : Byte), c < 2 ^ 32 → crcByte c b < 2 ^ 32 := by
    intro c b h
    have x : Nat.xor c (b.toNat * 2 ^ 24) < 2 ^ 32 := xor_lt h (by have := b.isLt; omega)
    have go : ∀ n c, c < 2 ^ 32 → iter crcBit n c < 2 ^ 32 := by
      intro n
      induction n with
      | zero => intro c h; exact h
      | succ n ih => intro c h; exact ih _ (crcBit_lt h)
    unfold crcByte
    exact go 8 _ x
  have fold : ∀ (l : List Byte) (c : Nat), c < 2 ^ 32 → l.foldl crcByte c < 2 ^ 32 := by
    intro l
    induction l with
    | nil => intro c h; exact h
    | cons b l ih => intro c h; rw [List.foldl_cons]; exact ih (crcByte c b) (step c b h)
  have start := fold l 0xFFFFFFFF (by decide)
  unfold crc32
  generalize l.foldl crcByte 0xFFFFFFFF = k at start ⊢
  exact xor_lt start (by decide)

/-- The test flits have no error. -/
theorem flit_well (nak : Bool) (typ nsec : Nat) (payload : List Byte) (h : nsec ≤ 5) :
    flitBad (flitOf nak typ nsec payload) typ = false := by
  have b : flitBytes (flitOf nak typ nsec payload) typ = flitBytes (bareFlit nak nsec payload) typ := by
    simp only [flitBytes, flitHeader, flitOf]
  have c : crcFailed (flitOf nak typ nsec payload) typ = false := by
    unfold crcFailed
    rw [show wireType (flitOf nak typ nsec payload) typ = typ from rfl, b, decide_eq_false_iff_not, Decidable.not_not]
    show (BitVec.ofNat 32 (crc32 (flitBytes (bareFlit nak nsec payload) typ))).toNat = _
    rw [BitVec.toNat_ofNat, Nat.mod_eq_of_lt (crc32_lt _)]
  have r : flitReserved (flitOf nak typ nsec payload) = false := by
    simp only [flitReserved, flitOf, bareFlit, BitVec.toNat_ofNat]
    simp; omega
  unfold flitBad
  rw [c, r]; rfl

/-- Such a flit is counted as received, and nothing else is counted for it. -/
theorem count_well {s : State} {p typ nsec : Nat} {payload : List Byte} (h : nsec ≤ 5) :
    countFlit s p (flitOf false typ nsec payload) typ = bump s (0xA500 + p) 2 1 := by
  have w := flit_well false typ nsec payload h
  simp only [flitBad, Bool.or_eq_false_iff] at w
  unfold countFlit
  rw [w.1.1, w.1.2, w.2]; rfl

/-- Nothing is at a stack whose state is that of reset. -/
theorem still_of {s : State} (h : s.granStacks = [] ∧ s.held = [] ∧ s.latches = [] ∧ s.bales = [] ∧
    s.reli.bad = [] ∧ s.reli.listed = []) : Still s :=
  ⟨h.2.1, h.2.2.1, h.2.2.2.1, h.2.2.2.2.1, h.2.2.2.2.2, fun k => by
    rw [show stackAt s k = Stack.reset from congrArg (fun l => kvGet Stack.reset l k) h.1]; decide⟩

theorem quiet_of {s : State} (h : s.cxl.directory = [] ∧ s.granStacks = [] ∧ s.held = [] ∧ s.latches = [] ∧ s.bales = [] ∧
    s.reli.bad = [] ∧ s.reli.listed = []) : Quiet s := ⟨h.1, still_of h.2⟩

/-- A note's flits as they are received with a TYPE. -/
def recvAs (s : State) (m : RotNote) (typ : Nat) (n : Note) : State × Bool :=
  m.flits.foldl (fun a f =>
    let q := receive a.1 m.port.val f typ
    if !q.2 then (q.1, false)
    else if f.dst.toNat = myId q.1 then (freeFlit q.1 m.port.val f typ, a.2)
    else (forward q.1 m.port.val f typ n, false)) (s, !m.flits.isEmpty)

/-- What the statement asks of a note that has come well. -/
def Heard (q : State × Bool) : Prop :=
  q.2 = true ∧ rotHears q.1 = true ∧ rotOn q.1 = true ∧ q.1.rot = rotating.rot ∧
    (q.1.cxl.directory = [] ∧ q.1.granStacks = [] ∧ q.1.held = [] ∧ q.1.latches = [] ∧ q.1.bales = [] ∧ q.1.reli.bad = [] ∧
      q.1.reli.listed = []) ∧ ∀ m ∈ q.1.links.map, ∀ x ∈ m.ports, x.1 < 64

theorem rotType_eq (control : Bool) : rotType control = 3 ∨ rotType control = 7 := by
  have h : Config.rotationType control % 2 < 2 := Nat.mod_lt _ (by decide)
  rcases Nat.lt_succ_iff_lt_or_eq.mp h with h | h
  · exact .inl (by rw [rotType, Nat.lt_one_iff.mp h]; rfl)
  · exact .inr (by rw [rotType, h]; rfl)

end Sys2Proof.Tests

/-- Both counts have room for one more at 65 534, and saturate with one more at 65 535. -/
theorem test_meets_AwnSignals :
    ((∃ a, a = { Awn.reset with holder := 7, posts := 65534, credits := 65534 } ∧ a.holder ≠ 0 ∧
      a.posts + (1 : BitVec 16).toNat ≤ 65535 ∧ a.credits + (1 : BitVec 16).toNat ≤ 65535) ∧
    (∃ a, a = { Awn.reset with holder := 7, posts := 65535, credits := 65535 } ∧ a.holder ≠ 0 ∧
      65535 < a.posts + (1 : BitVec 16).toNat ∧ 65535 < a.credits + (1 : BitVec 16).toNat)) ∧ plain.awn.holder = 0 ∧
    Awn.reset.status ≠ 3 :=
  ⟨⟨⟨_, rfl, by simp⟩, ⟨_, rfl, by simp⟩⟩, rfl, by decide⟩

/-- The engine waits for the one credit that its next tile needs: it goes on waiting without it, and goes on with it. -/
theorem test_meets_AwnSignals_waiting :
    ∃ s ∈ [{ awnWorld false none 0 with awn := { (awnWorld false (some (stemRun 1)) 0).awn with status := 3, waitSince := some 0 } }],
      s.awn.holder ≠ 0 ∧ s.awn.status = 3 ∧ s.awn.waitSince = some 0 ∧ s.awn.credits < creditNeed s ∧
      s.awn.credits + (0 : BitVec 16).toNat < creditNeed s ∧ creditNeed s ≤ s.awn.credits + (1 : BitVec 16).toNat := by
  decide +kernel

theorem test_meets_AwnEngineRunsItsDescriptors :
    (∀ bad ∈ [true, false], ∃ b ∈ [gran (awnWorld bad none 0) 0 128], awnOn (awnWorld bad none 0) = true ∧
      (awnWorld bad none 0).awn.posts ≠ 0 ∧ (awnWorld bad none 0).awn.entries ≠ 0 ∧ (awnWorld bad none 0).awn.status ≠ 4 ∧
      clipCheck (awnWorld bad none 0) b (ClipDesc.parse b) = if bad then some 0x02 else none) ∧
    slotOf (awnWorld true none 0) 7 = some 0 ∧ Quiet (awnWorld true none 0) ∧ Quiet (awnWorld false none 0) ∧
    Quiet (awnWorld false (some (stemRun 1)) 1) ∧
    (∃ a ∈ [{ (awnWorld false (some (stemRun 0)) 0).awn with status := 1 }],
      awnOn { awnWorld false none 0 with awn := a } = true ∧ a.status = 1 ∧ a.run = some (stemRun 0)) ∧
    (∀ t ∈ [0, 1, 2], AwnWorks (awnWorld false (some (stemRun t)) 2) (stemRun t) (ClipDesc.parse clip)) ∧
    (∃ d ∈ [ClipDesc.parse clip], d.head = false ∧ d.tiles = 2 ∧ d.nt = 1 ∧
      (awnWorld false (some (stemRun 1)) 0).awn.credits = 0 ∧ (awnWorld false (some (stemRun 1)) 0).awn.waitSince = none ∧
      d.tiles - (stemRun 2).taken ≤ 2 ∧ urgentFull (awnWorld false (some (stemRun 1)) 1) .engine = false) :=
  ⟨by decide +kernel, by decide +kernel, quiet_of (by decide), quiet_of (by decide), quiet_of (by decide), by decide +kernel,
    by unfold AwnWorks; decide +kernel, by decide +kernel⟩

theorem test_meets_RotationMovesItsBlocks :
    (rotating.rot.holder ≠ 0 ∧ rotOn rotating = true ∧ rotHears rotating = true ∧ 1 < rotating.rot.g ∧
      1 = rotating.rot.pos ∧ (⟨0, 30, []⟩ : RotNote).flits = [] ∧
      mayGrant rotating.rot 0 = true ∧
      rotating.rot.granted.elem (1, 0) = false ∧ rotating.rot.credits.elem (0, 0) = false ∧
      sendsFor rotating.rot 0 1 = some 0 ∧ holdsRound rotating.rot 0 = true ∧ rotating.rot.credits.elem (0, 1) = true ∧
      rotating.rot.sent.elem (0, 1) = false ∧
      egressOf rotating (routeOf rotating (myId rotating) (rotModule rotating.rot 0) rotating.rot.vc) = some 30 ∧
      running rotating (portFn 30) = true ∧ roundIn rotating.rot 1 ≠ 0 ∧
      rotating.rot.complete.elem 1 = false ∧ rotating.rot.granted.elem (rotating.rot.pos, 1) = true ∧
      rotating.rot.arrived = [] ∧ rotating.rot.due = [] ∧ plain.rot.holder = 0 ∧
      rotating.rot.sent.elem (0, 3) = true ∧ rotating.rot.acked.elem (0, 3) = false ∧ (0 : Nat) ≠ rotating.rot.pos) ∧
    recvNote rotating ⟨1, 30, []⟩ true (.rotCredit 1) = (rotating, false) ∧ Quiet rotating ∧ MapsNamePorts rotating :=
  ⟨by decide +kernel, rfl, quiet_of (by decide), by unfold MapsNamePorts; decide⟩

/-- A note that comes in one good flit, of either TYPE that Rotation's may have, is received. -/
theorem test_meets_RotationNotes : ∀ p ∈ [(true, Note.rotCredit 1), (true, .rotAck 1), (false, .rotBlock 1)],
    ∃ (note : RotNote) (u : State), note.round = 1 ∧
      recvNote rotating note p.1 p.2 = (u, true) ∧ rotHears u = true ∧ rotOn u = true ∧ u.rot = rotating.rot ∧
      rotating.rot.slotb ≤ flitRoom note.flits ∧ Quiet u ∧ MapsNamePorts u := by
  have pair {a : State × Bool} (h : a.2 = true) : a = (a.1, true) := Prod.ext rfl h
  intro p hp
  have k : ∀ typ ∈ [3, 7], ∀ p ∈ [(true, Note.rotCredit 1), (true, .rotAck 1), (false, .rotBlock 1)],
      Heard (recvAs rotating ⟨1, 30, [flitOf false typ 1 []]⟩ typ p.2) := by
    intro typ h p _
    unfold recvAs
    simp only [List.foldl_cons, List.foldl_nil, receive, flit_well false typ 1 [] (by decide),
      count_well (s := rotating) (p := (30 : Fin 64).val) (typ := typ) (nsec := 1) (payload := []) (by decide)]
    revert p; revert typ; unfold Heard; decide +kernel
  have h := k (rotType p.1) (by rcases rotType_eq p.1 with h | h <;> simp [h]) p hp
  exact ⟨⟨1, 30, [flitOf false (rotType p.1) 1 []]⟩, _, rfl, pair h.1, h.2.1, h.2.2.1, h.2.2.2.1, Nat.le_refl 64,
    quiet_of h.2.2.2.2.1, h.2.2.2.2.2⟩

namespace Sys2Proof.Tests

/-- A ring of two positions and two tiles of one element; this member is at position 1. -/
def ringCfg : GroupRec :=
  ⟨3, 0, 2, [1], 2, 256, 65536, 131072, 0, 8, 0, 0, 1, sem63, 1, 1, 0, 0, false, false, false, true, false⟩

def ringGroup (ws : List Window) : Group := ⟨ringCfg, 7, [(0, 0x7FFF), (1, 0x7FFF)], some 1, none, 0, ws, [], 0, []⟩

/-- What has arrived for tile 1: a running sum, from a primary or from a Gleaner. -/
def sumIn (gleaner : Bool) : StookIn := ⟨1, 0, gleaner, [], 30⟩

def ringWindow : Window := { Window.fresh 0 with opened := true, posted := [0], marker := true, taken := [1], arrived := [sumIn false] }

/-- Tile 0 has been added and sent, tile 1 is in its result slot: only DSEM is still due. -/
def doneWindow : Window := { ringWindow with read := [0], results := [1], handled := [0, 1], arrived := [] }

/-- Job 7 holds that group; an FP32 element lies in its contribution slot for tile 0. -/
def reducing (ws : List Window) : State :=
  { linked with
    granary := [(131080, 192)], stook := { Stook.reset with groups := [ringGroup ws], job := 7 } }

/-- A window whose deadline of 8 port clocks for position 0, whose Gleaner has sent tile 1, is passed. -/
def lateWindow : Window := { ringWindow with taken := [], arrived := [{ sumIn true with bytes := readBytes [(8, 192)] 0 64 }], timers := [(0, 30, 0, 8)] }
/-- The same where the Gleaner's tile has a bad header. -/
def spoiltWindow : Window := { lateWindow with arrived := [{ sumIn true with bytes := List.replicate 64 0xFF }] }

/-- Job 7 commits under this step record: one current page, no committed bytes. -/
def stepRec : StepRec := ⟨65536, 131072, 196608, 0, 0, sem63, sem63, 0, 1⟩

def stepping (commitState : Nat) (sent : Bool) : State :=
  { linked with
    stook := { Stook.reset with job := 7, step := some stepRec, commitState := commitState,
                                normSent := if sent then some (0, 0) else none } }

/-- The same for a job of one module, and for one that rolls back. -/
def steppingAlone : State := { stepping 0 false with jobs := [(0, job7)] }
def rollingBack : State := { stepping 3 false with jobs := [(0, { job7 with st := 3 })] }

end Sys2Proof.Tests

theorem test_meets_PostsAndMarkersFillTheWindow :
    GroupTakes (reducing []) 3 (ringGroup []) ∧ (61 : BitVec 6).toNat < 63 ∧ postBad (ringGroup []) (1024 * 0 + 2 - 1) = false ∧
      postBad (ringGroup []) (1024 * 0 + 3 - 1) = true ∧ retainedBack ringCfg 0 = false := by
  unfold GroupTakes; decide +kernel

theorem test_meets_StookAddsAlongTheChain :
    (∀ p ∈ [((none : Option StookIn), 0), (some (sumIn false), 1)],
      groupAt (reducing [ringWindow]) 3 = some (ringGroup [ringWindow]) ∧ ringCfg.kind ≠ 2 ∧
      stookOn (reducing [ringWindow]) 7 = true ∧ p.2 < ringCfg.tiles ∧
      readyWindow (ringGroup [ringWindow]) p.2 = some (ringWindow, p.1) ∧ windowAt (ringGroup [ringWindow]) 0 = ringWindow ∧
      (ringWindow.posted.elem p.2 = true →
        contribBad ringCfg (gran (reducing [ringWindow]) (contribAddr ringCfg 0 p.2) 64) = false)) ∧
    Quiet (reducing [ringWindow]) ∧ MapsNamePorts (reducing [ringWindow]) ∧
    (chainIndex ringCfg 0 1 = 1 ∧ (1 : Nat) ≠ ringCfg.p) ∧
    (chainIndex ringCfg 1 1 = ringCfg.p ∧ ringCfg.ret = false) :=
  ⟨by decide +kernel, quiet_of (by decide), by unfold MapsNamePorts; decide, by decide +kernel, by decide +kernel⟩

/-- The deadline of position 0 has passed in one window, and not in the other; the last has only its DSEM to send. -/
theorem test_meets_WindowsEnd :
    (∀ w ∈ [lateWindow, ringWindow], groupAt (reducing [w]) 3 = some (ringGroup [w]) ∧
      (ringGroup [w]).windows.filter (·.opened) = [w] ∧ windowAt (ringGroup [w]) w.lam = w ∧
      ∀ x ∈ w.arrived, x.gleaner = true → x.kind = 0 ∧ hdrReason (x.bytes.take 64) = none) ∧
    (groupAt (reducing [spoiltWindow]) 3 = some (ringGroup [spoiltWindow]) ∧ windowAt (ringGroup [spoiltWindow]) 0 = spoiltWindow ∧
      spoiltWindow.taken = [] ∧ (spoiltWindow.arrived.map (fun x => (x.gleaner, x.kind, x.tile, (hdrReason (x.bytes.take 64)).isSome))) =
        [(true, 0, 1, true)] ∧ dueTimers (reducing [spoiltWindow]) (ringGroup [spoiltWindow]) spoiltWindow = [0]) ∧
    dueTimers (reducing [lateWindow]) (ringGroup [lateWindow]) lateWindow = [0] ∧
    [0].elem (senderPos ringCfg (groupPos (ringGroup [lateWindow])) 0 1) = true ∧
    dueTimers (reducing [ringWindow]) (ringGroup [ringWindow]) ringWindow = [] ∧
    (groupAt (reducing [doneWindow]) 3 = some (ringGroup [doneWindow]) ∧ stookOn (reducing [doneWindow]) 7 = true ∧
      (ringGroup [doneWindow]).windows.find? (windowDone (ringGroup [doneWindow])) = some doneWindow ∧
      (reducing [doneWindow]).held = [] ∧ (ringGroup [doneWindow]).held = [] ∧
      urgentFull (reducing [doneWindow]) .engine = false) := by
  decide +kernel

theorem test_meets_NormRoundsWriteTheirLine :
    (StepRuns steppingAlone stepRec ∧ steppingAlone.stook.normSent = none ∧ (jobModules steppingAlone 7).length = 1 ∧
      StepRuns (stepping 0 false) stepRec ∧ (stepping 0 false).stook.normSent = none ∧
      treeIndex (stepping 0 false) 7 % 32 ≠ 0 ∧
      StepRuns (stepping 0 true) stepRec ∧ (stepping 0 true).stook.normSent.isSome = true) ∧
      steppingAlone.stook.bad = false ∧ (stepping 0 true).stook.bad = false ∧
      Quiet steppingAlone ∧ Quiet (stepping 0 true) ∧ MapsNamePorts (stepping 0 true) :=
  ⟨by unfold StepRuns; decide +kernel, rfl, rfl, quiet_of (by decide), quiet_of (by decide), by unfold MapsNamePorts; decide⟩

theorem test_meets_CommitTakesTwoRounds :
    ((∀ c ∈ [0, 1, 2], StepRuns (stepping c false) stepRec ∧ (stepping c false).stook.commitState = c ∧
      (stepping c false).stook.vote = none ∧ (stepping c false).stook.badSinceVote = false ∧ (stepping c false).stook.bad = false ∧
      cursorsLost (stepping c false) stepRec stepRec.curb = false) ∧
    treeIndex (stepping 1 false) 7 % 32 ≠ 0 ∧
    (slotOf rollingBack 7 = some 0 ∧ (jobAt rollingBack 0).st = 3 ∧ quiescent rollingBack 7 = true ∧
      rollingBack.stook.step = some stepRec ∧ rollingBack.stook.tasks = []) ∧ stepRec.ncp = 0) ∧
    Quiet (stepping 2 false) ∧ Quiet rollingBack ∧ MapsNamePorts (stepping 2 false) ∧ MapsNamePorts rollingBack :=
  ⟨by unfold StepRuns; decide +kernel, quiet_of (by decide), quiet_of (by decide), by unfold MapsNamePorts; decide,
    by unfold MapsNamePorts; decide⟩

namespace Sys2Proof.Tests

/-- Job 7 in slot 0, in this state; a completion record at 4096, progress limit 1 ms. -/
def job7in (st : Nat) (record : Bool) : Job :=
  { job7 with
    st := st, record := record, man := { job7.man with tset := [5], entries := [(0, 16)], crec := 4096, plim := 1 } }

def jobs (st : Nat) (record : Bool) : State :=
  { plain with jobs := [(0, job7in st record)], clocks := { Clocks.reset with aux := 25000 } }

/-- Session 1 of CXL port 0 and session 5 out of band are open. -/
def inSession (s : State) : State :=
  { s with dict := { s.dict with sessions := [(1, { Session.reset with kind := 1 }), (5, { Session.reset with kind := 3 })] } }

/-- A request of session 1, and one of session 5. -/
def mbox : ReqHead := ⟨.mailbox 0, 1, 9, 0, none⟩
def oob : ReqHead := ⟨.outOfBand, 5, 9, 0, none⟩

/-- A module without jobs whose Granary holds, at 65536, a manifest of job 7: one Tiller, one thread at word 0, one line of
program. -/
def manifested : State :=
  { inSession State.reset with
    granary := [(1024, 32), (65536, 0x46), (65537, 0x4D), (65538, 1), (65541, 2), (65544, 7), (65548, 1), (65560, 1), (65569, 8),
                (65576, 1), (65593, 4)] ++ (upto 14).map (fun i => (65602 + i, 255)) }

/-- That a request may write an entry, as a check. -/
def writes (s : State) (h : ReqHead) (idx sub : Nat) : Bool :=
  answers s h.origin && (decide (s.sec.bootMode ≠ 2) && (decide (s.power.st = .run ∨ s.power.st = .idle) &&
    (decide (s.power.target = none) && (!s.power.exiting && !s.dict.changeover))))
  && (decide (h.bytes = none ∧ h.rsv = 0 ∧ h.sid.toNat ≤ 8 ∧ sessionCode s h.origin h.sid.toNat = 0) &&
    (sessionAt s h.sid.toNat).record.isEmpty)
  && (!ownerAbsent s (holderOf h.origin h.sid.toNat) idx && (!isOob idx sub .wo || decide (h.origin = .outOfBand)))

theorem in_session {s : State} {h : ReqHead} {idx sub : Nat} (w : writes s h idx sub = true) : InSession s h := by
  simp only [writes, Bool.and_eq_true, Bool.or_eq_true, Bool.not_eq_true', decide_eq_true_eq, List.isEmpty_iff] at w
  obtain ⟨⟨⟨a, b, c, d, e, f⟩, ⟨l, g, i, j⟩, k⟩, -, -⟩ := w
  exact ⟨⟨a, b, c, d, e, f⟩, l, g, i, j, by simp [k]⟩

theorem may_write {s : State} {h : ReqHead} {idx sub : Nat} (w : writes s h idx sub = true) : MayWrite s h idx sub := by
  refine ⟨in_session w, ?_⟩
  simp only [writes, Bool.and_eq_true, Bool.or_eq_true, Bool.not_eq_true', decide_eq_true_eq] at w
  obtain ⟨-, m, n⟩ := w
  exact ⟨m, fun o => by rcases n with n | n <;> simp_all⟩

end Sys2Proof.Tests

theorem test_meets_JobsStartAndEnd :
    ((jobAt (jobs 1 false) 0).st = 1 ∧ ((jobAt (jobs 1 false) 0).man.entries.map (·.1)).Nodup ∧
      (jobAt (jobs 1 false) 0).progress + 25000 * (jobAt (jobs 1 false) 0).man.plim ≤ (jobs 1 false).clocks.aux ∧
      (∀ st ∈ [2, 3], (jobAt (jobs st false) 0).st = st ∧ slotOf (jobs st false) (7 : Word32).toNat = some 0 ∧
        jobLive (jobAt (jobs st false) 0) = true ∧
        (jobAt (jobs st false) 0).progress + 25000 * (jobAt (jobs st false) 0).man.plim ≤ (jobs st false).clocks.aux) ∧
      (jobAt (jobs 4 true) 0).record = true) ∧ Quiet (jobs 4 true) :=
  ⟨by decide +kernel, quiet_of (by decide)⟩

theorem test_meets_JobRequestsAct :
    (MayWrite manifested mbox 0x1000 1 ∧ MayWrite (inSession (jobs 2 false)) oob 0x1010 5 ∧
    MayWrite (inSession (jobs 6 false)) mbox 0x1010 6 ∧ MayWrite (inSession (jobs 4 true)) mbox 0x1010 6 ∧
    MayWrite (inSession (jobs 2 false)) mbox 0x1020 1) ∧
    Quiet manifested ∧ Quiet (inSession (jobs 4 true)) ∧
    (manifested.admitHeld = none ∧ manifested.sec.unlock = none ∧ manifested.stook.bad = false ∧
    admitCheck manifested 65536 = 0 ∧ admitCheck manifested 0 = 1 ∧
    (upto 4).find? (fun i => decide ((jobAt manifested i).st = 0)) = some 0 ∧
    jobLive (jobAt (inSession (jobs 2 false)) 0) = true ∧
    4 ≤ (jobAt (inSession (jobs 6 false)) 0).st ∧ (jobAt (inSession (jobs 6 false)) 0).st ≤ 6 ∧
    (jobAt (inSession (jobs 4 true)) 0).record = true ∧
    (0x053F : Word64).toNat < 2 ^ 36 ∧ semJob (inSession (jobs 2 false)) ((0x053F : Word64).toNat % 2 ^ 20) ≠ 0 ∧
    urgentFull (inSession (jobs 2 false)) .host = false) :=
  ⟨⟨may_write (by decide +kernel), may_write (by decide +kernel), may_write (by decide +kernel),
    may_write (by decide +kernel), may_write (by decide +kernel)⟩, quiet_of (by decide), quiet_of (by decide),
    by decide +kernel⟩

namespace Sys2Proof.Tests

def session : State := inSession plain

/-- A store, or an erasure, of the settings is under way; an invalidation of job 7's table; a snapshot. -/
def storingNow (what : Option (KV Nat)) : State := { session with dict := { session.dict with storing := some what } }
def invalidatingNow : State :=
  { inSession (jobs 2 false) with dict := { (inSession (jobs 2 false)).dict with invalidating := some 7 } }
def snapshotting : State := { session with dict := { session.dict with snapshotting := true } }

/-- Context 3 halted by this fault, or by none. -/
def halted (f : Option StreamFault) : State :=
  inSession (streaming { streamOf (linearDesc []) with st := .halted, fault := f })

/-- The value that names it: Tiller 0.5, context 3. -/
def ccValue : Word32 := 0x00030005

/-- A demand fault whose page no longer lies in Barn. -/
def demand : StreamFault := ⟨3, 0, 0, 0⟩

/-- Port 30 of an Acre of two in this state. -/
def portIn (st : Nat) : State :=
  inSession { linked with links := { Links.reset with ports := [(30, { Port.reset with st := st, peer := 0 })] } }

end Sys2Proof.Tests

theorem test_meets_ServiceRequestsAct :
    MayWrite (inSession counting) mbox 0x287F 5 ∧ MayWrite (inSession countingA) oob 0x2C3F 5 ∧
    MayWrite session mbox 0x4500 7 ∧ MayWrite session mbox 0xA31F 1 ∧ MayWrite session oob 0x1202 1 ∧
    MayWrite session oob 0x1202 2 ∧ MayWrite session mbox 0x4010 1 ∧
    ((0x287F : BitVec 16).toNat = 0x2800 + 0x80 * 0 + 127 ∧ (furrow (inSession counting) 0 127).job ≠ 0 ∧
      furUp (inSession counting) 0 = true) ∧
    ((0x2C3F : BitVec 16).toNat = 0x2800 + 0x80 * 8 + 63 ∧ (furrow (inSession countingA) 8 63).job ≠ 0 ∧
      furUp (inSession countingA) 8 = true) ∧
    snapshotting.dict.snapshotting = true ∧ session.dict.storing = none ∧ session.dict.invalidating = none ∧
    (storingNow none).dict.storing = some none ∧ (storingNow (some [])).dict.storing = some (some []) ∧
    (invalidatingNow.dict.invalidating = some 7 ∧ slotOf invalidatingNow 7 = some 0) ∧
    snoopAll invalidatingNow [((jobAt invalidatingNow 0).man.ttb, 16 * (jobAt invalidatingNow 0).man.ttn)] false =
      (invalidatingNow, true) :=
  ⟨may_write (by decide +kernel), may_write (by decide +kernel), may_write (by decide +kernel),
    may_write (by decide +kernel), may_write (by decide +kernel), may_write (by decide +kernel),
    may_write (by decide +kernel), by decide +kernel, by decide +kernel, by decide +kernel, by decide +kernel, by decide +kernel,
    by decide +kernel, by decide +kernel, by decide +kernel, rfl⟩

theorem test_meets_HaltedStreamsAndPortsAreServed :
    MayWrite (halted none) mbox 0x4711 1 ∧ MayWrite (halted none) mbox 0x4711 2 ∧ MayWrite (halted none) mbox 0x4711 3 ∧
    MayWrite (portIn 4) mbox 0x5010 2 ∧ MayWrite (portIn 5) mbox 0x5010 3 ∧
    (ccValue.toNat = ctxValue cc ∧ (ctxAt (halted none) cc).st = .halted ∧
      slotOf (halted none) (ctxAt (halted none) cc).job = some 0 ∧ jobLive (jobAt (halted none) 0) = true ∧
      (ctxAt (halted none) cc).job = (7 : Word32).toNat) ∧
    ((ctxAt (halted (some demand)) cc).st = .halted ∧ (ctxAt (halted (some demand)) cc).fault = some demand ∧
      demand.kind = 3 ∧ stillInvalid (halted (some demand)) (ctxAt (halted (some demand)) cc) demand = false ∧
      running (halted (some demand)) 0x20 = true ∧ (ctxAt (halted none) cc).fault = none) ∧
    (beyondAcre (portIn 4) 30 = false ∧ (portAt (portIn 4) (30 : Byte).toNat).st = 4 ∧
      (portAt (portIn 5) (30 : Byte).toNat).st = 5 ∧ running (portIn 5) (portFn 30) = true) :=
  ⟨may_write (by decide +kernel), may_write (by decide +kernel), may_write (by decide +kernel),
    may_write (by decide +kernel), may_write (by decide +kernel), by decide +kernel⟩

namespace Sys2Proof.Tests

/-- The world with job 7 in slot 0, live, and this function control. -/
def controlled (fn : Nat) (c : FnCtl) (shadow : KV Nat) : State :=
  { inSession (jobs 2 false) with
    fns := [(fn, c)], dict := { (inSession (jobs 2 false)).dict with shadow := shadow } }

def inSt (st : FnSt) : FnCtl := { fnDefault .gz940 0x10 with st := st }

/-- An edit of the Riljo replay window (5003:02), whose set function 0x10 holds. -/
def replayEdit : KV Nat := [(od 0x5003 2, 100)]

/-- A request of CXL port 0, or out of band, that names no session. -/
def anon : ReqHead := ⟨.mailbox 0, 0, 9, 0, none⟩
def anonOob : ReqHead := ⟨.outOfBand, 0, 9, 0, none⟩

/-- A mailbox command of CXL port 0 whose payload is shorter than a header. -/
def short : ReqHead := { anon with bytes := some 8 }

/-- The owners of the Riljo identity are STOPPED. -/
def portsStopped : State := { session with fns := [(0x10, inSt .stopped), (0x11, inSt .stopped)] }

/-- Every session of CXL port 0 is taken, session 1 long ago. -/
def sessionsFull : State :=
  { plain with
    clocks := { Clocks.reset with aux := 25000 * 30000 },
    dict := { Dict.reset with sessions := (upto 4).map (fun i => (i + 1, { Session.reset with kind := 1 })) } }

end Sys2Proof.Tests

theorem test_meets_FunctionsTakeTheirCommands :
    (MayWrite (controlled 0x30 (inSt .running) []) mbox 0x1130 2 ∧ MayWrite (controlled 0x03 (inSt .running) []) oob 0x1103 2 ∧
      MayWrite (controlled 0x01 (inSt .running) []) mbox 0x1101 2 ∧
      MayWrite (controlled 0x10 (inSt .running) replayEdit) mbox 0x1110 2 ∧
      MayWrite (controlled 0x10 (inSt .stopped) replayEdit) mbox 0x1110 2) ∧
    (∀ fn ∈ [0x30, 0x03, 0x01, 0x10], fnPresent .gz940 fn = true ∧ (inSt .running).enable = false ∧
      (inSt .running).swapPending = false ∧ (inSt .running).lock = 0) ∧
    jobsUsing (controlled 0x30 (inSt .running) []) 0x30 = [] ∧ jobsUsing (controlled 0x01 (inSt .running) []) 0x01 = [0] ∧
    mayStart (controlled 0x10 (inSt .stopped) []) 0x10 = true ∧
    edited (controlled 0x10 (inSt .running) replayEdit) 0x10 = true ∧
    edited (controlled 0x10 (inSt .stopped) replayEdit) 0x10 = true :=
  ⟨⟨may_write (by decide +kernel), may_write (by decide +kernel), may_write (by decide +kernel),
    may_write (by decide +kernel), may_write (by decide +kernel)⟩, by decide +kernel⟩

theorem test_meets_FunctionsChangeState :
    (∃ s ∈ [controlled 0x60 { inSt .running with swapPending := true } []], (fnGet s 0x60).st = .running ∧
      (fnGet s 0x60).swapPending = true ∧ s.admitHeld = none ∧ unitsOf s 0x60 = [0]) ∧
    (∃ s ∈ [controlled 0x08 (inSt .stopping) []], (fnGet s 0x08).st = .stopping ∧ stopReady s 0x08 = true) ∧
    (∃ s ∈ [controlled 0x41 (inSt .starting) []], (fnGet s 0x41).st = .starting ∧ s.board.step = 11 ∧
      startHeld s 0x41 = false ∧ (fnGet s 0x41).stopRec = false) ∧
    (reasonFits 0x08 0x03 = true ∧ reasonFits 0x60 0x08 = true ∧ (fnGet plain 0x08).st = .running) ∧
    (∃ s ∈ [controlled 0x20 { inSt .faulted with before := .running } []], (fnGet s 0x20).st = .faulted ∧
      recoverReady s 0x20 = true ∧ s.sec.bootMode ≠ 2 ∧ (fnGet s 0x20).swapPending = false) ∧
    Controls plain 0x60 ∧ Controls plain 0x41 ∧ Controls plain 0x20 := by
  unfold Controls; decide +kernel

theorem test_meets_SettingsAreReadAndWritten :
    (MayWrite session mbox 0x5003 2 ∧ MayWrite session mbox 0x1000 2) ∧
    (odEntry 0x5003 2 = some (.u32, .rws) ∧ OdType.u32.long = false ∧ anon.sid = 0 ∧ anon.rsv = 0 ∧ anon.bytes = none ∧
      (toLe 4 100).length = OdType.u32.size ∧ valueCode session .u32 .rws 0x5003 2 (toLe 4 100) = 0 ∧
      setHolder 0x5003 = some 0x10 ∧ (fnGet session 0x10).lock = 0 ∧ (fnGet session 0x10).swapPending = false) ∧
    odEntry 0x1000 2 = some (.b1, .ro) ∧ entryCode 0x1000 2 = 0 ∧
    (∃ t ∈ [OdType.u8], odEntry 0x1000 0 = some (t, .con)) ∧
    (odEntry 0x5000 1 = some (.u16, .rwc) ∧ OdType.u16.long = false ∧ isPers 0x5000 1 = false ∧ (toLe 2 5).length = OdType.u16.size ∧
      (∀ s ∈ [session, portsStopped], ownerAbsent s (holderOf mbox.origin mbox.sid.toNat) 0x5000 = false ∧
        valueCode s .u16 .rwc 0x5000 1 (toLe 2 5) = 0) ∧
      (∀ o ∈ coldOwners 0x5000, (fnGet portsStopped o).st = .stopped) ∧
      ∃ o ∈ coldOwners 0x5000, (fnGet session o).st ≠ .absent ∧ (fnGet session o).st ≠ .stopped) := by
  exact ⟨⟨may_write (by decide +kernel), may_write (by decide +kernel)⟩, by decide +kernel⟩

theorem test_meets_SessionsOpenAndClose :
    (Serves plain anon.origin ∧ Serves plain anonOob.origin ∧ anon.sid = 0 ∧ anon.rsv = 0) ∧
    (sessionNumbers anon.origin).find? (fun n => decide ((sessionAt plain n).kind = 0)) = some 1 ∧
    (sessionNumbers anonOob.origin).find? (fun n => decide ((sessionAt plain n).kind = 0)) = some 5 ∧
    (∀ n ∈ sessionNumbers anon.origin, (sessionAt sessionsFull n).kind ≠ 0) ∧
    ((sessionAt sessionsFull 1).last + 25000 * setting sessionsFull 0x1201 1 ≤ sessionsFull.clocks.aux) ∧
    (short.origin = .mailbox 0 ∧ short.bytes = some 8 ∧ 8 ≠ 16 ∧ anon.bytes = none ∧ anonOob.bytes = none) ∧
    InSession session mbox ∧ InSession session oob := by
  exact ⟨by unfold Serves; decide +kernel, by decide +kernel, by decide +kernel, by decide +kernel, by decide +kernel, by decide,
    in_session (idx := 0x4500) (sub := 7) (by decide +kernel), in_session (idx := 0x4500) (sub := 7) (by decide +kernel)⟩

namespace Sys2Proof.Tests

/-- Port 0 or 1 carries CXL.mem. -/
def hosted : State := { plain with cxl := { Cxl.reset with port0 := { CxlPort.reset with up := true, width := 8, rate := 64, mem := true } } }

/-- The host behind port 0 holds line 64 and is asked for it. -/
def snooped (inv : Bool) : State :=
  { plain with cxl := { Cxl.reset with directory := [(64, 5)], snoops := [(0, 64, inv)] } }

abbrev flit : Nat → Nat → List Byte → Flit := flitOf false

/-- The sectors of a remote read or write of one sector at 0. -/
def request (write : Bool) : List Byte := if write then List.replicate 7 0 ++ [0x10] else []

/-- The write of one sector that a response with that flit's TAG ends. -/
def writeOut1 : Trans := ⟨30, 9, 0, 0, 0, true, 0, 1, [], 0, 0, false, .streamWrite cc, 7⟩

def answered : State := { linked with links := { linked.links with trans := [writeOut1] } }

/-- Port 30 in this state, with the flows and the transactions given. -/
def porting (x : Port) (t : List Trans) : State := { linked with links := { linked.links with ports := [(30, x)], trans := t } }

def upPort : Port := { Port.reset with st := 4, peer := 0 }

/-- A transaction whose flow has no route: timed out n times. -/
def lone (n : Nat) : Trans := ⟨30, 9, 0, 0, 0, true, 0, 1, [], n, 0, false, .gone, 7⟩

def trainMsg : TrainMsg := ⟨0, 0, .gz940, 1, 2, Config.riljoVersion, none, false, 1550⟩

/-- Port 31 stands in for port 30, which carries again. -/
def spared : State :=
  { linked with
    links := { linked.links with ports := [(30, upPort), (31, { Port.reset with st := 7, sub := 30 })] } }

/-- A flow to member 0 that is to move to no route at all. -/
def moving : State := { linked with links := { linked.links with flows := [(0, { Flow.reset with move := some none })] } }

theorem comes_well {s : State} {p typ nsec : Nat} {payload : List Byte} (h : nsec ≤ 5)
    (q : takes (portAt s p).st typ = true ∧ (portAt s p).rxSeq = 0) : ComesWell s p (flit typ nsec payload) typ :=
  ⟨q.1, flit_well false typ nsec payload h, rfl, fun _ => by rw [q.2]; rfl⟩

theorem training_accepted : heldReason (porting { upPort with st := 2, step := 4 } []) 30 trainMsg = 0 := by
  unfold heldReason
  rw [if_neg (by decide +kernel), if_neg (by decide +kernel), if_neg (by decide +kernel), if_neg (by decide +kernel),
    if_neg (by decide +kernel), if_neg (by simp [trainMsg])]

end Sys2Proof.Tests

theorem test_meets_HostAccessesReachTheGranary :
    PortServes hosted 0 0 ∧ PortServes hosted 0 (windowBytes - 64) ∧ [(1 : Byte)].length ≤ 64 - (windowBytes - 64) % 64 ∧
    (∀ inv ∈ [true, false], (snooped inv).cxl.snoops = [((0 : Fin 2).val, 64, inv)] ∧
      (snooped inv).cxl.directory = [(64, 5 * 2 ^ (0 : Fin 2).val)] ∧ (snooped inv).cxl.home = [] ∧
      (snooped inv).cxl.waiting = [] ∧ (snooped inv).links.inbox = [] ∧ (snooped inv).admitHeld = none ∧
      (snooped inv).stook.tasks = [] ∧ (snooped inv).stook.groups = []) ∧ ∀ inv, Still (snooped inv) := by
  have q : ∀ off, off < windowBytes → PortServes hosted 0 off := fun off h =>
    ⟨h, by decide +kernel, by decide +kernel, quiet_of (by decide), rfl, rfl, Or.inl rfl, rfl, rfl⟩
  exact ⟨q 0 (by decide), q _ (by decide), by decide, by decide +kernel,
    fun inv => (still_of (s := snooped inv) (by cases inv <;> decide))⟩

theorem test_meets_HostLinksComeAndGo :
    (1 : Fin 2) ≠ 0 ∧ startHeld hosted (0x40 + (0 : Fin 2).val) = false ∧ hosted.power.st ≠ .deepSleep ∧
      (cxlPort hosted 0).perst = false ∧ (cxlPort hosted 0).refclk = true ∧ 8 ≤ hosted.board.step ∧
      hosted.power.trip = false ∧ running hosted 0x40 = true ∧
      (∃ s ∈ [{ hosted with power := { Power.reset with st := .sleep } }], s.power.st = .sleep ∧ s.power.target = none ∧
        s.power.exiting = false ∧ s.power.trip = false ∧ bitAt (setting s 0x7000 4) 1 = true) := by
  decide +kernel

theorem test_meets_FlitsThatComeWellAreTaken :
    (ComesWell linked 30 (flit 0 0 []) 0 ∧ ComesWell linked 30 (flit 5 0 []) 5 ∧ ComesWell linked 30 (flit 7 1 []) 7 ∧
      ComesWell { linked with sems := [(sem63, ⟨65533, [], []⟩)] } 30 (flit 4 1 []) 4 ∧
      ComesWell (reducing [ringWindow]) 30 (flit 3 1 []) 3) ∧
    (takes (portAt linked 30).st 5 = true ∧ flitBad (flitOf true 5 0 []) 5 = false ∧ (flitOf true 5 0 []).nak = true) ∧
    ((flit 0 0 []).dst.toNat = myId linked ∧ semOk sem63 = true ∧ (semTil sem63).isSome = true ∧
      (sem { linked with sems := [(sem63, ⟨65533, [], []⟩)] } sem63).count + (2 : BitVec 16).toNat ≤ 65535) ∧
    (groupAt (reducing [ringWindow]) 3 = some (ringGroup [ringWindow]) ∧
      (jobOf (reducing [ringWindow]) (ringGroup [ringWindow]).job).st = 2 ∧ running (reducing [ringWindow]) 0x50 = true ∧
      inProgress (ringGroup [ringWindow]) < 64 ∧ (reducing [ringWindow]).links.stookIn = [] ∧
      (toLe 64 (192 * 2 ^ 64)).length ≤ 64 * (flit 3 1 []).nsec.toNat ∧
      windowOver (ringGroup [ringWindow]) 0 = false ∧ hdrReason ((toLe 64 (192 * 2 ^ 64)).take 64) = none ∧
      (windowAt (ringGroup [ringWindow]) 0).taken.elem 0 = false) ∧
    (portAt (linkTaken (reducing [ringWindow]) 30 (flit 3 1 []) 3) 30).parts = [] :=
  ⟨⟨comes_well (by decide) (by decide +kernel), comes_well (by decide) (by decide +kernel),
      comes_well (by decide) (by decide +kernel), comes_well (by decide) (by decide +kernel),
      comes_well (by decide) (by decide +kernel)⟩,
    ⟨by decide +kernel, flit_well true 5 0 [] (by decide), rfl⟩, by decide +kernel, by decide +kernel,
    by unfold linkTaken acked; rw [count_well (by decide)]; decide +kernel⟩

/-- A read of the sector at 0, a write of it, the response to a write, and a REPLAY_NOTICE of a flow with one transaction. -/
theorem test_meets_TransactionsAreServed :
    (∀ w ∈ [true, false], ∀ f ∈ [flit 1 (if w then 2 else 1) (request w)], RequestComes linked 30 f (descOf (sectorsIn f)) ∧
      Sys2Proof.Machine.descOp (descOf (sectorsIn f)) = (if w then 1 else 0) ∧
      (w = true → 1 + Sys2Proof.Machine.descLen (descOf (sectorsIn f)) = f.nsec.toNat)) ∧
    linked.heldFailed = [] ∧
    (∀ f ∈ [flit 2 1 []], ∀ d ∈ [descOf (sectorsIn f)], ComesWell answered 30 f 2 ∧ f.dst.toNat = myId answered ∧
      (portAt (linkTaken answered 30 f 2) 30).parts = [] ∧ f.nsec.toNat = 1 ∧ responseBad d = false ∧
      transOf answered f (Sys2Proof.Machine.descEseq d) = some writeOut1 ∧ Sys2Proof.Machine.descLen d = writeOut1.sectors ∧
      writeOut1.write = true ∧ Sys2Proof.Machine.descOp d = 0) ∧
    (∃ s ∈ [{ answered with links := { answered.links with flows := [(0, { Flow.reset with route := some [(1, 30)] })] } }],
      flowEgress s 0 0 = some 30 ∧ ∀ x ∈ s.links.trans, x.dst = 0 → x.vc = 0 → x.port = 30 ∧ x.parked = false) := by
  have c : ∀ w, ComesWell linked 30 (flit 1 (if w then 2 else 1) (request w)) 1 := fun w => by
    cases w <;> exact comes_well (by decide) (by decide +kernel)
  refine ⟨fun w _ f hf => ?_, rfl, fun f hf d hd => ?_, by decide +kernel⟩
  · rw [List.mem_singleton.mp hf]
    refine ⟨⟨c w, ?_, ?_, rfl, ?_, ?_, ?_, rfl, quiet_of (by decide)⟩, ?_, ?_⟩
    case _ => cases w <;> decide +kernel
    case _ =>
      unfold linkTaken acked
      rw [count_well (by cases w <;> decide)]
      cases w <;> decide +kernel
    all_goals cases w <;> decide +kernel
  · rw [List.mem_singleton.mp hd, List.mem_singleton.mp hf]
    refine ⟨comes_well (by decide) (by decide +kernel), by decide +kernel, ?_, by decide +kernel⟩
    unfold linkTaken acked
    rw [count_well (by decide)]
    decide +kernel

theorem test_meets_PortsTrainCarryAndRetire :
    ComesWell (porting { upPort with st := 2, step := 4 } []) 30 (flit 6 1 []) 6 ∧
    heldReason (porting { upPort with st := 2, step := 4 } []) 30 trainMsg = 0 ∧
    (running linked (portFn 30) = true ∧ beyondAcre linked 30 = false ∧ portsRest linked = false ∧ linked.clocks.aux = 0 ∧
      (∃ x ∈ [{ Port.reset with st := 1 }], x.since = none) ∧
      (∃ x ∈ [{ upPort with st := 2, step := 3, reason := 0x10 }], x.st = 2 ∧ x.step < 4 ∧ x.reason < 0x11 ∧
        x.stepSince + stepLimit x ≤ 1000000000 ∧ x.stepSince + 2250 < 1000000000)) ∧
    (∃ x ∈ [{ upPort with replay := [⟨1, 1, 0, 1, 0, 0, 9, [], .none, none, 0⟩], replaysInWindow := 4097, noProgress := 14 }],
      ∃ s ∈ [{ porting x [] with clocks := { Clocks.reset with port := [(30, 2 ^ 30)] } }],
      portAt s 30 = x ∧ carries x = true ∧ x.noProgress + 1 < 16 ∧ x.replay ≠ [] ∧ x.lastAck + 8192 ≤ portClock s 30 ∧
        x.windowStart + 2 ^ 30 ≤ portClock s 30 ∧ portSetting s 30 0x5003 2 < x.replaysInWindow) ∧
    (∃ s ∈ [porting upPort []], carries (portAt s 30) = true ∧ ∀ e ∈ s.links.map, e.module ≠ (portAt s 30).peer) ∧
    ((portAt spared 31).st = 7 ∧ (portAt spared (portAt spared 31).sub.toNat).st = 4 ∧ (portAt spared 31).egress = [] ∧
      (portAt spared 31).replay = [] ∧ spared.links.trans.any (fun t => decide (t.port = 31)) = false) ∧
    (∀ n ∈ [0, 1], ∃ s ∈ [{ porting upPort [lone n] with clocks := { Clocks.reset with port := [(30, 2 ^ 30)] } }],
      s.links.trans.find? (fun y => decide (y.port = 30 ∧ y.tag = (9 : BitVec 12).toNat) && !y.parked) = some (lone n) ∧
      (lone n).since + portSetting s 30 0x5003 1 ≤ portClock s 30 ∧ flowEgress s 0 0 = none ∧ (lone n).owner = .gone) ∧
    (flowAt moving 0 0).move = some none ∧ flowBusy moving 0 0 = false :=
  ⟨comes_well (by decide) (by decide +kernel), training_accepted, by decide +kernel⟩

namespace Sys2Proof.Tests

/-- Session 1 is open in a module where no job lives. -/
def resting : State := inSession plain

/-- Asleep for 1 ms, the wake timer at 1 ms and enabled. -/
def sleeping (st : PowerSt) : State :=
  { plain with
    power := { Power.reset with st := st }, clocks := { Clocks.reset with aux := 25000 },
    dict := { Dict.reset with active := [(od 0x7000 7, 1)] } }

def offModule : State :=
  { plain with
    board := { Board.reset with step := 3, offEntered := true, modrdy := none },
    power := { Power.reset with st := .off, inputMv := 40000 } }

def leaving : State := { plain with power := { Power.reset with st := .sleep, exiting := true } }

/-- In Run with nothing to do since 10 ms. -/
def idling : State :=
  { plain with power := { Power.reset with st := .run }, clocks := { Clocks.reset with aux := 250000 } }

/-- Alerted by the board, or by the undervoltage of its input. -/
def alertedBy (under : Bool) : State :=
  { plain with power := { Power.reset with alertBoard := !under, underVolt := under } }

def holding : State :=
  { plain with power := { Power.reset with holdSince := some 0 }, clocks := { Clocks.reset with aux := 250000 } }

/-- The Tiller with its Drill in this gate state, 256 clocks after time count 0. -/
def gated (g : Gate) : State :=
  { world { till [] with gate := g } with clocks := { Clocks.reset with tc := [(0, 256)] } }

end Sys2Proof.Tests

theorem test_meets_PowerStatesAreEnteredAndLeft :
    MayWrite resting mbox 0x7000 2 ∧ (anyLive resting = false ∧ fnBusy resting = false) ∧
    (∀ st ∈ [PowerSt.sleep, .deepSleep], (sleeping st).power.st = st ∧ (sleeping st).power.target = none ∧
      (sleeping st).power.exiting = false ∧ (sleeping st).power.trip = false ∧ (sleeping st).board.step = 11 ∧ setting (sleeping st) 0x7000 7 = 1 ∧
      (sleeping st).power.entryAux + 25000 * 1 ≤ (sleeping st).clocks.aux ∧ bitAt (setting (sleeping st) 0x7000 4) 4 = true) ∧
    (offModule.board.aux = true ∧ offModule.board.step = 3 ∧ offModule.board.offEntered = true ∧
      offModule.board.thermtrip = false ∧ 40000 ≤ offModule.power.inputMv ∧ offModule.power.inputMv ≤ 60000) ∧
    (leaving.power.exiting = true ∧ leaving.dict.deferred = [] ∧ leaving.admitHeld = none ∧ leaving.cxl.waiting = []) ∧
    (idling.power.st = .run ∧ anyLive idling = false ∧ idling.power.target = none ∧
      idling.power.idleSince + 25000 * setting idling 0x7000 6 ≤ idling.clocks.aux) :=
  ⟨may_write (by decide +kernel), by decide +kernel⟩

theorem test_meets_FieldsFollowHeatAndAlerts :
    (∃ s ∈ [{ plain with clocks := { Clocks.reset with selty := [(0, 500000)] } }], s.board.step = 11 ∧ s.power.trip = false ∧
      s.power.st = .run ∧ s.dict.changeover = false ∧ (fnGet s 0).swapPending = false ∧
      s.power.periodAt + 500000 ≤ seltyNow s s.reli.inCharge) ∧ alertActs plain = true ∧ 4 ≤ plain.board.step ∧
    (115000 : Int) = threshold plain (sensorClass 0) 3 ∧ (95000 : Int) = threshold plain (sensorClass 88) 3 ∧
    (∀ u ∈ [true, false], alerted (alertedBy u) = true ∧ (alertedBy u).power.underVolt = u ∧
      (alertedBy u).power.alertBoard = (!u) ∧ (alertedBy u).power.overcurrent = false ∧ (alertedBy u).board.step = 11) ∧
    (holding.power.holdSince = some 0 ∧ 0 + 25000 * setting holding 0x7040 2 ≤ holding.clocks.aux) ∧
    (tcOn (gated .running) = true ∧ (til (gated .running) tt).gate = .running ∧ drillEmpty (til (gated .running) tt) = true ∧
      256 ≤ tcNow (gated .running) 0 - (til (gated .running) tt).drillIdle) ∧
    (∀ g ∈ [Gate.asking 0, .waitGrant 0, .rampUp 64, .rampDown 64], (til (gated g) tt).gate = g ∧ tcOn (gated g) = true ∧
      kvGet 0 (gated g).power.gateFrom 0 ≤ tcNow (gated g) 0 ∧ 64 + 192 ≤ tcNow (gated g) 0) ∧
    (∃ s ∈ [{ gated (.waitGrant 0) with power := { Power.reset with startFrom := [(0, 300)], gateFrom := [(0, 300)] } }],
      tcNow s 0 < kvGet 0 s.power.startFrom 0 ∧ tcNow s 0 < kvGet 0 s.power.gateFrom 0) := by
  decide +kernel

theorem test_meets_TheBoardIsObeyed :
    4 ≤ plain.board.step ∧ plain.board.aux = true ∧ staticAddress plain.board ≠ 0 ∧ some (staticAddress plain.board) ≠ none ∧
    (∃ s ∈ [{ plain with board := { Board.reset with step := 0, aux := false } }], s.board.aux = false) ∧
    (∃ s ∈ [{ plain with board := { Board.reset with step := 3 } }], s.board.aux = true ∧ s.board.step = 3 ∧
      s.board.offEntered = false ∧ s.board.thermtrip = false) ∧
    (∃ s ∈ [{ plain with
        sec := { Sec.reset with debugPort := 1 }, board := { Board.reset with scan := (false, true, true, true) } }],
      s.sec.debugPort ≠ 0 ∧ s.board.scan.1 = false) := by
  decide +kernel

namespace Sys2Proof.Tests

/-- Session 1 is open in a module with this reliability state, this security state, and a changeover under way or not. -/
def guarded (r : Reli) (x : Sec) (changing : Bool) : State :=
  { session with reli := r, sec := x, dict := { session.dict with changeover := changing } }

/-- The inactive slot holds a checked image; or one just uploaded. -/
def withImage : Sec := { Sec.reset with slot1 := ⟨[], true⟩ }
def uploaded : Sec := { Sec.reset with upload := 1, slot1 := ⟨[1], false⟩ }

def boxRec : BoxRec := ⟨0, 0, 0, 0, 0, 1, [], true⟩

/-- A requester has come so far on MCTP. -/
def talking (c : SpdmConn) : State := { plain with sec := { Sec.reset with conns := [(.mctp, c)] } }

def agreed : SpdmConn := ⟨0x13, true, true, true⟩

/-- A session of it, established or not, and a chain of two bytes in slot 1 with its key. -/
def secured (done : Bool) : State :=
  { plain with
    sec := { Sec.reset with
      conns := [(.mctp, agreed)], sessions := [(1, .mctp, done)], nextSess := 2, keys := [(1, ⟨0, 1⟩)], chains := [(1, [1, 2])] } }

/-- The frame of a certificate for that key. -/
def ownCert : List Byte := derSeq [derSeq (List.replicate 6 (der 0x05 []) ++ [keyInfo (2 ^ 4095)])]

end Sys2Proof.Tests

theorem test_meets_ControllersTakeTurns :
    (plain.board.step = 11 ∧ plain.dict.changeover = false) ∧
    (∃ s ∈ [guarded Reli.reset Sec.reset true], s.dict.changeover = true ∧ activating s = false ∧ s.reli.inCharge < 2) ∧
    (∃ s ∈ [guarded { Reli.reset with upB := false, failedStarts := 2 } Sec.reset false], standbyUp s = false ∧
      s.reli.failedStarts < 3 ∧ activating s = false ∧ s.reli.inCharge < 2) ∧
    (MayWrite (guarded Reli.reset withImage false) mbox 0x7830 1 ∧ activating (guarded Reli.reset withImage false) = false ∧
      bothUp (guarded Reli.reset withImage false) = true ∧ (inactiveSlot (guarded Reli.reset withImage false)).checked = true) ∧
    (∃ s ∈ [guarded { Reli.reset with activation := 1 } withImage true], s.reli.activation = 1 ∧ s.dict.changeover = true ∧
      s.reli.inCharge = 0) ∧
    (∃ s ∈ [guarded { Reli.reset with queue := [boxRec] } Sec.reset false], s.reli.queue = boxRec :: [] ∧
      s.reli.boxA.length < 131072 ∧ s.reli.boxB.length < 131072) :=
  ⟨by decide +kernel, by decide +kernel, by decide +kernel, ⟨may_write (by decide +kernel), by decide +kernel⟩,
    by decide +kernel, by decide +kernel⟩

/-- A debug unlock whose next step is n. -/
def unlocking (n : Nat) : State := { session with sec := { session.sec with unlock := some (n, 1, 3) } }

theorem test_meets_FirmwareAndFusesAreGuarded :
    (MayWrite session mbox 0x8020 1 ∧ MayWrite session oob 0x8010 2 ∧ MayWrite session oob 0x8010 3 ∧
      MayWrite session oob 0x8040 1 ∧ MayWrite session oob 0x8040 2) ∧
    (([] : List Byte).length ≤ 4080 ∧ firstSegment [] = none ∧ session.sec.upload = 0 ∧ activating session = false) ∧
    ((guarded Reli.reset uploaded false).sec.upload = 1 ∧ (guarded Reli.reset uploaded false).sec.bootMode ≠ 2) ∧
    (bothUp session = true ∧ session.sec.runA.version = session.sec.runB.version) ∧
    ((0x8F : Byte).toNat / 16 % 8 = 0 ∧ keyRuns (guarded { Reli.reset with upA := false, upB := false } Sec.reset false) 15 = false ∧
      MayWrite (guarded { Reli.reset with upA := false, upB := false } Sec.reset false) oob 0x8010 3) ∧
    (∃ s ∈ [guarded Reli.reset { Sec.reset with runA := { Sec.reset.runA with keyid := 15 } } false], keyRuns s 15 = true ∧
      MayWrite s oob 0x8010 3) ∧
    (session.sec.openCount < 32 ∧ anyLive session = false ∧ session.sec.refusedTokens < 8 ∧ session.sec.debugPort = 0 ∧
      session.sec.unlock = none) ∧
    (6 ≤ (unlocking 5).board.step ∧ (unlocking 5).power.trip = false ∧ (unlocking 5).sec.unlock = some (5, 1, 3)) ∧
    (unlocking 6).sec.unlock = some (6, 1, 3) ∧ (unlocking 7).sec.unlock = some (7, 1, 3) ∧
    (unlocking 8).sec.unlock = some (8, 1, 3) :=
  ⟨⟨may_write (by decide +kernel), may_write (by decide +kernel), may_write (by decide +kernel),
      may_write (by decide +kernel), may_write (by decide +kernel)⟩,
    by decide +kernel, by decide +kernel, ⟨by decide +kernel, rfl⟩,
    ⟨by decide, by decide +kernel, may_write (by decide +kernel)⟩,
    ⟨_, List.mem_singleton.mpr rfl, by decide +kernel, may_write (by decide +kernel)⟩, by decide +kernel,
    by decide +kernel, rfl, rfl, rfl⟩

theorem test_meets_SpdmRequestsAreAnswered :
    (Listens plain .mctp ∧ Listens plain (.doe 1) ∧ Talks (guarded Reli.reset Sec.reset true) .mctp ∧ Listens (talking ⟨0x13, true, false, false⟩) .mctp ∧
      connOf (talking ⟨0x13, true, false, false⟩) .mctp = some ⟨0x13, true, false, false⟩) ∧
    (∀ done ∈ [true, false], Agreed (secured done) .mctp ∧ sessOf (secured done) .mctp 1 = some done ∧
      connOf (secured done) .mctp = some agreed ∧ chainOf (secured done) 1 = some [1, 2] ∧
      (secured done).sec.sessions.length < 4 ∧ (secured done).sec.aliasKey = false ∧
      kvFind (secured done).sec.keys 1 = some ⟨0, 1⟩) ∧ certModulus ownCert = some (RsaKey.n ⟨0, 1⟩) ∧
    certModulus [] ≠ some (RsaKey.n ⟨0, 1⟩) ∧
    (∃ b, measure plain 9 = some b) ∧ agreed.caps = true ∧ agreed.kex = true := by
  refine ⟨by unfold Listens Talks; decide +kernel, ?_, by decide +kernel, by decide +kernel, ⟨_, rfl⟩, rfl, rfl⟩
  intro done _
  cases done <;> exact ⟨⟨by unfold Listens Talks; decide +kernel, agreed, rfl, rfl⟩, by decide +kernel⟩

theorem test_meets_MctpControlMessagesAreAnswered :
    (firmwareUp plain = true ∧ plain.power.trip = false ∧ addressed plain = true ∧ plain.power.st = .run ∧
      plain.power.target = none ∧ plain.power.exiting = false) ∧ (0x1D : Byte) ≠ 0 ∧ (0x1D : Byte) ≠ 0xFF := by
  decide +kernel

theorem test_meets_StepRunsTheFrontCommand : plain.pending = [] := rfl

theorem test_meets_WellFormedCommandsAnswerANextState : (Instr.add th 1 2 3).wf = true ∧ (Instr.granaryRequestAdmitted
    ⟨.headlandB, 2 ^ 33 - 1, true, 63, [9]⟩).wf = true := by
  decide +kernel

theorem test_meets_EveryStepKeepsTheGranaryForm : GranaryOk plain ∧ ∃ s', step plain = .next s' := ⟨rfl, _, rfl⟩

theorem test_meets_EveryStepKeepsTheFuses : ∃ s', step { plain with pending := [.auxLost] } = .next s' := ⟨_, rfl⟩

/-! ## Each check of a command refuses what it names -/

namespace Sys2Proof.Tests

/-- A MAP message of one port of this number. -/
def mapOf (port : Nat) : MapMsg := ⟨0, 1, false, false, [(port, 4, 1, 0)]⟩

def fullFlit : Flit := bareFlit false 5 (List.replicate 320 0)

end Sys2Proof.Tests

/-- A word of another opcode, of another FN, and without the tile marker. -/
theorem test_refuses_tileWord :
    (Instr.mma th (tile 1 [])).malformed = some .tileWord ∧ (Instr.beltAdd th (tile 8 [(56, 2)])).malformed = some .tileWord ∧
      (Instr.sdrain th 0).malformed = some .tileWord ∧ (Instr.beltAdd th (tile 8 [(56, 1)])).malformed = none := by
  decide +kernel

theorem test_refuses_counterName :
    (Instr.furrowServe 8 64).malformed = some .counterName ∧ (Instr.furrowServe 7 127).malformed = none ∧
      (Instr.counterArmWrite mbox 0x2C40 0).malformed = some .counterName := by
  decide +kernel

theorem test_refuses_semaphoreName :
    (Instr.waiterServed 0x40).malformed = some .semaphoreName ∧ (Instr.waiterServed 0x3F).malformed = none := by
  decide +kernel

theorem test_refuses_sectorSpan :
    (Instr.granaryRequestAdmitted ⟨.headlandB, 2 ^ 33, false, 0, []⟩).malformed = some .sectorSpan ∧
      (Instr.granaryRequestAdmitted ⟨.headlandB, 0, true, 63, [1, 2]⟩).malformed = some .sectorSpan := by
  decide +kernel

theorem test_refuses_baleAddress : (Instr.deferredEviction 2048).malformed = some .baleAddress := by decide +kernel

theorem test_refuses_unitIndex : (Instr.tilePost 3 63 1).malformed = some .unitIndex := by decide +kernel

theorem test_refuses_lineSpan :
    (Instr.cxlMemRead 0 (504 * 2 ^ 30) .clean).malformed = some .lineSpan ∧
      (Instr.cxlMemWrite 0 63 [1, 2]).malformed = some .lineSpan ∧ (Instr.cxlMemWrite 0 63 [1]).malformed = none := by
  decide +kernel

theorem test_refuses_rowNumber : (Instr.rowRepairComplete bank0 16384).malformed = some .rowNumber := by decide +kernel

theorem test_refuses_valueLength :
    (Instr.write mbox (entry 0x5003 2) 0 (List.replicate 4081 0)).malformed = some .valueLength := by
  decide +kernel

theorem test_refuses_nonceLength : (Instr.challenge .mctp 0 []).malformed = some .nonceLength := by decide +kernel

theorem test_refuses_keyShare : (Instr.keyExchange .mctp 0 []).malformed = some .keyShare := by decide +kernel

theorem test_refuses_flit :
    (Instr.idle 0 (bareFlit false 0 [])).malformed = some .flit ∧ (Instr.map 0 fullFlit (mapOf 64)).malformed = some .flit ∧
      (Instr.map 0 fullFlit (mapOf 63)).malformed = none := by
  decide +kernel

/-! ## The manual's worked examples -/

namespace Sys2Proof.Tests

/-- The block of the worked conversion of chapter 2: its elements as multiples of 2^-10 × 2^-10. -/
def exampleBlock : List FV :=
  [.fin false 483328 (-20), .fin true 104858 (-20), .fin false 52429 (-20), .fin false 24576 (-20), .fin true 3072 (-20),
    .fin false 209715 (-20), .fin false 0 0, .fin true 356516 (-20)] ++ List.replicate 24 (.fin false 8192 (-20))

/-- Adds 16 777 216, four times 3, and −16 777 216 (Table 03-6). -/
def cancelling : List FV := [.fin false 16777216 0] ++ List.replicate 4 (.fin false 3 0) ++ [.fin true 16777216 0]

def ecSum : Word32 × Word32 := cancelling.foldl (fun c p => ((addEc c.1 c.2 p).s, (addEc c.1 c.2 p).e)) (0, 0)

def plainSum : Word32 := cancelling.foldl (fun c p => (addPlain c p).s) 0

/-- Session 5 has locked the job engine's set with a new threshold of class 2. -/
def hotChange : State :=
  { session with
    fns := [(0x60, { fnDefault .gz940 0x60 with lock := 5 })],
    dict := { session.dict with shadow := [(od 0x3012 1, 40000)] } }

/-- The last answer of the dictionary: its abort code and its data. -/
def lastReply (a : Answer) : Option (Nat × List Byte) :=
  match a with
  | .next s => (match s.out.head? with
    | some (.dict _ r) => some (r.abort, r.data)
    | _ => none)
  | _ => none

/-- A value of the thread after one command. -/
def after (a : Answer) (r : Reg) : Word64 :=
  match a with
  | .next s => reg (thread s th) r
  | _ => 0

/-- The thread with 2 in x1, all ones in x2, 64 in x3. -/
def scalars : State := world (till [(1, 2), (2, 0xFFFFFFFFFFFFFFFF), (3, 64)])

end Sys2Proof.Tests

/-- Chapter 2, worked conversions: MXFP4 under the fit rule. -/
theorem test_mxfp4_example :
    (convBlock 0xB 0 0 exampleBlock none).scale = 0x7C ∧
      packCodes 0xB (convBlock 0xB 0 0 exampleBlock none).codes = [0xA6, 0x01, 0x38, 0xD0] ++ List.replicate 12 0 ∧
      (convBlock 0xB 0 0 exampleBlock none).count.overs = 0 ∧ (convBlock 0xB 0 0 exampleBlock none).count.vanish = 26 := by
  decide +kernel

/-- The same under the floor rule: element 0 saturates. -/
theorem test_mxfp4_floor_example :
    (convBlock 0xB 1 0 exampleBlock none).scale = 0x7B ∧ natAt (convBlock 0xB 1 0 exampleBlock none).codes 0 = 7 ∧
      (convBlock 0xB 1 0 exampleBlock none).count.overs = 1 := by
  decide +kernel

/-- The same in Tilth4. -/
theorem test_tilth4_example :
    (convBlock 0xD 0 0 exampleBlock none).scale = 0x7C ∧ (convBlock 0xD 0 0 exampleBlock none).side = 0xFC ∧
      packCodes 0xD (convBlock 0xD 0 0 exampleBlock none).codes = [0xA6, 0x01, 0x38, 0xD0] ++ List.replicate 12 0x11 ∧
      (convBlock 0xD 0 0 exampleBlock none).count.vanish = 2 := by
  decide +kernel

/-- The same, escalated to MXFP8 E4M3: 240 is code 0x77, and 4.0 code 0x48. -/
theorem test_escalation_example :
    (convBlock 6 0 0 exampleBlock none).scale = 0x76 ∧ natAt (convBlock 6 0 0 exampleBlock none).codes 0 = 0x77 ∧
      natAt (convBlock 6 0 0 exampleBlock none).codes 31 = 0x48 ∧ (convBlock 6 0 0 exampleBlock none).count.vanish = 0 := by
  decide +kernel

/-- Chapter 2, the drain under SR: 0x3F80_4000 with two draws. -/
theorem test_sr_example :
    srCode bf16 0x804000 (-23) 0x2A17 = 0x3F81 ∧ srCode bf16 0x804000 (-23) 0x9C3E = 0x3F80 := by
  decide +kernel

/-- Table 03-6: the plain mode keeps 16, the EC mode 16 and −4, and drains 12. -/
theorem test_sheaf_example :
    plainSum = 0x41800000 ∧ ecSum = (0x41800000, 0xC0800000) ∧ fadd ecSum.1 ecSum.2 = 0x41400000 := by
  decide +kernel

/-- Chapter 9: member 3 leaves for member 9 by port 5, and arrives at its port 25; so do members 14 and 20. -/
theorem test_route_example : acrePort 3 9 = 5 ∧ acrePort 9 3 = 25 ∧ acrePort 14 20 = 5 ∧ acrePort 20 14 = 25 := by
  decide +kernel

/-- Chapter 12, the hot change: session 1 finds the set locked by session 5, which reads 40 000 in the shadow set and 50 000 in
the active one. -/
theorem test_hot_change_example :
    (lastReply (execWrite mbox (entry 0x3012 5) 0 [1] hotChange)).map (·.1) = some 0x0403 ∧
      (lastReply (execRead oob (entry 0x3012 1) 1 0 hotChange)).map (fun r => leNat r.2) = some 40000 ∧
      (lastReply (execRead oob (entry 0x3012 1) 0 0 hotChange)).map (fun r => leNat r.2) = some 50000 := by
  decide +kernel

/-! ## Corners of single commands -/

/-- Table 04-2: a shift takes rb[5:0], so 64 shifts by 0; the upper half of a product; a quotient by zero. -/
theorem test_scalar_corners :
    after (execShl th 4 1 3 scalars) 4 = 2 ∧ after (execSar th 4 2 3 scalars) 4 = 0xFFFFFFFFFFFFFFFF ∧
      after (execMulhu th 4 2 2 scalars) 4 = 0xFFFFFFFFFFFFFFFE ∧ after (execDivu th 4 1 0 scalars) 4 = 0xFFFFFFFFFFFFFFFF ∧
      after (execRemu th 4 1 0 scalars) 4 = 2 := by
  decide +kernel

/-- R112: x0 reads as zero and discards what is written to it. -/
theorem test_x0 : after (execAddi th 0 1 5 scalars) 0 = 0 ∧ after (execAddi th 4 2 1 scalars) 4 = 0 := by decide +kernel

/-- R266: α^0 to α^9 are the roots of the generator, and of every codeword; one symbol in error is no codeword. -/
theorem test_fec_codeword :
    fecGenerator.length = 11 ∧ (∀ i ∈ [0, 1, 9], fecSyndrome fecGenerator i = 0 ∧ fecSyndrome (fecCodeword [5, 3]) i = 0) ∧
      fecSyndrome fecGenerator 10 ≠ 0 ∧ fecSyndrome (fecCodeword [5, 3] ++ [1]) 1 ≠ 0 ∧
      fecCorrects [0, 20, 40, 60, 159] = true ∧ fecCorrects [0, 20, 40, 60, 159, 8] = false := by
  decide +kernel

end
end

section
/-! The landing of partials (R75, R77, R79, R92, R93, R98): what one addition, one group and one PARTIAL_LANDS do to a Sheaf
and leave alone, and the settling of O19. -/
namespace Sys2Proof.Machine

/-! ## One addition (R92, R93) -/

/-- A finite sum within the FP32 range is rounded into a plain entry. -/
theorem addPlain_fin {c : Word32} {p x : FV} {neg : Bool} {m : Nat} {ex : Int} (hx : x = (val32 c).add p)
    (hfin : x = .fin neg m ex) (hover : over32 x = false) :
    addPlain c p = { s := rn32 x, e := 0, sat := false, becameNan := false } := by
  subst hfin
  simp [addPlain, ← hx, hover]

/-- In EC mode the same sum is rounded into s, and the residual of that rounding is added to e. -/
theorem addEc_fin {c : Word32} (e : Word32) {p x : FV} {neg : Bool} {m : Nat} {ex : Int} (hx : x = (val32 c).add p)
    (hfin : x = .fin neg m ex) (hover : over32 x = false) :
    addEc c e p = { s := rn32 x, e := rn32 ((val32 e).add (x.sub (val32 (rn32 x)))), sat := false, becameNan := false } := by
  subst hfin
  simp [addEc, ← hx, hover]

/-! ## Sheaves and their entries -/

theorem sheafOf_setSheaf (y : Tiller) (sh k : Nat) (x : Sheaf) :
    sheafOf (setSheaf y sh x) k = if k = sh then some x else sheafOf y k := kvFind_kvPut _ _ _ _

theorem cell_setCell (x : Sheaf) (row col r c : Nat) (v : Word32 × Word32) :
    cell (setCell x row col v) r c = if 256 * r + c = 256 * row + col then v else cell x r c := kvGet_kvSet _ _ _ _ _

/-- The entry that an addition leaves depends on its Sheaf through the mode alone. -/
theorem addedEntry_congr {x x' : Sheaf} (h : x'.mode = x.mode) (c : Word32 × Word32) (p : FV) (draw : Nat) :
    addedEntry x' c p draw = addedEntry x c p draw := by simp only [addedEntry, h]

theorem foldUpto_succ {α : Type} (n : Nat) (a : α) (f : α → Nat → α) : foldUpto (n + 1) a f = f (foldUpto n a f) n := by
  simp [foldUpto, upto, List.range_succ]

/-! ## One row of additions, as a function of the Sheaf -/

/-- A Sheaf after the partials p 0 to p (n - 1) are added, under draw 0, to the entries of a row from column col0 on: the whole
effect of landGroup on the Sheaf it adds to (`landGroup_sheafOf`). -/
def addRow (x : Sheaf) (row col0 : Nat) (p : Nat → FV) (n : Nat) : Sheaf :=
  foldUpto n x (fun x c => setCell x row (col0 + c) (addedEntry x (cell x row (col0 + c)) (p c) 0))

theorem addRow_succ (x : Sheaf) (row col0 : Nat) (p : Nat → FV) (n : Nat) :
    addRow x row col0 p (n + 1) = setCell (addRow x row col0 p n) row (col0 + n)
      (addedEntry (addRow x row col0 p n) (cell (addRow x row col0 p n) row (col0 + n)) (p n) 0) :=
  foldUpto_succ _ _ _

@[simp] theorem addRow_mode (x : Sheaf) (row col0 : Nat) (p : Nat → FV) (n : Nat) :
    (addRow x row col0 p n).mode = x.mode := by
  induction n with
  | zero => rfl
  | succ n ih => rw [addRow_succ]; exact ih

@[simp] theorem addRow_owner (x : Sheaf) (row col0 : Nat) (p : Nat → FV) (n : Nat) :
    (addRow x row col0 p n).owner = x.owner := by
  induction n with
  | zero => rfl
  | succ n ih => rw [addRow_succ]; exact ih

/-- An entry that is none of those added to keeps its value. -/
theorem cell_addRow_outside (x : Sheaf) (row col0 : Nat) (p : Nat → FV) (n r c : Nat)
    (h : ∀ i, i < n → 256 * r + c ≠ 256 * row + (col0 + i)) : cell (addRow x row col0 p n) r c = cell x r c := by
  induction n with
  | zero => rfl
  | succ n ih =>
    rw [addRow_succ, cell_setCell, if_neg (h n (by omega))]
    exact ih (fun i hi => h i (by omega))

/-- An entry added to takes its own partial once. -/
theorem cell_addRow_inside (x : Sheaf) (row col0 : Nat) (p : Nat → FV) {n c : Nat} (h : c < n) :
    cell (addRow x row col0 p n) row (col0 + c) = addedEntry x (cell x row (col0 + c)) (p c) 0 := by
  induction n with
  | zero => omega
  | succ n ih =>
    rw [addRow_succ, cell_setCell]
    by_cases hc : c = n
    · subst hc
      rw [if_pos rfl, cell_addRow_outside x row col0 p c row (col0 + c) (fun i hi => by omega),
        addedEntry_congr (addRow_mode x row col0 p c)]
    · rw [if_neg (by omega)]
      exact ih (by omega)

/-! ## The frame of a landing -/

/-- Of the Tillers only t has changed; of t neither the Hopper, nor what its Drill is at, nor a Sheaf other than sh. -/
structure LandsIn (s s' : State) (t : Tid) (sh : Nat) : Prop where
  others : ∀ i, i ≠ tilKey t → tilAt s' i = tilAt s i
  hopper : (til s' t).hopper = (til s t).hopper
  drill : (til s' t).drill = (til s t).drill
  sheaves : SameSheaves s s' t sh

theorem LandsIn.refl (s : State) (t : Tid) (sh : Nat) : LandsIn s s t sh :=
  ⟨fun _ _ => rfl, rfl, rfl, fun _ _ => rfl⟩

theorem LandsIn.trans {a b c : State} {t : Tid} {sh : Nat} (h : LandsIn a b t sh) (g : LandsIn b c t sh) :
    LandsIn a c t sh :=
  ⟨fun i hi => (g.others i hi).trans (h.others i hi), g.hopper.trans h.hopper, g.drill.trans h.drill,
    fun k hk => (g.sheaves k hk).trans (h.sheaves k hk)⟩

theorem tilAt_setTil_other (s : State) (t : Tid) (y : Tiller) {i : Nat} (h : i ≠ tilKey t) :
    tilAt (setTil s t y) i = tilAt s i := by simp [setTil, tilAt_setTilAt, h]

/-- A Tiller put back with its Hopper, its Drill and its other Sheaves. -/
theorem setTil_landsIn (s : State) {t : Tid} {sh : Nat} {y : Tiller} (hopper : y.hopper = (til s t).hopper)
    (drill : y.drill = (til s t).drill) (sheaves : ∀ k, k ≠ sh → sheafOf y k = sheafOf (til s t) k) :
    LandsIn s (setTil s t y) t sh :=
  ⟨fun _ hi => tilAt_setTil_other s t y hi, by simpa using hopper, by simpa using drill,
    fun k hk => by simpa using sheaves k hk⟩

@[simp] theorem tilAt_bump (s : State) (idx sub n i : Nat) : tilAt (bump s idx sub n) i = tilAt s i := rfl

@[simp] theorem til_bump (s : State) (idx sub n : Nat) (t : Tid) : til (bump s idx sub n) t = til s t := rfl

theorem bump_landsIn (s : State) (idx sub n : Nat) (t : Tid) (sh : Nat) : LandsIn s (bump s idx sub n) t sh :=
  ⟨fun _ _ => rfl, rfl, rfl, fun _ _ => rfl⟩

theorem til_bumpTil (s : State) (t : Tid) (idx sub n : Nat) :
    til (bumpTil s (tilKey t) idx sub n) t = { til s t with counts := kvMod 0 (til s t).counts (od idx sub) (· + n) } :=
  (bumpTil_frame s (tilKey t) idx sub n).2.2.1

@[simp] theorem sheafOf_bumpTil (s : State) (t : Tid) (idx sub n k : Nat) :
    sheafOf (til (bumpTil s (tilKey t) idx sub n) t) k = sheafOf (til s t) k := by rw [til_bumpTil]; rfl

theorem bumpTil_landsIn (s : State) (idx sub n : Nat) (t : Tid) (sh : Nat) :
    LandsIn s (bumpTil s (tilKey t) idx sub n) t sh :=
  ⟨(bumpTil_frame s (tilKey t) idx sub n).2.1, by rw [til_bumpTil], by rw [til_bumpTil], fun _ _ => by simp⟩

/-! ## addCell -/

/-- What an addition in a Sheaf's mode gives, its flags included; `addedEntry` is its entry. -/
def addedIn (x : Sheaf) (c : Word32 × Word32) (p : FV) (draw : Nat) : Added :=
  match x.mode with
  | .ec => addEc c.1 c.2 p
  | .plain => addPlain c.1 p
  | .sr => addSr c.1 p draw

theorem addedEntry_eq (x : Sheaf) (c : Word32 × Word32) (p : FV) (draw : Nat) :
    addedEntry x c p draw = ((addedIn x c p draw).s, (addedIn x c p draw).e) := by
  unfold addedEntry addedIn; cases x.mode <;> rfl

/-- The counts of an addition that saturates or makes a NaN (R95). -/
def countAdded (s : State) (t : Tid) (r : Added) : State :=
  let s := if r.sat then bumpTil s (tilKey t) 0xA200 4 1 else s
  if r.becameNan then bumpTil s (tilKey t) 0xA200 5 1 else s

theorem countAdded_spec (s : State) (t : Tid) (r : Added) (sh : Nat) :
    LandsIn s (countAdded s t r) t sh ∧ sheafOf (til (countAdded s t r) t) sh = sheafOf (til s t) sh := by
  have counted (s : State) (b : Bool) (sub : Nat) : LandsIn s (if b then bumpTil s (tilKey t) 0xA200 sub 1 else s) t sh ∧
      sheafOf (til (if b then bumpTil s (tilKey t) 0xA200 sub 1 else s) t) sh = sheafOf (til s t) sh := by
    cases b with
    | false => exact ⟨LandsIn.refl s t sh, rfl⟩
    | true => exact ⟨bumpTil_landsIn s _ _ _ t sh, sheafOf_bumpTil s t _ _ _ sh⟩
  obtain ⟨frame4, sheaf4⟩ := counted s r.sat 4
  obtain ⟨frame5, sheaf5⟩ := counted (if r.sat then bumpTil s (tilKey t) 0xA200 4 1 else s) r.becameNan 5
  exact ⟨frame4.trans frame5, sheaf5.trans sheaf4⟩

/-- An addition writes its entry and counts its flags. -/
theorem addCell_eq {s : State} {t : Tid} {sh : Nat} {x : Sheaf} (hx : sheafOf (til s t) sh = some x) (row col : Nat)
    (p : FV) (draw : Nat) :
    addCell s t sh row col p draw =
      countAdded (setTil s t (setSheaf (til s t) sh (setCell x row col (addedEntry x (cell x row col) p draw)))) t
        (addedIn x (cell x row col) p draw) := by
  rw [addedEntry_eq]
  simp only [addCell, hx]
  rfl

theorem addCell_sheafOf {s : State} {t : Tid} {sh : Nat} {x : Sheaf} (hx : sheafOf (til s t) sh = some x) (row col : Nat)
    (p : FV) (draw : Nat) :
    sheafOf (til (addCell s t sh row col p draw) t) sh =
      some (setCell x row col (addedEntry x (cell x row col) p draw)) := by
  rw [addCell_eq hx, (countAdded_spec _ t _ sh).2, til_setTil_same, sheafOf_setSheaf, if_pos rfl]

theorem addCell_landsIn (s : State) (t : Tid) (sh row col : Nat) (p : FV) (draw : Nat) :
    LandsIn s (addCell s t sh row col p draw) t sh := by
  cases hx : sheafOf (til s t) sh with
  | none => rw [addCell, hx]; exact LandsIn.refl s t sh
  | some x =>
    rw [addCell_eq hx]
    have set : LandsIn s (setTil s t (setSheaf (til s t) sh (setCell x row col (addedEntry x (cell x row col) p draw)))) t sh :=
      setTil_landsIn s rfl rfl (fun k hk => by rw [sheafOf_setSheaf, if_neg hk])
    exact set.trans (countAdded_spec _ t _ sh).1

/-- The additions of a row, one column after another, make the Sheaf that addRow gives. -/
theorem foldUpto_addCell_sheafOf {s : State} {t : Tid} {sh : Nat} {x : Sheaf} (hx : sheafOf (til s t) sh = some x)
    (row col0 : Nat) (p : Nat → FV) (n : Nat) :
    sheafOf (til (foldUpto n s (fun s c => addCell s t sh row (col0 + c) (p c) 0)) t) sh = some (addRow x row col0 p n) := by
  induction n with
  | zero => exact hx
  | succ n ih => rw [foldUpto_succ, addRow_succ, addCell_sheafOf ih]

theorem foldUpto_addCell_landsIn (s : State) (t : Tid) (sh row col0 : Nat) (p : Nat → FV) (n : Nat) :
    LandsIn s (foldUpto n s (fun s c => addCell s t sh row (col0 + c) (p c) 0)) t sh :=
  foldUpto_within (LandsIn · · t sh) (LandsIn.refl · t sh) LandsIn.trans n _
    (fun s c => addCell_landsIn s t sh row (col0 + c) (p c) 0) s

/-! ## landGroup -/

theorem putBuf_frame (y : Tiller) (a : Bool) (b : StashBuf) :
    putBuf y a b = { y with bufA := (putBuf y a b).bufA, bufB := (putBuf y a b).bufB } := by
  cases a <;> rfl

/-- Invalid codes are counted once for each fill: no Sheaf changes. -/
theorem senseCodes_spec (s : State) (t : Tid) (wt : Nat) (wh : Hdr) (g ncols col0 cnt : Nat) (inA : Bool) (sh : Nat) :
    LandsIn s (senseCodes s t wt wh g ncols col0 cnt inA) t sh ∧
      sheafOf (til (senseCodes s t wt wh g ncols col0 cnt inA) t) sh = sheafOf (til s t) sh := by
  have put (b : StashBuf) : LandsIn s (setTil s t (putBuf (til s t) inA b)) t sh :=
    setTil_landsIn s (by rw [putBuf_frame]) (by rw [putBuf_frame]) (fun _ _ => by rw [putBuf_frame]; rfl)
  have same (b : StashBuf) : sheafOf (putBuf (til s t) inA b) sh = sheafOf (til s t) sh := by
    rw [putBuf_frame]; rfl
  unfold senseCodes
  dsimp only
  generalize (if inA = true then (til s t).bufA else (til s t).bufB) = b
  split_ifs
  · exact ⟨LandsIn.refl s t sh, rfl⟩
  · exact ⟨put _, by simp [same]⟩
  · exact ⟨(put _).trans (bump_landsIn _ _ _ _ t sh), by simp [same]⟩

/-- The Stash buffer that a landing group reads. -/
def landingBuf (y : Tiller) (wt fmt g : Nat) (sp : Span) : StashBuf :=
  if bufHas y.bufA wt fmt g sp.col0 sp.ncols then y.bufA else y.bufB

/-- The partial that lands in column c of a pass (R73): the group of the weight as its Stash buffer holds it against that of the
activation row in the Hopper. -/
def landingPartial (y : Tiller) (wt act k : Nat) (wh ah : Hdr) (sp : Span) (g row c : Nat) : FV :=
  groupPartial wh ah (readGroup (stashRd (landingBuf y wt wh.fmt g sp)) wt wh (sp.col0 + c) g)
    (readGroup (hop y) act ah row g) (min 32 (k - 32 * g))

@[simp] theorem natAt_nil (i : Nat) : natAt [] i = 0 := rfl

theorem modeOf_eq {y : Tiller} {sh : Nat} {x : Sheaf} (h : sheafOf y sh = some x) : modeOf y sh = x.mode := by
  simp [modeOf, h]

/-- Out of SR mode a group lands column by column, on a state that differs by the codes counted at row 0 alone. -/
theorem landGroup_eq {s : State} {t : Tid} {sh : Nat} {x : Sheaf} (hx : sheafOf (til s t) sh = some x) (hsr : x.mode ≠ .sr)
    (wt act m n k : Nat) (key : Word32) (wh ah : Hdr) (w p g row : Nat) (sp : Span)
    (hsp : sp = spanAt wh.fmt k n w (p * spansPerPass wh.fmt k + g / groupsPerBuf wh.fmt)) :
    ∃ s0, LandsIn s s0 t sh ∧ sheafOf (til s0 t) sh = some x ∧
      landGroup s t wt act m n k sh key wh ah w p g row = foldUpto sp.ncols s0 (fun s' c =>
        addCell s' t sh row (sp.col0 + c) (landingPartial (til s t) wt act k wh ah sp g row c) 0) := by
  subst hsp
  simp only [landGroup, modeOf_eq hx, hsr, if_false, natAt_nil, landingPartial, landingBuf]
  refine ⟨_, ?_, ?_, rfl⟩ <;> split_ifs
  · exact (senseCodes_spec s t _ _ _ _ _ _ _ sh).1
  · exact LandsIn.refl s t sh
  · exact (senseCodes_spec s t _ _ _ _ _ _ _ sh).2.trans hx
  · exact hx

/-- Out of SR mode a group adds its partials to one row of its Sheaf, and touches nothing else of what `LandsIn` names. -/
theorem landGroup_spec {s : State} {t : Tid} {sh : Nat} {x : Sheaf} (hx : sheafOf (til s t) sh = some x) (hsr : x.mode ≠ .sr)
    (wt act m n k : Nat) (key : Word32) (wh ah : Hdr) (w p g row : Nat) (sp : Span)
    (hsp : sp = spanAt wh.fmt k n w (p * spansPerPass wh.fmt k + g / groupsPerBuf wh.fmt)) :
    LandsIn s (landGroup s t wt act m n k sh key wh ah w p g row) t sh ∧
      sheafOf (til (landGroup s t wt act m n k sh key wh ah w p g row) t) sh =
        some (addRow x row sp.col0 (landingPartial (til s t) wt act k wh ah sp g row) sp.ncols) := by
  obtain ⟨s0, frame, sheaf, eq⟩ := landGroup_eq hx hsr wt act m n k key wh ah w p g row sp hsp
  rw [eq]
  exact ⟨frame.trans (foldUpto_addCell_landsIn s0 t sh row sp.col0 _ sp.ncols),
    foldUpto_addCell_sheafOf sheaf row sp.col0 _ sp.ncols⟩

/-! ## PARTIAL_LANDS -/

/-- Where the class lands one group at a time and rows are still to come, the group's row lands and the Drill goes on to the
next row. -/
theorem landRow_eq {s : State} {t : Tid} {d : DrillExec} {m : Nat}
    (hclass : pairClass (Hdr.parse d.wh).fmt (Hdr.parse d.ah).fmt ≠ 0) (hrow : d.row + 1 < m) (wt act n k sh : Nat)
    (key : Word32) (s1 : State)
    (h1 : s1 = landGroup s t wt act m n k sh key (Hdr.parse d.wh) (Hdr.parse d.ah) (drillWidth (til s t)) d.pass d.group d.row) :
    landRow s t d wt act m n k sh key = setTil s1 t { til s1 t with drill := some { d with row := d.row + 1 } } := by
  subst h1
  simp [landRow, hclass, hrow]

/-- Such a row adds the group's partials to the Sheaf's present row; the Drill's row moves on, and the Hopper, the other Sheaves
and the other Tillers stay. -/
theorem landRow_spec {s : State} {t : Tid} {d : DrillExec} {m sh : Nat} {x : Sheaf}
    (hclass : pairClass (Hdr.parse d.wh).fmt (Hdr.parse d.ah).fmt ≠ 0) (hrow : d.row + 1 < m)
    (hx : sheafOf (til s t) sh = some x) (hsr : x.mode ≠ .sr) (wt act n k : Nat) (key : Word32) (sp : Span)
    (hsp : sp = spanAt (Hdr.parse d.wh).fmt k n (drillWidth (til s t))
      (d.pass * spansPerPass (Hdr.parse d.wh).fmt k + d.group / groupsPerBuf (Hdr.parse d.wh).fmt)) :
    ∃ s', landRow s t d wt act m n k sh key = s' ∧
      sheafOf (til s' t) sh = some (addRow x d.row sp.col0
        (landingPartial (til s t) wt act k (Hdr.parse d.wh) (Hdr.parse d.ah) sp d.group d.row) sp.ncols) ∧
      SameSheaves s s' t sh ∧ (til s' t).drill = some { d with row := d.row + 1 } ∧
      (til s' t).hopper = (til s t).hopper ∧ ∀ i, i ≠ tilKey t → tilAt s' i = tilAt s i := by
  obtain ⟨frame, sheaf⟩ := landGroup_spec hx hsr wt act m n k key (Hdr.parse d.wh) (Hdr.parse d.ah)
    (drillWidth (til s t)) d.pass d.group d.row sp hsp
  refine ⟨_, landRow_eq hclass hrow wt act n k sh key _ rfl, ?_, fun j hj => ?_, ?_, ?_, fun i hi => ?_⟩
  · rw [til_setTil_same]; exact sheaf
  · rw [til_setTil_same]; exact frame.sheaves j hj
  · rw [til_setTil_same]
  · rw [til_setTil_same]; exact frame.hopper
  · rw [tilAt_setTil_other _ _ _ hi]; exact frame.others i hi

/-- PARTIAL_LANDS of an MMA lands its row exactly where `CanLand` allows it. -/
theorem execPartialLands_mma {s : State} {t : Tid} {d : DrillExec} {wt act m n k sh : Nat} {hold : Bool} {key : Word32}
    (hd : (til s t).drill = some d) (hmma : flightOp (til s t) d.id = some (.mma wt act m n k sh hold key))
    [Decidable (CanLand s t d wt n k sh)] :
    execPartialLands t s = .next (if CanLand s t d wt n k sh then landRow s t d wt act m n k sh key else s) := by
  unfold execPartialLands
  cases hon : tcOn s with
  | false => simp [CanLand, hon]
  | true =>
    simp only [if_true, hd, hmma, CanLand, hon, true_and]
    cases readyFor (til s t) wt (Hdr.parse d.wh).fmt n k (drillWidth (til s t)) d.pass d.group <;>
      cases mayAdd (til s t) d.id sh <;> simp

end Sys2Proof.Machine

open Sys2Proof Sys2Proof.Machine in
/-- Settles O19: the two additions by `addPlain_fin` and `addEc_fin`; the landing by what `landGroup` makes of the Sheaf
(`addRow`) and the frame `LandsIn`. -/
theorem partialsLandRowByRow : Obligations.PartialsLandRowByRow := by
  unfold Obligations.PartialsLandRowByRow
  classical
  refine ⟨fun c e p x neg m ex hx hfin hover => ?_, fun s t d wt act m n k sh hold key hd hmma => ⟨fun hno => ?_, ?_⟩⟩
  · rw [addPlain_fin hx hfin hover, addEc_fin e hx hfin hover]
    exact ⟨rfl, rfl, rfl⟩
  · rw [exec_partialLands, execPartialLands_mma hd hmma, if_neg hno]
  · intro x hcan hclass hrow _ hx hsr
    obtain ⟨s', hland, sheaf, sheaves, drill, hopper, others⟩ := landRow_spec hclass hrow hx hsr wt act n k key _ rfl
    refine ⟨s', _, by rw [exec_partialLands, execPartialLands_mma hd hmma, if_pos hcan, hland], sheaf,
      ⟨fun c hc _ => ?_, fun r c hr hc hcols => ?_⟩, addRow_mode _ _ _ _ _, addRow_owner _ _ _ _ _, sheaves, drill, hopper,
      others⟩
    · exact cell_addRow_inside x d.row _ (landingPartial (til s t) wt act k _ _ _ d.group d.row) hc
    · exact cell_addRow_outside x d.row _ _ _ r c (fun i hi => by omega)
end

section
/-! The CXL ports where nothing stands between a unit and the Granary (R212, R336, R339 to R342): what admission, a store, one
access and one answered snoop do and leave alone, and the settling of O45. -/
namespace Sys2Proof.Machine

/-! ## The window (R339) -/

/-- No window offset maps into the reserved GiB at the top of a stack. -/
theorem windowGa_below_reserved {o : Nat} (h : o < windowBytes) : windowGa o % 2 ^ 36 < 63 * 2 ^ 30 := by
  unfold windowBytes at h
  have frames : o / 2097152 / 8 ≤ 32255 := by omega
  rw [windowGa, Nat.add_assoc, Nat.mul_add_mod_self_right]
  refine lt_of_le_of_lt (Nat.mod_le _ _) ?_
  omega

/-- An offset and its Granary address lie at the same place in their line. -/
theorem windowGa_mod_line (o : Nat) : windowGa o % 64 = o % 64 := by
  simp only [windowGa, Nat.reducePow]
  omega

theorem portFin_val (p : Fin 2) : portFin p.val = p := by
  fin_cases p <;> rfl

/-! ## Admission where no request is in the way (R208, R209) -/

/-- A port's accesses use the slots of a Headland (R211). -/
theorem slotSource_srcCxl (p : Fin 2) :
    slotSource (srcCxl p.val) = .headlandA false ∨ slotSource (srcCxl p.val) = .headlandB := by
  fin_cases p
  · exact .inl (by decide)
  · exact .inr (by decide)

/-- Narrowing a choice of one to those of a kind, where there are some of it, leaves the one. -/
theorem filter_of_any_singleton {α : Type} (p : α → Bool) (a : α) : (if [a].any p then [a].filter p else [a]) = [a] := by
  cases h : p a <;> simp [h]

/-- A Headland's request that is alone on its channel is next there, however the controller chooses. -/
theorem serveNext_alone (s : State) (k chan : Nat) {a : Admitted}
    (ha : a.req.source = .headlandA false ∨ a.req.source = .headlandB) : serveNext s k chan [a] = [a] := by
  have turn (c : Bool) (p : Admitted → Bool) : (if (c && [a].any p) = true then [a].filter p else [a]) = [a] := by
    cases c
    · rfl
    · exact filter_of_any_singleton p a
  unfold serveNext
  by_cases hold : a.since + 256 ≤ granaryNow s k
  · simp [hold]
  · have young : [a].filter (fun a => decide (a.since + 256 ≤ granaryNow s k)) = [] := by simp [hold]
    rw [young]
    simp only [turn, filter_of_any_singleton]
    rcases ha with ha | ha <;> simp [ha]

/-- A port's request is admitted and performed at once where no request is at a stack. -/
theorem canEnter_still {s : State} (h : Still s) (p : Fin 2) (sec : Nat) (write : Bool) :
    canEnter s (srcCxl p.val) sec write = true := by
  obtain ⟨hheld, -, -, -, -, hstack⟩ := h
  obtain ⟨hadm, hretry, hcopy⟩ := hstack (stackOf (64 * sec))
  have slot : reservedFree s (stackOf (64 * sec)) (slotSource (srcCxl p.val)) = true := by
    rcases slotSource_srcCxl p with c | c <;> simp [c, reservedFree, hadm, heldIn, hheld, sourceClass, reservedSlots]
  have room : bankFull s sec = false := by simp [bankFull, hadm, heldIn, hheld]
  have idle (chan : Nat) : unblocked s (stackOf (64 * sec)) chan = [] := by simp [unblocked, hadm]
  simp only [canEnter, idle, List.nil_append]
  rw [serveNext_alone _ _ _ (slotSource_srcCxl p)]
  simp [rowCopying, hcopy, hretry, behindOwn, ownAhead, hadm, admits, room, slot]

/-! ## Reads and stores where nothing is held (R178, R207) -/

theorem heldFrom_nil {s : State} (h : s.held = []) (src a n : Nat) : heldFrom s src a n = false := by simp [heldFrom, h]

theorem performHeld_nil {s : State} (h : s.held = []) : performHeld s = s := by simp [performHeld, h]

theorem arriving_still {s : State} (h : Still s) (a : Nat) : arriving s a = false := by
  obtain ⟨-, -, hbales, -⟩ := h
  simp [arriving, baleAt, hbales]

theorem latched_still {s : State} (h : Still s) (a n : Nat) : latched s a n = false := by
  obtain ⟨-, hlatch, -⟩ := h
  simp [latched, hlatch]

/-- Bytes within one sector are stored as one run, and no bytes as none. -/
theorem sectorsOf_within {a : Nat} {b : List Byte} (hb : a % 64 + b.length ≤ 64) :
    sectorsOf a b = if b = [] then [] else [(a, b)] := by
  cases b with
  | nil => rfl
  | cons x l =>
    have whole : min (x :: l).length (64 - a % 64) = (x :: l).length := by omega
    simp only [sectorsOf, sectors, splitAt, whole, Nat.sub_self]
    simp [List.take_of_length_le]

/-- Nothing has changed but bytes of the Granary, what is dirty, what admission keeps of requests, and counts of `OD A400`. -/
def OnlyGranary (s s' : State) : Prop :=
  s' = { s with granary := s'.granary, dirty := s'.dirty, granStacks := s'.granStacks, slotWaits := s'.slotWaits,
                counts := s'.counts } ∧
  ∀ k, k / 256 ≠ 0xA400 → kvGet 0 s'.counts k = kvGet 0 s.counts k

theorem OnlyGranary.refl (s : State) : OnlyGranary s s := ⟨rfl, fun _ _ => rfl⟩

theorem OnlyGranary.trans {a b c : State} (h : OnlyGranary a b) (g : OnlyGranary b c) : OnlyGranary a c := by
  obtain ⟨hf, hc⟩ := h
  obtain ⟨gf, gc⟩ := g
  exact ⟨by rw [gf, hf], fun k hk => (gc k hk).trans (hc k hk)⟩

theorem enter_onlyGranary (s : State) (src sec : Nat) (write : Bool) : OnlyGranary s (enter s src sec write) := by
  refine ⟨rfl, fun k hk => ?_⟩
  rw [count_enter, if_neg (fun e => hk (by rw [e]; rfl))]

/-- With no bale to become DIRTY, marking a granule dirty changes nothing else. -/
theorem markDirty_onlyGranary {s : State} (h : s.bales = []) (a : Nat) : OnlyGranary s (markDirty s a) := by
  have nobale : baleAt { s with dirty := kvSet false s.dirty (a / 4096) true } a = none := by simp [baleAt, h]
  unfold markDirty
  split
  · dsimp only
    rw [nobale]
    exact ⟨rfl, fun _ _ => rfl⟩
  · exact OnlyGranary.refl s

/-- A store within a sector that is neither uncorrectable nor listed, and in no bale, writes its bytes. -/
theorem performSector_plain {s : State} (hbad : s.reli.bad = []) (hlist : s.reli.listed = []) (hbale : s.bales = []) (a : Nat)
    (b : List Byte) :
    ∃ s', performSector s a b = (s', false) ∧ s'.granary = writeBytes s.granary a b ∧ OnlyGranary s s' := by
  have written (t : State) (ht : OnlyGranary s t) (hb : t.bales = []) :
      OnlyGranary s (markDirty { t with granary := writeBytes t.granary a b } a) :=
    ht.trans (OnlyGranary.trans (b := { t with granary := writeBytes t.granary a b }) ⟨rfl, fun _ _ => rfl⟩
      (markDirty_onlyGranary (s := { t with granary := writeBytes t.granary a b }) hb a))
  have counted : OnlyGranary s (bump s 0xA400 12 1) :=
    ⟨rfl, fun k hk => by rw [counts_bump, if_neg (fun e => hk (by rw [e]; rfl))]⟩
  have healed : heal s (a / 64) = s := by simp [heal, hbad, hlist]
  by_cases whole : a % 64 = 0 ∧ b.length = 64
  · refine ⟨_, ?_, markDirty_granary _ a, written s (OnlyGranary.refl s) hbale⟩
    simp [performSector, whole, healed]
  · refine ⟨_, ?_, markDirty_granary _ a, written _ counted hbale⟩
    simp [performSector, whole, hbad]

/-- Still, no store meets an uncorrectable sector or is held: its bytes are written. -/
theorem store_still {s : State} (h : Still s) (src : Nat) {a : Nat} {b : List Byte} (hb : a % 64 + b.length ≤ 64) :
    ∃ s', store s src none a b = (s', false) ∧ s'.granary = writeBytes s.granary a b ∧ OnlyGranary s s' := by
  obtain ⟨hheld, -, hbales, hbad, hlisted, -⟩ := id h
  rw [store, performHeld_nil hheld, sectorsOf_within hb]
  split
  · next empty => exact ⟨s, rfl, by rw [empty]; rfl, OnlyGranary.refl s⟩
  · obtain ⟨s', eq, mem, only⟩ := performSector_plain (s := enter s src (a / 64) true) hbad hlisted hbales a b
    refine ⟨s', ?_, mem, (enter_onlyGranary s src _ true).trans only⟩
    have latch : latched (enter s src (a / 64) true) a b.length = false := latched_still (s := s) h a b.length
    have moving : arriving (enter s src (a / 64) true) a = false := arriving_still (s := s) h a
    have own : heldFrom (enter s src (a / 64) true) src a b.length = false := heldFrom_nil hheld src a b.length
    simp [storeSector, latch, moving, own, eq]

/-- Nothing is left for a port's store to wait for. -/
theorem roomGate_still {s : State} (h : Still s) (p : Fin 2) {a : Nat} {b : List Byte} (hb : a % 64 + b.length ≤ 64) :
    roomGate s (srcCxl p.val) [(a, b)] = (s, true) := by
  have fits : storeFits s (srcCxl p.val) [(a, b)] = true := by
    obtain ⟨hheld, -⟩ := id h
    simp only [storeFits, performHeld_nil hheld, List.flatMap_cons, List.flatMap_nil, List.append_nil, sectorsOf_within hb]
    split
    · rfl
    · simp [mustHold, latched_still h, arriving_still h, heldFrom_nil hheld, canEnter_still h]
  simp [roomGate, fits]

theorem stored_of_granary {s s' : State} {a : Nat} {b : List Byte} (h : s'.granary = writeBytes s.granary a b) :
    Stored s s' a b := by
  refine ⟨by rw [h, readBytes_writeBytes], fun x hx => ?_⟩
  rw [h, byteAt_writeBytes_outside _ _ _ _ (hx _ (List.mem_singleton.2 rfl))]

/-! ## The directory (R340) -/

theorem dirBits_empty {s : State} (h : s.cxl.directory = []) (line : Nat) : dirBits s line = 0 := by simp [dirBits, h]

theorem setDir_empty {s : State} (h : s.cxl.directory = []) (line : Nat) {bits : Nat} (hb : bits ≠ 0) :
    (setDir s line bits).cxl.directory = [(line, bits)] := by simp [setDir, h, hb]

theorem dirBits_single {s : State} {line bits : Nat} (h : s.cxl.directory = [(line, bits)]) : dirBits s line = bits := by
  simp [dirBits, h]

theorem setDir_single {s : State} {line bits : Nat} (h : s.cxl.directory = [(line, bits)]) (new : Nat) :
    (setDir s line new).cxl.directory = if new = 0 then [] else [(line, new)] := by
  by_cases z : new = 0 <;> simp [setDir, h, z]

/-! ## One access (R177, R209, R340) -/

/-- An access that stands behind those that wait. -/
def queued (s : State) (r : CxlReq) : State := { s with cxl := { s.cxl with waiting := s.cxl.waiting ++ [r] } }

/-- No access waits. -/
def noneWaits (s : State) : State := { s with cxl := { s.cxl with waiting := [] } }

/-- A write's store is performed at once. -/
theorem cxlWrite_still {s : State} (h : Still s) (p : Fin 2) {r : CxlReq} (hp : r.port = p.val)
    (hd : r.data.length ≤ 64 - r.off % 64) :
    ∃ s', cxlWrite s r = (cxlWritten s' r, none) ∧ s'.granary = writeBytes s.granary (windowGa r.off) r.data ∧
      OnlyGranary s s' := by
  have line := windowGa_mod_line r.off
  have all : r.data.take (64 - windowGa r.off % 64) = r.data := List.take_of_length_le (by omega)
  have within : windowGa r.off % 64 + r.data.length ≤ 64 := by omega
  obtain ⟨s', eq, mem, only⟩ := store_still h (srcCxl p.val) within
  refine ⟨s', ?_, mem, only⟩
  have own (src a n : Nat) : heldFrom s' src a n = false := heldFrom_nil (by rw [only.1]; exact h.1) src a n
  simp [cxlWrite, hp, all, roomGate_still h p within, eq, own]

/-- What a read that is admitted leaves. -/
def cxlHasRead (s : State) (r : CxlReq) : State :=
  let line := windowGa r.off / 64
  let s := emit s (.cxlData (portFin r.port) (r.off / 64 * 64) (gran s (64 * line) 64))
  if r.peer then s else setDir (bump s (portCount r.port) 1 1) line (Nat.lor (dirBits s line) (5 * 2 ^ r.port))

/-- A read of a line without an error is performed at once. -/
theorem cxlRead_still {s : State} (h : Still s) (p : Fin 2) {r : CxlReq} (hp : r.port = p.val) (he : r.e = .clean) :
    cxlRead s r = (cxlHasRead (enter s (srcCxl p.val) (windowGa r.off / 64) false) r, none) := by
  obtain ⟨hheld, -, -, hbad, -⟩ := id h
  have sound (src job : Nat) : senseSector (enter s src (windowGa r.off / 64) false) (windowGa r.off / 64) .clean src job
      = (enter s src (windowGa r.off / 64) false, true) := by
    simp [senseSector, show (enter s src (windowGa r.off / 64) false).reli.bad = [] from hbad]
  simp [cxlRead, hp, he, heldFrom_nil hheld, canEnter_still h, sound, cxlHasRead]

/-- With no copy of a host in the way and room in the directory, a port that is not FAULTED performs an access. -/
theorem tryCxl_free {s : State} {r : CxlReq} (hfn : (fnGet s (0x40 + r.port)).st ≠ .faulted) (hst : r.stored = false)
    (hdir : s.cxl.directory = []) : tryCxl s r = if r.write then cxlWrite s r else cxlRead s r := by
  have snoops : snoopOthers s r (windowGa r.off / 64) = (s, true) := by
    simp [snoopOthers, dirBits_empty hdir, bitAt]
  have room : directoryFor s (windowGa r.off / 64) = (s, true) := by simp [directoryFor, hdir, directoryLines]
  simp [tryCxl, hfn, hst, snoops, room]

/-- The only access that waits is performed, and waits no longer. -/
theorem kickCxl_only {s t : State} {r : CxlReq} (hawake : cxlAsleep s = false) (hw : s.cxl.waiting = [r])
    (ht : tryCxl s r = (t, none)) : kickCxl s = noneWaits t := by
  simp [kickCxl, hawake, hw, ht, noneWaits]

/-- In Run and Idle no wake event does anything. -/
theorem wake_awake {s : State} (hst : s.power.st = .run ∨ s.power.st = .idle) (htarget : s.power.target = none) (ev : Nat) :
    wake s ev = s := by
  have unseen : wakeSeen s.power.st ev = false := by rcases hst with h | h <;> rw [h] <;> rfl
  simp [wake, htarget, unseen]

/-- An access that comes through is over with what performing it leaves. -/
theorem cxlAccess_served {s t : State} {p : Fin 2} {r : CxlReq} (h : PortServes s p r.off) (hp : r.port = p.val)
    (hst : r.stored = false)
    (ht : (if r.write then cxlWrite (queued s r) r else cxlRead (queued s r) r) = (t, none)) :
    cxlAccess s r = .next (noneWaits t) := by
  obtain ⟨hoff, hfn, hmem, ⟨hdir, -⟩, hwait, -, hpow, htarget, hexit⟩ := h
  rw [← hp] at hfn hmem
  have awake : wake (queued s r) (2 + r.port) = queued s r := wake_awake (s := queued s r) hpow htarget _
  have notAsleep : cxlAsleep (queued s r) = false := by
    show cxlAsleep s = false
    rcases hpow with h | h <;> simp [cxlAsleep, h, htarget, hexit]
  have kicked : kickCxl (queued s r) = noneWaits t :=
    kickCxl_only notAsleep (by simp [queued, hwait]) ((tryCxl_free (s := queued s r) hfn hst hdir).trans ht)
  simp only [cxlAccess, Nat.not_le.2 hoff, hfn, hmem, if_false, Bool.not_true, Bool.false_eq_true]
  exact congrArg Host.Outcome.next ((congrArg kickCxl awake).trans kicked)

/-- A write that comes through has stored its bytes and is acknowledged. -/
theorem cxlAccess_write {s : State} {p : Fin 2} {r : CxlReq} (h : PortServes s p r.off) (hp : r.port = p.val)
    (hst : r.stored = false) (hw : r.write = true) (hd : r.data.length ≤ 64 - r.off % 64) :
    ∃ t, cxlAccess s r = .next (noneWaits (cxlWritten t r)) ∧ t.granary = writeBytes s.granary (windowGa r.off) r.data ∧
      OnlyGranary (queued s r) t := by
  obtain ⟨-, -, -, ⟨-, still⟩, -⟩ := id h
  obtain ⟨t, eq, mem, only⟩ := cxlWrite_still (s := queued s r) still p hp hd
  exact ⟨t, cxlAccess_served h hp hst (by rw [if_pos hw, eq]), mem, only⟩

/-- A read that comes through has entered its sector and answers. -/
theorem cxlAccess_read {s : State} {p : Fin 2} {r : CxlReq} (h : PortServes s p r.off) (hp : r.port = p.val)
    (hst : r.stored = false) (hw : r.write = false) (he : r.e = .clean) :
    cxlAccess s r = .next (noneWaits (cxlHasRead (enter (queued s r) (srcCxl p.val) (windowGa r.off / 64) false) r)) := by
  obtain ⟨-, -, -, ⟨-, still⟩, -⟩ := id h
  exact cxlAccess_served h hp hst (by rw [hw]; exact cxlRead_still (s := queued s r) still p hp he)

/-- A count of a port is none of those that admission and stores keep. -/
theorem OnlyGranary.count_portCount {s s' : State} (h : OnlyGranary s s') (p : Fin 2) {k : Nat} (hk : k < 256) :
    count s' (portCount p.val) k = count s (portCount p.val) k := by
  refine h.2 _ ?_
  simp only [od, portCount]
  omega

/-- An access that a host makes is counted at its port, and its line enters an empty directory. -/
theorem hostLine_enters {s : State} (hdir : s.cxl.directory = []) (p k line : Nat) {m : Nat} (hm : m ≠ 0) :
    (setDir (bump s (portCount p) k 1) line (Nat.lor (dirBits s line) m)).cxl.directory = [(line, m)] ∧
      count (setDir (bump s (portCount p) k 1) line (Nat.lor (dirBits s line) m)) (portCount p) k =
        count s (portCount p) k + 1 := by
  have bits : Nat.lor (dirBits s line) m = m := by rw [dirBits_empty hdir]; exact Nat.zero_or m
  rw [bits]
  exact ⟨setDir_empty (s := bump s (portCount p) k 1) hdir line hm, (counts_bump s (portCount p) k 1 _).trans (if_pos rfl)⟩

/-- A host's read answers the bytes of its line; the host may hold the line from then on, modified too, and the read is
counted. -/
theorem cxlHasRead_host {s : State} (hdir : s.cxl.directory = []) {p : Fin 2} {r : CxlReq} (hp : r.port = p.val)
    (hpeer : r.peer = false) :
    (cxlHasRead s r).out = .cxlData p (r.off / 64 * 64) (readBytes s.granary (windowGa r.off / 64 * 64) 64) :: s.out ∧
      (cxlHasRead s r).cxl.directory = [(windowGa r.off / 64, 5 * 2 ^ p.val)] ∧ (cxlHasRead s r).granary = s.granary ∧
      count (cxlHasRead s r) (portCount p.val) 1 = count s (portCount p.val) 1 + 1 := by
  have bytes : gran s (64 * (windowGa r.off / 64)) 64 = readBytes s.granary (windowGa r.off / 64 * 64) 64 := by
    rw [gran, Nat.mul_comm 64]
  obtain ⟨dir, counted⟩ := hostLine_enters
    (s := emit s (.cxlData p (r.off / 64 * 64) (readBytes s.granary (windowGa r.off / 64 * 64) 64))) hdir p.val 1
    (windowGa r.off / 64) (show 5 * 2 ^ p.val ≠ 0 by positivity)
  simp only [cxlHasRead, bytes, hp, hpeer, portFin_val, Bool.false_eq_true, if_false]
  exact ⟨rfl, dir, rfl, counted⟩

/-- A host's write is acknowledged; the host may hold the line from then on, and the write is counted. -/
theorem cxlWritten_host {s : State} (hdir : s.cxl.directory = []) {p : Fin 2} {r : CxlReq} (hp : r.port = p.val)
    (hpeer : r.peer = false) :
    (cxlWritten s r).out = .cxlDone p r.off :: s.out ∧ (cxlWritten s r).granary = s.granary ∧
      (cxlWritten s r).cxl.directory = [(windowGa r.off / 64, 2 ^ p.val)] ∧
      count (cxlWritten s r) (portCount p.val) 2 = count s (portCount p.val) 2 + 1 := by
  obtain ⟨dir, counted⟩ := hostLine_enters (s := emit s (.cxlDone p r.off)) hdir p.val 2 (windowGa r.off / 64)
    (show 2 ^ p.val ≠ 0 by positivity)
  simp only [cxlWritten, hp, hpeer, portFin_val, Bool.false_eq_true, if_false]
  exact ⟨rfl, rfl, dir, counted⟩

/-- A peer's write is acknowledged, and no host holds a line for it. -/
theorem cxlWritten_peer (s : State) {p : Fin 2} {r : CxlReq} (hp : r.port = p.val) (hpeer : r.peer = true) :
    cxlWritten s r = emit s (.cxlDone p r.off) := by
  simp [cxlWritten, hp, hpeer, portFin_val]

/-! ## Snoops answered (R340) -/

theorem stookDeliver_noGroup {s : State} (h : s.stook.groups = []) (gid lam : Nat) (x : StookIn) :
    stookDeliver s gid lam x = s := by simp [stookDeliver, groupAt, h]

/-- With no Stook group open, messages may leave the receive buffer, and nothing else changes. -/
theorem kickArrivals_onlySent {s : State} (h : s.stook.groups = []) : OnlySent s (kickArrivals s) := by
  refine foldl_within (fun a b : State × List (Nat × Nat) => a.1.stook.groups = [] → OnlySent a.1 b.1)
    (fun a _ => OnlySent.refl a.1) (fun hab hbc ha => (hab ha).trans (hbc (by rw [hab ha]; exact ha))) _ (fun a q ha => ?_)
    s.links.stookIn (s, []) h
  dsimp only
  split
  · exact OnlySent.refl _
  · split
    · exact OnlySent.refl _
    · have freed := (setLinks_onlySent a.1 { a.1.links with stookIn := a.1.links.stookIn.erase q }).trans
        (freeSlots_onlySent _ q.1 (2 * q.2.2.1) q.2.2.2.1)
      rw [stookDeliver_noGroup (by rw [freed]; exact ha)]
      exact freed

theorem kickCxl_nothing {s : State} (h : s.cxl.waiting = []) : kickCxl s = s := by
  have same : { s with cxl := { s.cxl with waiting := [] } } = s := by rw [← h]
  simp [kickCxl, h, same]

theorem serveInbox_nothing {s : State} (h : s.links.inbox = []) : serveInbox s = s := by
  have same : { s with links := { s.links with inbox := [] } } = s := by rw [← h]
  simp [serveInbox, h, same]

/-- Where no unit waits for a host's copy, an answered snoop lets only messages of the Stook layer go on. -/
theorem afterSnoop_onlySent {s : State} (hwait : s.cxl.waiting = []) (hinbox : s.links.inbox = []) (hadmit : s.admitHeld = none)
    (htasks : s.stook.tasks = []) (hgroups : s.stook.groups = []) : OnlySent s (afterSnoop s) := by
  have tasks : kickTasks s = s := by rw [kickTasks, htasks]; rfl
  have admission : kickAdmit s = s := by rw [kickAdmit, hadmit]
  have stook : kickStook s = kickArrivals s := by rw [kickStook, hgroups]; rfl
  rw [afterSnoop, kickCxl_nothing hwait, serveInbox_nothing hinbox, admission, tasks, stook]
  exact kickArrivals_onlySent hgroups

/-- A snoop that is answered changes nothing but the snoops and the directory. -/
theorem snoopAnswered_frame (s : State) (p line : Nat) :
    snoopAnswered s p line = { s with cxl := { s.cxl with
      snoops := (snoopAnswered s p line).cxl.snoops, directory := (snoopAnswered s p line).cxl.directory } } := by
  unfold snoopAnswered
  split <;> rfl

/-- The only snoop, of the only line, is answered: BISnpInv leaves the host nothing, BISnpData a copy that is not modified. -/
theorem snoopAnswered_only {s : State} {p : Fin 2} {line : Nat} {inv : Bool} (hs : s.cxl.snoops = [(p.val, line, inv)])
    (hd : s.cxl.directory = [(line, 5 * 2 ^ p.val)]) :
    (snoopAnswered s p.val line).cxl.snoops = [] ∧
      (snoopAnswered s p.val line).cxl.directory = if inv then [] else [(line, 2 ^ p.val)] := by
  have others : Nat.land (5 * 2 ^ p.val) (5 * 2 ^ (1 - p.val)) = 0 := by fin_cases p <;> rfl
  have mine : Nat.land (5 * 2 ^ p.val) (2 ^ p.val) = 2 ^ p.val := by fin_cases p <;> rfl
  have found : s.cxl.snoops.find? (fun q => decide (q.1 = p.val ∧ q.2.1 = line)) = some (p.val, line, inv) := by simp [hs]
  simp only [snoopAnswered, found, dirBits_single hd, others, mine, Nat.zero_add]
  refine ⟨by simp [setDir, hs], (setDir_single hd _).trans ?_⟩
  cases inv <;> simp

/-- The module with these modified lines come home. -/
def withHome (s : State) (l : List (Nat × Nat × List Byte)) : State := { s with cxl := { s.cxl with home := l } }

/-- The only line that has come home is stored, and its snoop answered. -/
theorem kickHome_only {s : State} (h : Still s) (p : Fin 2) {line : Nat} {b : List Byte} (hb : b.length = 64)
    (hh : s.cxl.home = [(p.val, line, b)]) :
    ∃ t, kickHome s = snoopAnswered t p.val line ∧ t.granary = writeBytes s.granary (64 * line) b ∧
      OnlyGranary (withHome s []) t := by
  have within : 64 * line % 64 + b.length ≤ 64 := by omega
  have whole : padTo 64 b = b := by simp [padTo, ← hb]
  obtain ⟨t, eq, mem, only⟩ := store_still (s := withHome s []) h (srcCxl p.val) within
  refine ⟨t, ?_, mem, only⟩
  rw [withHome] at eq
  simp [kickHome, hh, whole, roomGate_still h p within, eq]

/-! ## The commands -/

/-- Beyond the window an offset names no address. -/
theorem cxlAccess_beyond {r : CxlReq} (h : windowBytes ≤ r.off) (s : State) : cxlAccess s r = .fault .noSuchAddress := by
  simp [cxlAccess, h]

theorem execCxlMemRead_served {s : State} {p : Fin 2} {off : Nat} (h : PortServes s p off) :
    ∃ s', execCxlMemRead p off .clean s = .next s' ∧
      s'.out = .cxlData p (off / 64 * 64) (readBytes s.granary (windowGa off / 64 * 64) 64) :: s.out ∧
      s'.cxl.directory = [(windowGa off / 64, 5 * 2 ^ p.val)] ∧ s'.granary = s.granary ∧
      count s' (portCount p.val) 1 = count s (portCount p.val) 1 + 1 := by
  obtain ⟨-, -, -, ⟨hdir, -⟩, -⟩ := id h
  refine ⟨_, cxlAccess_read h rfl rfl rfl rfl, ?_⟩
  have entered := enter_onlyGranary (queued s ⟨p.val, off, false, false, .clean, [], false⟩) (srcCxl p.val) (windowGa off / 64)
    false
  obtain ⟨out, dir, mem, counted⟩ := cxlHasRead_host (s := enter _ (srcCxl p.val) (windowGa off / 64) false)
    (r := ⟨p.val, off, false, false, .clean, [], false⟩) hdir rfl rfl
  exact ⟨out, dir, mem, counted.trans (congrArg (· + 1) (entered.count_portCount p (by omega)))⟩

theorem execCxlMemWrite_served {s : State} {p : Fin 2} {off : Nat} {data : List Byte} (h : PortServes s p off)
    (hd : data.length ≤ 64 - off % 64) :
    ∃ s', execCxlMemWrite p off data s = .next s' ∧ s'.out = .cxlDone p off :: s.out ∧ Stored s s' (windowGa off) data ∧
      s'.cxl.directory = [(windowGa off / 64, 2 ^ p.val)] ∧
      count s' (portCount p.val) 2 = count s (portCount p.val) 2 + 1 := by
  obtain ⟨-, -, -, ⟨hdir, -⟩, -⟩ := id h
  obtain ⟨t, eq, mem, only⟩ := cxlAccess_write (r := ⟨p.val, off, true, false, .clean, data, false⟩) h rfl rfl rfl hd
  obtain ⟨out, same, dir, counted⟩ := cxlWritten_host (s := t) (r := ⟨p.val, off, true, false, .clean, data, false⟩)
    (by rw [only.1]; exact hdir) rfl rfl
  refine ⟨_, eq, out.trans ?_, stored_of_granary (same.trans mem), dir,
    counted.trans (congrArg (· + 1) (only.count_portCount p (by omega)))⟩
  rw [only.1]; rfl

theorem execUnorderedIoPeerAccess_write_served {s : State} {p : Fin 2} {off : Nat} {data : List Byte} (h : PortServes s p off)
    (hd : data.length ≤ 64 - off % 64) :
    ∃ s', execUnorderedIoPeerAccess p off true data s = .next s' ∧ s'.out = .cxlDone p off :: s.out ∧
      Stored s s' (windowGa off) data ∧ s'.cxl.directory = [] := by
  obtain ⟨-, -, -, ⟨hdir, -⟩, -⟩ := id h
  obtain ⟨t, eq, mem, only⟩ := cxlAccess_write (r := ⟨p.val, off, true, true, .clean, data, false⟩) h rfl rfl rfl hd
  rw [cxlWritten_peer t rfl rfl] at eq
  refine ⟨_, eq, ?_, stored_of_granary mem, ?_⟩
  · show _ :: t.out = _
    rw [only.1]; rfl
  · show t.cxl.directory = []
    rw [only.1]; exact hdir

/-- BACK_INVALIDATE_RESPONSE with a modified line, where that snoop is the only one and no other unit waits for the line. -/
theorem execBackInvalidateResponse_dirty {s : State} {p : Fin 2} {line : Nat} {dirty : List Byte} {inv : Bool}
    (hs : s.cxl.snoops = [(p.val, line, inv)]) (hdir : s.cxl.directory = [(line, 5 * 2 ^ p.val)]) (hstill : Still s)
    (hhome : s.cxl.home = []) (hwait : s.cxl.waiting = []) (hinbox : s.links.inbox = []) (hadmit : s.admitHeld = none)
    (htasks : s.stook.tasks = []) (hgroups : s.stook.groups = []) (hdirty : dirty.length = 64) :
    ∃ s', execBackInvalidateResponse p line dirty s = .next s' ∧ s'.cxl.snoops = [] ∧ Stored s s' (64 * line) dirty ∧
      s'.cxl.directory = if inv then [] else [(line, 2 ^ p.val)] := by
  obtain ⟨t, home, mem, ⟨frame, -⟩⟩ := kickHome_only (s := withHome s (s.cxl.home ++ [(p.val, line, dirty)])) hstill p hdirty
    (congrArg (· ++ [(p.val, line, dirty)]) hhome)
  obtain ⟨snoops, dir⟩ := snoopAnswered_only (s := t) (p := p) (line := line) (inv := inv) (by rw [frame]; exact hs)
    (by rw [frame]; exact hdir)
  have answered := snoopAnswered_frame t p.val line
  have sent : OnlySent (snoopAnswered t p.val line) (afterSnoop (snoopAnswered t p.val line)) := by
    apply afterSnoop_onlySent <;> rw [answered, frame] <;> assumption
  have named : s.cxl.snoops.any (fun q => decide (q.1 = p.val ∧ q.2.1 = line)) = true := by simp [hs]
  have first : s.cxl.home.any (fun h => decide (h.1 = p.val ∧ h.2.1 = line)) = false := by simp [hhome]
  have nonempty : dirty.isEmpty = false := List.isEmpty_eq_false_iff.2 (List.ne_nil_of_length_pos (by omega))
  refine ⟨afterSnoop (snoopAnswered t p.val line), ?_, by rw [sent]; exact snoops, stored_of_granary ?_,
    by rw [sent]; exact dir⟩
  · simp only [execBackInvalidateResponse, named, first, nonempty, Bool.not_true, Bool.or_false, Bool.false_eq_true, if_false]
    exact congrArg (fun u => Host.Outcome.next (afterSnoop u)) home
  · have same : (snoopAnswered t p.val line).granary = t.granary := by rw [answered]
    rw [sent]
    exact same.trans mem

end Sys2Proof.Machine

open Sys2Proof Sys2Proof.Machine in
/-- Settles O45: an access that comes through is performed as it arrives (`cxlAccess_served`), its store and the store of a line
that comes home writing their bytes alone (`store_still`). -/
theorem hostAccessesReachTheGranary : Obligations.HostAccessesReachTheGranary := by
  unfold Obligations.HostAccessesReachTheGranary
  refine ⟨rfl, fun o ho => ⟨rfl, windowGa_below_reserved ho⟩, fun s p off => ⟨fun hbeyond => ⟨?_, fun data => ?_⟩,
    execCxlMemRead_served, fun data => execCxlMemWrite_served, fun data => execUnorderedIoPeerAccess_write_served, rfl,
    fun line dirty inv => execBackInvalidateResponse_dirty⟩⟩
  · exact cxlAccess_beyond hbeyond s
  · exact cxlAccess_beyond hbeyond s
end

section
/-! Requests of an open session that write an entry of WO access (R360, R364, R365, R385, R467): how such a request reaches its
command, and what its answer leaves. -/
namespace Sys2Proof.Machine

/-! ## States that differ in their sessions -/

/-- The module with other sessions of the dictionary. -/
def withSessions (s : State) (l : KV Session) : State := { s with dict := { s.dict with sessions := l } }

theorem withSessions_trans {s t u : State} (h : ∃ l, t = withSessions s l) (g : ∃ l, u = withSessions t l) :
    ∃ l, u = withSessions s l := by
  obtain ⟨_, rfl⟩ := h
  obtain ⟨l, rfl⟩ := g
  exact ⟨l, rfl⟩

theorem setSession_withSessions (s : State) (sid : Nat) (x : Session) : ∃ l, setSession s sid x = withSessions s l :=
  ⟨_, rfl⟩

theorem touch_withSessions (s : State) (o : Origin) (sid : Nat) : ∃ l, touch s o sid = withSessions s l := by
  unfold touch
  split
  · exact setSession_withSessions s _ _
  · exact ⟨_, rfl⟩

theorem dropStaged_withSessions (s : State) (sid : Nat) (e : Entry) : ∃ l, dropStaged s sid e = withSessions s l := by
  unfold dropStaged
  dsimp only
  split
  · split
    · exact ⟨_, rfl⟩
    · exact setSession_withSessions s _ _
  · exact ⟨_, rfl⟩

theorem keep_withSessions (s : State) (o : Origin) (r : Request) (p : Response) : ∃ l, keep s o r p = withSessions s l := by
  unfold keep
  dsimp only
  split
  · exact setSession_withSessions s _ _
  · exact ⟨_, rfl⟩

theorem sessionAt_setSession (s : State) (sid n : Nat) (x : Session) :
    sessionAt (setSession s sid x) n = if n = sid then x else sessionAt s n := kvGet_kvSet _ _ _ _ _

/-- A session whose kind and record stay answers as before, whatever else of it changes. -/
theorem InSession.setSession {s : State} {h : ReqHead} (hs : InSession s h) {x : Session}
    (hkind : x.kind = (sessionAt s h.sid.toNat).kind) (hrec : x.record = (sessionAt s h.sid.toNat).record) :
    InSession (setSession s h.sid.toNat x) h := by
  obtain ⟨serves, whole, rsv, sid, code, fresh⟩ := hs
  have same : sessionAt (Machine.setSession s h.sid.toNat x) h.sid.toNat = x := by simp [sessionAt_setSession]
  refine ⟨serves, whole, rsv, sid, ?_, ?_⟩
  · rw [← code]
    simp only [sessionCode, same, hkind]
    rfl
  · rw [same, hrec]
    exact fresh

/-- A request of an open session starts its idle time again. -/
theorem InSession.touch_eq {s : State} {h : ReqHead} (hs : InSession s h) :
    touch s h.origin h.sid.toNat =
      Machine.setSession s h.sid.toNat { sessionAt s h.sid.toNat with last := s.clocks.aux } := by
  obtain ⟨-, -, -, -, code, -⟩ := hs
  simp [touch, code]

theorem InSession.touch {s : State} {h : ReqHead} (hs : InSession s h) : InSession (touch s h.origin h.sid.toNat) h := by
  rw [hs.touch_eq]
  exact hs.setSession rfl rfl

/-- No response of the session stands under the request's TAG. -/
theorem InSession.recorded_none {s : State} {h : ReqHead} (hs : InSession s h) {r : Request} (hsid : r.sid = h.sid)
    (htag : r.tag = h.tag) : recorded s h.origin r = none := by
  obtain ⟨-, -, -, -, code, fresh⟩ := hs
  have none_found : (sessionAt s h.sid.toNat).record.find? (fun p => decide (p.1.tag = r.tag)) = none := by
    rw [List.find?_eq_none]
    intro p hp
    simpa [htag] using fresh p hp
  simp [recorded, hsid, code, none_found]

/-! ## A request is served as it arrives (R360, R365, R392) -/

/-- In a module that is awake, a request whose LEN names all its data is served at once, its session's idle time begun again. -/
theorem submit_served {s : State} {o : Origin} {r : Request} (hs : Serves s o) (hr : mailboxCode r = .success) :
    submit s o r = serve (touch s o r.sid.toNat) o r := by
  obtain ⟨ans, -, awake, target, -, -⟩ := hs
  obtain ⟨l, touched⟩ := touch_withSessions s o r.sid.toNat
  have still : ∀ ev, wake (withSessions s l) ev = withSessions s l := wake_awake (s := withSessions s l) awake target
  have now : mustWait (withSessions s l) r = false := by
    have st : (withSessions s l).power.st = s.power.st := rfl
    rcases awake with h | h <;> simp [mustWait, st, h]
  simp only [submit, ans, wake_awake awake target, hr, touched, still, now, ite_self, Bool.not_true, Bool.false_eq_true,
    if_false]

/-- What a request leaves once its performance has left s with an abort code: it is counted, kept, and answered without data. -/
def answered (s : State) (h : ReqHead) (r : Request) (c : Nat) : State :=
  sendFrame (keep (counted s r c) h.origin r (answerFrame s r r.sid c [])) h.origin (answerFrame s r r.sid c [])

/-- The entry is written and never read, and exists with this type. -/
structure WriteOnly (idx sub : Nat) (t : OdType) : Prop where
  index_lt : idx < 2 ^ 16
  sub_le : sub ≤ 99
  listed : odEntry idx sub = some (t, .wo)
  allocated : entryCode idx sub = 0

theorem WriteOnly.entry_index {idx sub : Nat} {t : OdType} (h : WriteOnly idx sub t) : (entry idx sub).index.toNat = idx :=
  Nat.mod_eq_of_lt h.index_lt

theorem WriteOnly.entry_sub {idx sub : Nat} {t : OdType} (h : WriteOnly idx sub t) : (entry idx sub).sub.toNat = sub :=
  Nat.mod_eq_of_lt (Nat.lt_of_le_of_lt h.sub_le (by decide))

/-- A whole frame's LEN is the length of its data. -/
theorem frame_len (h : ReqHead) (op : Nat) (e : Entry) (set : BitVec 2) (off : Nat) {data : List Byte}
    (hd : data.length ≤ 4080) : (frame h op e set off data).len.toNat = data.length :=
  Nat.mod_eq_of_lt (by omega)

/-- The header of a WRITE passes check 1. -/
theorem headerCode_write {h : ReqHead} {idx sub : Nat} {t : OdType} (he : WriteOnly idx sub t) (off : Nat) {data : List Byte}
    (hrsv : h.rsv = 0) (hsid : h.sid.toNat ≤ 8) (hd : data.length ≤ 4080) :
    headerCode (frame h opWrite (entry idx sub) 0 off data) false = 0 := by
  have len := frame_len h opWrite (entry idx sub) 0 off hd
  have op : (frame h opWrite (entry idx sub) 0 off data).op.toNat = 2 := rfl
  rw [headerCode, op, len, if_neg]
  simp [frame, he.entry_sub, hrsv, opListed, opRead, opWrite, opOpen, opBatch, Nat.not_lt.2 hsid, Nat.not_lt.2 he.sub_le,
    Nat.not_lt.2 hd]

/-- A WRITE of an open session to such an entry passes checks 3 to 5. -/
theorem requestCode_write {s : State} {h : ReqHead} {idx sub : Nat} {t : OdType} (hs : InSession s h) (he : WriteOnly idx sub t)
    (off : Nat) (data : List Byte) : requestCode s h.origin (frame h opWrite (entry idx sub) 0 off data) = 0 := by
  obtain ⟨⟨-, boot, -⟩, -, -, -, code, -⟩ := hs
  have served : indexServed s idx = true := by simp [indexServed, boot]
  simp [requestCode, frame, he.entry_index, he.entry_sub, entryOp, opWrite, opRead, served, he.allocated, code, he.listed,
    accessCode]

/-- A WRITE of an open session to such an entry goes on to checks 6 to 9, and is answered with what they give. -/
theorem takeFrame_write {s : State} {h : ReqHead} {idx sub : Nat} {t : OdType} (hs : InSession s h) (he : WriteOnly idx sub t)
    (off : Nat) {data : List Byte} (hd : data.length ≤ 4080) {r : Request}
    (hr : r = frame h opWrite (entry idx sub) 0 off data) {q : State × Nat}
    (hq : doWrite (touch s h.origin h.sid.toNat) h.origin (holderOf h.origin h.sid.toNat) r t .wo = q) :
    takeFrame s h r = answered q.1 h r q.2 := by
  obtain ⟨serves, whole, rsv, sid, -⟩ := id hs
  obtain ⟨-, -, -, -, -, change⟩ := hs.touch.1
  have mbox : mailboxCode r = .success := by
    rw [hr, mailboxCode, frame_len h opWrite _ 0 off hd]
    simp [mailboxReturn, frame]
  have fresh := hs.touch.recorded_none (r := r) (by rw [hr]; rfl) (by rw [hr]; rfl)
  have header := headerCode_write he off rsv sid hd
  have request := requestCode_write hs.touch he off data
  rw [← hr] at header request
  have op : r.op.toNat = opWrite := by rw [hr]; rfl
  have rsid : r.sid = h.sid := by rw [hr]; rfl
  have index : r.entry.index.toNat = idx := by rw [hr]; exact he.entry_index
  have subindex : r.entry.sub.toNat = sub := by rw [hr]; exact he.entry_sub
  have one : performOne (touch s h.origin h.sid.toNat) h.origin r false =
      (counted q.1 r q.2, answerFrame q.1 r r.sid q.2 []) := by
    simp [performOne, header, request, op, opOpen, opWrite, doOp, rsid, index, subindex, he.listed, opRead, hq]
  have arrives : takeFrame s h r = submit s h.origin r := by simp [takeFrame, whole]
  rw [arrives, submit_served serves mbox, rsid, serve]
  simp [perform, change, fresh, op, opWrite, opBatch, one, answered]

/-! ## What an answer leaves -/

theorem sendFrame_frame (s : State) (o : Origin) (p : Response) :
    sendFrame s o p = { s with out := (sendFrame s o p).out } ∧ (sendFrame s o p).out.head? = some (.dict o p) := by
  cases o <;> exact ⟨rfl, rfl⟩

/-- Counting a request and its answer moves the counts alone. -/
theorem counted_frame (s : State) (r : Request) (c : Nat) : counted s r c = { s with counts := (counted s r c).counts } := by
  unfold counted countAbort
  split <;> split <;> rfl

/-- An answer changes nothing but the dictionary's sessions, the counts and what has been sent. -/
theorem answered_frame (s : State) (h : ReqHead) (r : Request) (c : Nat) :
    ∃ l, answered s h r c = { withSessions s l with counts := (counted s r c).counts, out := (answered s h r c).out } := by
  obtain ⟨l, kept⟩ := keep_withSessions (counted s r c) h.origin r (answerFrame s r r.sid c [])
  obtain ⟨sent, -⟩ := sendFrame_frame (keep (counted s r c) h.origin r (answerFrame s r r.sid c [])) h.origin
    (answerFrame s r r.sid c [])
  refine ⟨l, ?_⟩
  unfold answered
  rw [sent, kept, counted_frame]
  rfl

@[simp] theorem answered_sec (s : State) (h : ReqHead) (r : Request) (c : Nat) : (answered s h r c).sec = s.sec := by
  obtain ⟨l, eq⟩ := answered_frame s h r c
  rw [eq]
  rfl

/-- The response to a WRITE is the newest answer. -/
theorem answered_replied {s : State} (hboot : s.sec.bootMode ≠ 2) (h : ReqHead) {idx sub : Nat} {t : OdType}
    (he : WriteOnly idx sub t) (off : Nat) (data : List Byte) (c : Nat) :
    Replied (answered s h (frame h opWrite (entry idx sub) 0 off data) c) h 2 (entry idx sub) t.code c [] := by
  have typ : typeOf s (frame h opWrite (entry idx sub) 0 off data) = t.code := by
    simp [typeOf, frame, he.entry_index, he.entry_sub, entryOp, opWrite, opRead, indexServed, hboot, he.listed]
  rw [Replied, answered, (sendFrame_frame _ _ _).2, answerFrame, typ]
  rfl

theorem count_bump (s : State) (i j n idx sub : Nat) :
    count (bump s i j n) idx sub = if od idx sub = od i j then count s idx sub + n else count s idx sub :=
  counts_bump s i j n (od idx sub)

/-- A WRITE that is done is counted once (R385). -/
theorem answered_count (s : State) (h : ReqHead) (e : Entry) (off : Nat) (data : List Byte) :
    count (answered s h (frame h opWrite e 0 off data) 0) 0xA100 1 = count s 0xA100 1 + 1 := by
  obtain ⟨l, eq⟩ := answered_frame s h (frame h opWrite e 0 off data) 0
  have once : counted s (frame h opWrite e 0 off data) 0 = bump s 0xA100 1 1 := rfl
  rw [eq, once]
  exact count_bump s 0xA100 1 1 0xA100 1

/-- A WRITE has been answered with an abort code, its performance having left u. -/
structure WriteAnswered (s s' u : State) (h : ReqHead) (idx sub : Nat) (t : OdType) (c : Nat) : Prop where
  sec : s'.sec = u.sec
  replied : Replied s' h 2 (entry idx sub) t.code c []
  done : c = 0 → count u 0xA100 1 = count s 0xA100 1 → WriteDone s s' h idx sub t.code

theorem answered_write (s : State) {u : State} (hboot : u.sec.bootMode ≠ 2) (h : ReqHead) {idx sub : Nat} {t : OdType}
    (he : WriteOnly idx sub t) (off : Nat) (data : List Byte) (c : Nat) :
    WriteAnswered s (answered u h (frame h opWrite (entry idx sub) 0 off data) c) u h idx sub t c where
  sec := answered_sec _ _ _ _
  replied := answered_replied hboot h he off data c
  done := by
    rintro rfl hcount
    exact ⟨answered_replied hboot h he off data 0, by rw [answered_count, hcount]⟩

/-! ## Writes of values -/

/-- The value, whatever the module's sessions are, lets a write of the entry go on to its command. -/
structure TakesValue (s : State) (idx sub : Nat) (t : OdType) (v : Nat) : Prop where
  short : t.long = false
  pers : isPers idx sub = false
  fits : v < 2 ^ (8 * t.size)
  typ : typeCode t v = 0
  value : ∀ l, commandCode (withSessions s l) idx sub v = 0

theorem length_toLe_of_short {t : OdType} (h : t.long = false) (v : Nat) : (toLe t.size v).length ≤ 4080 := by
  rw [toLe_length]
  revert h
  cases t <;> simp [OdType.long, OdType.size]

/-- Such a WRITE passes checks 6 to 8 and performs its command. -/
theorem doWrite_command {s : State} {h : ReqHead} {idx sub : Nat} {t : OdType} {v : Nat} (hw : MayWrite s h idx sub)
    (he : WriteOnly idx sub t) (hv : TakesValue s idx sub t v) (l : KV Session) :
    ∃ m, doWrite (withSessions s l) h.origin (holderOf h.origin h.sid.toNat) (writeFrame h idx sub t.size v) t .wo =
      command (withSessions s m) h.sid.toNat idx sub v := by
  obtain ⟨-, owner, band⟩ := hw
  obtain ⟨short, pers, fits, typ, value⟩ := hv
  obtain ⟨m, dropped⟩ := withSessions_trans ⟨l, rfl⟩
    (dropStaged_withSessions (withSessions s l) h.sid.toNat (entry idx sub))
  have owner : ownerAbsent (withSessions s m) (holderOf h.origin h.sid.toNat) idx = false := owner
  have band : ¬ (isOob idx sub .wo = true ∧ h.origin ≠ .outOfBand) := fun h => h.2 (band h.1)
  have len := frame_len h opWrite (entry idx sub) 0 0 (length_toLe_of_short short v)
  have val : valueCode (withSessions s m) t .wo idx sub (toLe t.size v) = 0 := by
    simp [valueCode, toLe_length, leNat_toLe, Nat.mod_eq_of_lt fits, typ, value]
  refine ⟨m, ?_⟩
  rw [doWrite, writeFrame, len]
  simp [frame, he.entry_index, he.entry_sub, dropped, band, owner, short, val, writeValue, pers, leNat_toLe,
    Nat.mod_eq_of_lt fits]

/-- A request that writes such a value runs the entry's command, which moves nothing of recovery, and is answered. -/
theorem submitWrite_command {s : State} {h : ReqHead} {idx sub : Nat} {t : OdType} {v : Nat} (hw : MayWrite s h idx sub)
    (he : WriteOnly idx sub t) (hv : TakesValue s idx sub t v) :
    ∃ l, ∀ u c, command (withSessions s l) h.sid.toNat idx sub v = (u, c) → u.sec.bootMode = s.sec.bootMode →
      ∃ s', submitWrite h idx sub t.size v s = .next s' ∧ WriteAnswered s s' u h idx sub t c := by
  obtain ⟨⟨⟨-, boot, -⟩, -⟩, -⟩ := id hw
  obtain ⟨l, touched⟩ := touch_withSessions s h.origin h.sid.toNat
  obtain ⟨m, run⟩ := doWrite_command hw he hv l
  rw [← touched] at run
  refine ⟨m, fun u c hu hmode => ⟨_, ?_, answered_write s (hmode ▸ boot) h he 0 (toLe t.size v) c⟩⟩
  exact congrArg Host.Outcome.next (takeFrame_write hw.1 he 0 (length_toLe_of_short hv.short v) rfl (run.trans hu))

/-! ## Writes of BLOBs (R364) -/

/-- The state in which a WRITE of a BLOB takes its segment: the session's idle time has begun again, and of what it has
staged only this entry's is left. -/
def received (s : State) (h : ReqHead) (e : Entry) : State := dropStaged (touch s h.origin h.sid.toNat) h.sid.toNat e

theorem received_withSessions (s : State) (h : ReqHead) (e : Entry) : ∃ l, received s h e = withSessions s l :=
  withSessions_trans (touch_withSessions s h.origin h.sid.toNat) (dropStaged_withSessions _ h.sid.toNat e)

/-- A WRITE of a BLOB goes on to its segments, or its token. -/
theorem takeFrame_blob {s : State} {h : ReqHead} {idx sub : Nat} (hw : MayWrite s h idx sub) (he : WriteOnly idx sub .blob)
    (off : Nat) {data : List Byte} (hd : data.length ≤ 4080) {r : Request}
    (hr : r = frame h opWrite (entry idx sub) 0 off data) {q : State × Nat}
    (hq : writeBlob (received s h (entry idx sub)) r = q) : takeFrame s h r = answered q.1 h r q.2 := by
  obtain ⟨hs, owner, band⟩ := hw
  obtain ⟨l, dropped⟩ := received_withSessions s h (entry idx sub)
  have owner : ownerAbsent (withSessions s l) (holderOf h.origin h.sid.toNat) idx = false := owner
  have band : ¬ (isOob idx sub .wo = true ∧ h.origin ≠ .outOfBand) := fun h => h.2 (band h.1)
  have len := frame_len h opWrite (entry idx sub) 0 off hd
  refine takeFrame_write hs he off hd hr ?_
  rw [← hq, dropped, hr, doWrite, len]
  rw [received] at dropped
  simp [frame, he.entry_index, he.entry_sub, dropped, band, owner, OdType.long]

/-- A first segment that names no longer length is the whole value. -/
theorem takeSegment_whole (s : State) (sid : Nat) (e : Entry) {data : List Byte} (hfirst : firstSegment data = none) :
    takeSegment s sid e 0 data = (setStaged s sid none, .whole data) := by
  simp [takeSegment, hfirst]

/-- The last segment ends the value that the session has staged. -/
theorem takeSegment_last {s : State} {sid : Nat} {e : Entry} {v data : List Byte} (hv : v.length ≠ 0)
    (hstaged : (sessionAt s sid).staged = some (e, (v ++ data).length, v)) :
    takeSegment s sid e v.length data = (setStaged s sid none, .whole (v ++ data)) := by
  simp [takeSegment, hv, hstaged]

/-- What a session has staged of an entry stays when more of it is written. -/
theorem dropStaged_same {s : State} {sid : Nat} {e : Entry} {n : Nat} {v : List Byte}
    (hstaged : (sessionAt s sid).staged = some (e, n, v)) : dropStaged s sid e = s := by
  simp [dropStaged, hstaged]

end Sys2Proof.Machine
end

section
/-! Images, floor, revocations and the debug port (R434, R436, R437, R442): what each security command does to the security
state and leaves alone, and the settling of O53. -/
namespace Sys2Proof.Machine

/-- The module with another security state. -/
def withSec (s : State) (x : Sec) : State := { s with sec := x }

theorem count_congr {s t : State} (h : s.counts = t.counts) (idx sub : Nat) : count s idx sub = count t idx sub := by
  unfold count
  rw [h]

/-! ## Slots (R434) -/

/-- Nothing has changed but the image slots. -/
def OnlySlots (s s' : State) : Prop :=
  s' = { s with sec := { s.sec with
    slot0 := s'.sec.slot0, slot1 := s'.sec.slot1, slotB0 := s'.sec.slotB0, slotB1 := s'.sec.slotB1 } }

theorem OnlySlots.refl (s : State) : OnlySlots s s := rfl

theorem OnlySlots.trans {a b c : State} (h : OnlySlots a b) (g : OnlySlots b c) : OnlySlots a c := by
  unfold OnlySlots at *
  rw [g, h]

/-- The selectors stay, and with them which slot is inactive. -/
theorem OnlySlots.otherNo {s s' : State} (h : OnlySlots s s') (c : Nat) : otherNo s' c = otherNo s c := by rw [h]; rfl

/-- Floor, revocations and boot mode are none of the slots, nor are the counts. -/
theorem OnlySlots.keeps {s s' : State} (h : OnlySlots s s') :
    s'.sec.floor = s.sec.floor ∧ s'.sec.revoked = s.sec.revoked ∧ s'.sec.bootMode = s.sec.bootMode ∧
      s'.counts = s.counts := by
  rw [h]
  exact ⟨rfl, rfl, rfl, rfl⟩

theorem setSlotAt_onlySlots (s : State) (c n : Nat) (x : Slot) : OnlySlots s (setSlotAt s c n x) := by
  unfold OnlySlots setSlotAt
  split <;> split <;> rfl

/-- A slot reads as what was last put there; every other slot as before. -/
theorem slotAt_setSlotAt (s : State) (c n c' n' : Nat) (x : Slot) :
    slotAt (setSlotAt s c n x) c' n' = if (c' = 0 ↔ c = 0) ∧ (n' = 0 ↔ n = 0) then x else slotAt s c' n' := by
  simp only [slotAt, setSlotAt]
  grind

theorem slotAt_congr {s t : State} (h : s.sec = t.sec) (c n : Nat) : slotAt s c n = slotAt t c n := by
  unfold slotAt
  rw [h]

theorem setInactive_onlySlots (s : State) (x : Slot) : OnlySlots s (setInactive s x) :=
  (setSlotAt_onlySlots s 0 _ x).trans (setSlotAt_onlySlots _ 1 _ x)

/-- Each Headland's inactive slot takes the value, and its other slot stays. -/
theorem slotAt_setInactive (s : State) (x : Slot) {c : Nat} (hc : c < 2) (n : Nat) :
    slotAt (setInactive s x) c n = if n = 0 ↔ otherNo s c = 0 then x else slotAt s c n := by
  obtain rfl | rfl : c = 0 ∨ c = 1 := by omega
  · simp [setInactive, slotAt_setSlotAt]
  · simp [setInactive, slotAt_setSlotAt]

theorem slotAt_setInactive_other (s : State) (x : Slot) {c : Nat} (hc : c < 2) :
    slotAt (setInactive s x) c (otherNo s c) = x := by
  rw [slotAt_setInactive s x hc, if_pos Iff.rfl]

theorem slotAt_setInactive_boot (s : State) (x : Slot) {c : Nat} (hc : c < 2) :
    slotAt (setInactive s x) c (bootOf s c) = slotAt s c (bootOf s c) := by
  rw [slotAt_setInactive s x hc, if_neg]
  unfold otherNo
  omega

/-! ## Security events -/

@[simp] theorem secEvent_sec (s : State) (facts : List Nat) : (secEvent s facts).sec = s.sec := by
  unfold secEvent boxAdd
  split <;> rfl

/-- An event moves no count but that of the records lost. -/
theorem count_secEvent (s : State) (facts : List Nat) {idx sub : Nat} (h : od idx sub ≠ od 0x9000 4) :
    count (secEvent s facts) idx sub = count s idx sub := by
  unfold secEvent boxAdd
  split
  · rfl
  · rw [count_bump, if_neg h]

/-! ## Upload and check of an image (R434, Table 15-3) -/

/-- The module with another value of `OD 8020:02`. -/
def setUpload (s : State) (n : Nat) : State := withSec s { s.sec with upload := n }

theorem setUpload_self (s : State) : setUpload s s.sec.upload = s := rfl

/-- The inactive slots hold x and the upload state is n; the slots that boot, the boot mode and the counts are as before. -/
structure Programmed (s s' : State) (x : Slot) (n : Nat) : Prop where
  upload : s'.sec.upload = n
  mode : s'.sec.bootMode = s.sec.bootMode
  other : ∀ c, c < 2 → slotAt s' c (otherNo s c) = x
  boot : ∀ c, c < 2 → slotAt s' c (bootOf s c) = slotAt s c (bootOf s c)
  counts : s'.counts = s.counts

theorem setUpload_setInactive (s : State) (x : Slot) (n : Nat) : Programmed s (setUpload (setInactive s x) n) x n := by
  obtain ⟨-, -, mode, counts⟩ := (setInactive_onlySlots s x).keeps
  exact ⟨rfl, mode, fun c hc => slotAt_setInactive_other s x hc, fun c hc => slotAt_setInactive_boot s x hc, counts⟩

/-- An upload that nothing is in the way of programs the inactive slots, unchecked. -/
theorem uploadImage_begins {s : State} (h1 : s.sec.upload ≠ 1) (h2 : s.sec.upload ≠ 2) (ha : activating s = false)
    (image : List Byte) : uploadImage s image = (setUpload (setInactive s ⟨image, false⟩) 1, 0) := by
  simp [uploadImage, h1, h2, ha, setUpload, withSec]

/-- An image that passes the checks is marked checked in both Headlands, and counted. -/
theorem execImageCheckComplete_passes {s : State} (hup : s.sec.upload = 1 ∨ s.sec.upload = 2) (hboot : s.sec.bootMode ≠ 2)
    (hcode : imageCode s (inactiveSlot s).image = 0) :
    execImageCheckComplete s =
      .next (bump (setUpload (setInactive s ⟨(inactiveSlot s).image, true⟩) 3) 0x8080 1 1) := by
  have waits : ¬ (s.sec.upload ≠ 1 ∧ s.sec.upload ≠ 2) := by omega
  have mode : ¬ (setInactive s ⟨(inactiveSlot s).image, true⟩).sec.bootMode = 2 := by
    obtain ⟨-, -, same, -⟩ := (setInactive_onlySlots s ⟨(inactiveSlot s).image, true⟩).keeps
    rwa [same]
  simp only [execImageCheckComplete, waits, hcode, if_false, if_true, bump_sec, mode]
  rfl

/-- An image that fails one leaves both inactive slots empty, and its code. -/
theorem execImageCheckComplete_fails {s : State} (hup : s.sec.upload = 1 ∨ s.sec.upload = 2) {code : Nat}
    (hcode : imageCode s (inactiveSlot s).image = code) (hbad : code ≠ 0) :
    execImageCheckComplete s =
      .next (secEvent (bump (setUpload (setInactive s Slot.reset) code) 0x8080 2 1) [2, code]) := by
  have waits : ¬ (s.sec.upload ≠ 1 ∧ s.sec.upload ≠ 2) := by omega
  simp only [execImageCheckComplete, waits, hcode, hbad, if_false]
  rfl

/-- Both outcomes of the check: the copy stands checked, or the slots are empty; each is counted in its own count. -/
theorem execImageCheckComplete_spec {s : State} {code : Nat} (hup : s.sec.upload = 1 ∨ s.sec.upload = 2)
    (hboot : s.sec.bootMode ≠ 2) (hcode : code = imageCode s (inactiveSlot s).image) :
    ∃ s', execImageCheckComplete s = .next s' ∧ s'.sec.upload = (if code = 0 then 3 else code) ∧
      (∀ c, c < 2 → slotAt s' c (otherNo s c) = (if code = 0 then ⟨(inactiveSlot s).image, true⟩ else Slot.reset)) ∧
      count s' 0x8080 1 = count s 0x8080 1 + (if code = 0 then 1 else 0) ∧
      count s' 0x8080 2 = count s 0x8080 2 + (if code = 0 then 0 else 1) := by
  by_cases h0 : code = 0
  · obtain ⟨upload, -, other, -, counts⟩ := setUpload_setInactive s ⟨(inactiveSlot s).image, true⟩ 3
    refine ⟨_, execImageCheckComplete_passes hup hboot (hcode ▸ h0), ?_, ?_, ?_⟩
    · rw [if_pos h0]
      exact upload
    · rw [if_pos h0]
      exact other
    · rw [count_bump, count_bump, count_congr counts, count_congr counts]
      simp [h0, od]
  · obtain ⟨upload, -, other, -, counts⟩ := setUpload_setInactive s Slot.reset code
    refine ⟨_, execImageCheckComplete_fails hup hcode.symm h0, ?_, ?_, ?_⟩
    · rw [if_neg h0, secEvent_sec]
      exact upload
    · rw [if_neg h0]
      exact fun c hc => (slotAt_congr (secEvent_sec _ _) c _).trans (other c hc)
    · rw [count_secEvent _ _ (by decide), count_secEvent _ _ (by decide), count_bump, count_bump, count_congr counts,
        count_congr counts]
      simp [h0, od]

/-! ## The floor (R436) -/

/-- What RAISE_FLOOR to n does to a Headland: a checked inactive slot that is below n is emptied. -/
def emptyBelow (n : Nat) (s : State) (c : Nat) : State :=
  if (otherSlot s c).checked && decide (imgSvn (otherSlot s c).image < n) then setSlotAt s c (otherNo s c) Slot.reset else s

theorem emptyBelow_onlySlots (n : Nat) (s : State) (c : Nat) : OnlySlots s (emptyBelow n s c) := by
  unfold emptyBelow
  split
  · exact setSlotAt_onlySlots s c _ _
  · exact OnlySlots.refl s

/-- One Headland's slots are no business of the other's. -/
theorem slotAt_emptyBelow_other (n : Nat) (s : State) {c c' : Nat} (h : ¬ (c' = 0 ↔ c = 0)) (k : Nat) :
    slotAt (emptyBelow n s c) c' k = slotAt s c' k := by
  unfold emptyBelow
  split
  · rw [slotAt_setSlotAt, if_neg (fun g => h g.1)]
  · rfl

theorem slotAt_emptyBelow_same {n : Nat} {s : State} {c : Nat} (hchecked : (otherSlot s c).checked = true)
    (hbelow : imgSvn (otherSlot s c).image < n) : slotAt (emptyBelow n s c) c (otherNo s c) = Slot.reset := by
  simp [emptyBelow, hchecked, hbelow, slotAt_setSlotAt]

/-- Both Headlands are gone through: an inactive slot below n is empty afterwards. -/
theorem emptyBelow_both {n : Nat} {s : State} {c : Nat} (hc : c < 2) (hchecked : (otherSlot s c).checked = true)
    (hbelow : imgSvn (otherSlot s c).image < n) :
    slotAt (emptyBelow n (emptyBelow n s 0) 1) c (otherNo s c) = Slot.reset := by
  obtain rfl | rfl : c = 0 ∨ c = 1 := by omega
  · rw [slotAt_emptyBelow_other n _ (by decide), slotAt_emptyBelow_same hchecked hbelow]
  · have no := (emptyBelow_onlySlots n s 0).otherNo 1
    have same : otherSlot (emptyBelow n s 0) 1 = otherSlot s 1 := by
      rw [otherSlot, no, slotAt_emptyBelow_other n s (by decide)]
      rfl
    rw [← no]
    exact slotAt_emptyBelow_same (by rw [same]; exact hchecked) (by rw [same]; exact hbelow)

/-- The module with the floor at n, which the black box records. -/
def floorAt (s : State) (n : Nat) : State := secEvent (withSec s { s.sec with floor := n }) [3, s.sec.floor, n]

theorem floorAt_sec (s : State) (n : Nat) : (floorAt s n).sec = { s.sec with floor := n } := secEvent_sec _ _

theorem otherNo_floorAt (s : State) (n c : Nat) : otherNo (floorAt s n) c = otherNo s c := by
  rw [otherNo, bootOf, floorAt_sec]
  rfl

theorem otherSlot_floorAt (s : State) (n c : Nat) : otherSlot (floorAt s n) c = otherSlot s c := by
  rw [otherSlot, otherNo_floorAt, slotAt, floorAt_sec]
  rfl

theorem count_floorAt (s : State) (n : Nat) {idx sub : Nat} (h : od idx sub ≠ od 0x9000 4) :
    count (floorAt s n) idx sub = count s idx sub := by
  rw [floorAt, count_secEvent _ _ h]
  rfl

/-- A write that raises the floor goes through both Headlands, and clears `OD 8020:02` where it empties the slot that the
controller in charge has checked. -/
theorem raiseFloor_above {s : State} (hup : bothUp s = true) (hver : s.sec.runA.version = s.sec.runB.version) {n : Nat}
    (hn : n = (runningNow s).svn) (habove : s.sec.floor < n) :
    ∃ k, raiseFloor s = (setUpload (emptyBelow n (emptyBelow n (floorAt s n) 0) 1) k, 0) := by
  subst hn
  simp only [raiseFloor, hup, hver, ne_eq, not_true_eq_false, decide_false, Bool.not_true, Bool.or_self, Bool.false_eq_true,
    if_false, Nat.not_le.2 habove, List.foldl_cons, List.foldl_nil]
  split
  · exact ⟨0, rfl⟩
  · exact ⟨_, by rw [setUpload_self]; rfl⟩

/-- The floor rises to the running SVN, the inactive slots below it are emptied, and no revocation changes. -/
theorem raiseFloor_raises {s : State} (hup : bothUp s = true) (hver : s.sec.runA.version = s.sec.runB.version) :
    ∃ s', raiseFloor s = (s', 0) ∧ s'.sec.floor = max s.sec.floor (runningNow s).svn ∧ s'.sec.revoked = s.sec.revoked ∧
      s'.sec.bootMode = s.sec.bootMode ∧ count s' 0xA100 1 = count s 0xA100 1 ∧
      ∀ c, c < 2 → s.sec.floor < (runningNow s).svn → (otherSlot s c).checked = true →
        imgSvn (otherSlot s c).image < (runningNow s).svn → slotAt s' c (otherNo s c) = Slot.reset := by
  generalize hn : (runningNow s).svn = n
  by_cases habove : s.sec.floor < n
  · obtain ⟨k, raised⟩ := raiseFloor_above hup hver hn.symm habove
    obtain ⟨floor, revoked, mode, counts⟩ :=
      ((emptyBelow_onlySlots n (floorAt s n) 0).trans (emptyBelow_onlySlots n _ 1)).keeps
    have slots (c) (hc : c < 2) := emptyBelow_both (n := n) (s := floorAt s n) hc
    simp only [otherSlot_floorAt, otherNo_floorAt] at slots
    rw [floorAt_sec] at floor revoked mode
    generalize emptyBelow n (emptyBelow n (floorAt s n) 0) 1 = u at *
    exact ⟨setUpload u k, raised, floor.trans (max_eq_right habove.le).symm, revoked, mode,
      (count_congr counts _ _).trans (count_floorAt s n (by decide)), fun c hc _ => slots c hc⟩
  · have low : (runningNow s).svn ≤ s.sec.floor := by omega
    exact ⟨s, by simp [raiseFloor, hup, hver, low], by omega, rfl, rfl, rfl, fun c _ h => absurd h habove⟩

theorem raiseFloor_refused {s : State} (h : bothUp s = false ∨ s.sec.runA.version ≠ s.sec.runB.version) :
    raiseFloor s = (s, 0x0205) := by
  rcases h with h | h <;> simp [raiseFloor, h]

/-! ## Revocation (R437) -/

theorem revokeKey_revokes {s : State} {v : Nat} (h : keyRuns s (v % 16) = false) :
    ∃ s', revokeKey s v = (s', 0) ∧ s'.sec = { s.sec with
      revoked := s.sec.revoked ||| BitVec.ofNat 32 (2 ^ (16 * (v / 128) + v % 16)) } ∧
      count s' 0xA100 1 = count s 0xA100 1 := by
  refine ⟨secEvent (withSec s { s.sec with revoked := s.sec.revoked ||| BitVec.ofNat 32 (2 ^ (16 * (v / 128) + v % 16)) })
    [4, v / 128, v % 16], ?_, secEvent_sec _ _, count_secEvent _ _ (by decide)⟩
  simp [revokeKey, h, withSec]

theorem revokeKey_refused {s : State} {v : Nat} (h : keyRuns s (v % 16) = true) : revokeKey s v = (s, 0x0205) := by
  simp [revokeKey, h]

/-! ## The debug port (R442, Table 15-7) -/

theorem newChallenge_draws (s : State) :
    ∃ b, (newChallenge s).sec = { s.sec with challenge := some b } ∧ b.length = 32 ∧ (newChallenge s).counts = s.counts :=
  ⟨_, rfl, by simp [padTo, zeros], rfl⟩

/-- A token that passes every check begins the unlock: the port stays closed, the erasure is pending, SPDM ends. -/
theorem unlock_begins {s : State} {b : List Byte} (hopen : s.sec.openCount < 32) (hlive : anyLive s = false)
    (htokens : s.sec.refusedTokens < 8) (hport : s.sec.debugPort = 0) (hunlock : s.sec.unlock = none)
    (hcheck : tokenCheck s b = 0) :
    unlock s b = (withSec s { s.sec with
      challenge := none, conns := [], sessions := [], erasePending := true, unlock := some (5, cutLe b 5 1, cutLe b 6 1) }, 0) := by
  simp [withSec, unlock, Nat.not_le.2 hopen, hlive, Nat.not_le.2 htokens, hport, hunlock, hcheck, beginUnlock]

/-- One that fails a check is counted, and its challenge is used up. -/
theorem unlock_refuses {s : State} {b : List Byte} (hopen : s.sec.openCount < 32) (hlive : anyLive s = false)
    (htokens : s.sec.refusedTokens < 8) (hport : s.sec.debugPort = 0) (hunlock : s.sec.unlock = none)
    (hcheck : tokenCheck s b ≠ 0) :
    ∃ s', unlock s b = (s', 0x0302) ∧
      s'.sec = { s.sec with challenge := none, refusedTokens := s.sec.refusedTokens + 1 } := by
  refine ⟨bump (secEvent (withSec s { s.sec with challenge := none, refusedTokens := s.sec.refusedTokens + 1 })
    [5, tokenCheck s b]) 0x8080 4 1, ?_, secEvent_sec _ _⟩
  simp [withSec, unlock, Nat.not_le.2 hopen, hlive, Nat.not_le.2 htokens, hport, hunlock, hcheck]

/-- Steps 5 to 8 of an unlock, each in its idle step. -/
theorem unlockStep_sec {s : State} {n scope k : Nat} (hstep : 6 ≤ s.board.step) (htrip : s.power.trip = false)
    (hunlock : s.sec.unlock = some (n, scope, k)) :
    (n = 5 → (unlockStep s).sec = { s.sec with chains := [], keys := [], unlock := some (6, scope, k) }) ∧
    (n = 6 → (unlockStep s).sec = { s.sec with
      openCount := s.sec.openCount + 1, lifecycle := 1, erasePending := false, unlock := some (7, scope, k) }) ∧
    (n = 7 → (unlockStep s).sec = { s.sec with debugPort := scope, unlock := some (8, scope, k) }) ∧
    (n = 8 → ∃ key : RsaKey, (unlockStep s).sec = { s.sec with aliasKey := true, keys := [(0, key)], unlock := none }) := by
  have runs : ¬ (s.board.step < 6 ∨ s.power.trip = true) := by simp [htrip, hstep]
  refine ⟨?_, ?_, ?_, ?_⟩ <;> rintro rfl <;> simp only [unlockStep, runs, hunlock, if_false]
  · exact (bump_sec _ _ _ _).trans (secEvent_sec _ _)
  · exact ⟨_, rfl⟩

/-! ## The commands -/

theorem writeOnly_image : WriteOnly 0x8020 1 .blob := ⟨by decide, by decide, rfl, rfl⟩
theorem writeOnly_floor : WriteOnly 0x8010 2 .u8 := ⟨by decide, by decide, rfl, rfl⟩
theorem writeOnly_revoke : WriteOnly 0x8010 3 .u8 := ⟨by decide, by decide, rfl, rfl⟩
theorem writeOnly_challenge : WriteOnly 0x8040 1 .u8 := ⟨by decide, by decide, rfl, rfl⟩
theorem writeOnly_token : WriteOnly 0x8040 2 .blob := ⟨by decide, by decide, rfl, rfl⟩

theorem takesValue_floor (s : State) : TakesValue s 0x8010 2 .u8 1 := ⟨rfl, rfl, by decide, rfl, fun _ => rfl⟩

theorem takesValue_challenge (s : State) : TakesValue s 0x8040 1 .u8 1 := ⟨rfl, rfl, by decide, rfl, fun _ => rfl⟩

/-- A revocation's reserved bits are 0. -/
theorem takesValue_revoke (s : State) {v : Byte} (hv : v.toNat / 16 % 8 = 0) : TakesValue s 0x8010 3 .u8 v.toNat where
  short := rfl
  pers := rfl
  fits := v.isLt
  typ := rfl
  value := fun l => by
    have other : oneOnly 0x8010 3 = false := rfl
    simp [commandCode, other, hv]

/-- RAISE_FLOOR while both controllers run one version. -/
theorem execRaiseFloor_raises {s : State} {h : ReqHead} (hw : MayWrite s h 0x8010 2) (hup : bothUp s = true)
    (hver : s.sec.runA.version = s.sec.runB.version) :
    ∃ s', execRaiseFloor h s = .next s' ∧ WriteDone s s' h 0x8010 2 2 ∧
      s'.sec.floor = max s.sec.floor (runningNow s).svn ∧ s'.sec.revoked = s.sec.revoked ∧
      ∀ c, c < 2 → s.sec.floor < (runningNow s).svn → (otherSlot s c).checked = true →
        imgSvn (otherSlot s c).image < (runningNow s).svn → slotAt s' c (otherNo s c) = Slot.reset := by
  obtain ⟨l, answer⟩ := submitWrite_command hw writeOnly_floor (takesValue_floor s)
  obtain ⟨u, run, floor, revoked, mode, counts, slots⟩ := raiseFloor_raises (s := withSessions s l) hup hver
  obtain ⟨s', eq, sec, -, done⟩ := answer u 0 run mode
  refine ⟨s', eq, done rfl counts, by rw [sec]; exact floor, by rw [sec]; exact revoked, fun c hc h1 h2 h3 => ?_⟩
  exact (slotAt_congr sec c _).trans (slots c hc h1 h2 h3)

/-- While the controllers run different versions, or one is out of service, the floor stays. -/
theorem execRaiseFloor_refused {s : State} {h : ReqHead} (hw : MayWrite s h 0x8010 2)
    (hno : bothUp s = false ∨ s.sec.runA.version ≠ s.sec.runB.version) :
    ∃ s', execRaiseFloor h s = .next s' ∧ Replied s' h 2 (entry 0x8010 2) 2 0x0205 [] ∧ s'.sec = s.sec := by
  obtain ⟨l, answer⟩ := submitWrite_command hw writeOnly_floor (takesValue_floor s)
  obtain ⟨s', eq, sec, replied, -⟩ := answer _ 0x0205 (raiseFloor_refused (s := withSessions s l) hno) rfl
  exact ⟨s', eq, replied, sec⟩

theorem execRevoke_revokes {s : State} {h : ReqHead} {v : Byte} (hw : MayWrite s h 0x8010 3) (hv : v.toNat / 16 % 8 = 0)
    (hkey : keyRuns s (v.toNat % 16) = false) :
    ∃ s', execRevoke h v s = .next s' ∧ WriteDone s s' h 0x8010 3 2 ∧
      s'.sec.revoked = s.sec.revoked ||| BitVec.ofNat 32 (2 ^ (16 * (v.toNat / 128) + v.toNat % 16)) ∧
      s'.sec.floor = s.sec.floor := by
  obtain ⟨l, answer⟩ := submitWrite_command hw writeOnly_revoke (takesValue_revoke s hv)
  obtain ⟨u, run, usec, counts⟩ := revokeKey_revokes (s := withSessions s l) hkey
  obtain ⟨s', eq, sec, -, done⟩ := answer u 0 run (by rw [usec]; rfl)
  exact ⟨s', eq, done rfl counts, by rw [sec, usec]; rfl, by rw [sec, usec]; rfl⟩

/-- The KEYID of an image that runs is not revoked. -/
theorem execRevoke_refused {s : State} {h : ReqHead} {v : Byte} (hw : MayWrite s h 0x8010 3) (hv : v.toNat / 16 % 8 = 0)
    (hkey : keyRuns s (v.toNat % 16) = true) :
    ∃ s', execRevoke h v s = .next s' ∧ Replied s' h 2 (entry 0x8010 3) 2 0x0205 [] ∧ s'.sec = s.sec := by
  obtain ⟨l, answer⟩ := submitWrite_command hw writeOnly_revoke (takesValue_revoke s hv)
  obtain ⟨s', eq, sec, replied, -⟩ := answer _ 0x0205 (revokeKey_refused (s := withSessions s l) hkey) rfl
  exact ⟨s', eq, replied, sec⟩

theorem execNewChallenge_draws {s : State} {h : ReqHead} (hw : MayWrite s h 0x8040 1) :
    ∃ s' b, execNewChallenge h s = .next s' ∧ WriteDone s s' h 0x8040 1 2 ∧ s'.sec.challenge = some b ∧ b.length = 32 := by
  obtain ⟨l, answer⟩ := submitWrite_command hw writeOnly_challenge (takesValue_challenge s)
  obtain ⟨b, usec, len, counts⟩ := newChallenge_draws (withSessions s l)
  obtain ⟨s', eq, sec, -, done⟩ := answer (newChallenge (withSessions s l)) 0 rfl rfl
  exact ⟨s', b, eq, done rfl (count_congr counts _ _), by rw [sec, usec], len⟩

/-- The segments before the last one of a long image are not empty, and their lengths add up with its own. -/
theorem lastSegment_bounds {n : Nat} (h : 4080 < n) : 0 < n - lastSegment n ∧ lastSegment n ≤ 4080 := by
  have long : lastSegment n = (n - 4077) % 4080 + 1 := if_neg (by omega)
  omega

/-- A segment that completes an image starts its upload. -/
theorem takeFrame_upload {s : State} {h : ReqHead} {off : Nat} {data image : List Byte} (hw : MayWrite s h 0x8020 1)
    (hoff : off < 2 ^ 32) (hd : data.length ≤ 4080)
    (hseg : takeSegment (received s h (entry 0x8020 1)) h.sid.toNat (entry 0x8020 1) off data =
      (setStaged (received s h (entry 0x8020 1)) h.sid.toNat none, .whole image)) :
    ∃ l, ∀ u c, uploadImage (withSessions s l) image = (u, c) →
      takeFrame s h (frame h opWrite (entry 0x8020 1) 0 off data) =
        answered u h (frame h opWrite (entry 0x8020 1) 0 off data) c := by
  obtain ⟨l, staged⟩ := withSessions_trans (received_withSessions s h (entry 0x8020 1))
    (setSession_withSessions _ h.sid.toNat { sessionAt (received s h (entry 0x8020 1)) h.sid.toNat with staged := none })
  refine ⟨l, fun u c hu => takeFrame_blob hw writeOnly_image off hd rfl (q := (u, c)) ?_⟩
  have len := frame_len h opWrite (entry 0x8020 1) 0 off hd
  have offset : (frame h opWrite (entry 0x8020 1) 0 off data).offset.toNat = off := Nat.mod_eq_of_lt hoff
  have noToken : ¬ (entry 0x8020 1).index = 0x8040 := by decide
  rw [writeBlob, len, offset]
  simp only [frame, noToken, if_false, List.take_length, hseg]
  rw [← hu, ← staged]
  rfl

/-- The bytes of an image that come before its last segment. -/
def stagedPart (image : List Byte) : List Byte := image.take (image.length - lastSegment image.length)

theorem length_stagedPart (image : List Byte) : (stagedPart image).length = image.length - lastSegment image.length := by
  rw [stagedPart, List.length_take]
  omega

theorem stagedPart_append (image : List Byte) : stagedPart image ++ image.drop (stagedPart image).length = image := by
  rw [length_stagedPart]
  exact List.take_append_drop _ _

/-- The module where the request's session has staged all of an image but its last segment. -/
def staging (s : State) (h : ReqHead) (image : List Byte) : State :=
  setStaged s h.sid.toNat (some (entry 0x8020 1, image.length, stagedPart image))

/-- The frame that brings an image's last segment. -/
def lastFrame (h : ReqHead) (image : List Byte) : Request :=
  frame h opWrite (entry 0x8020 1) 0 (stagedPart image).length (image.drop (stagedPart image).length)

theorem execImageUpload_short {image : List Byte} (hshort : image.length ≤ 4080) (s : State) (h : ReqHead) :
    execImageUpload h image s = .next (takeFrame s h (frame h opWrite (entry 0x8020 1) 0 0 image)) := by
  have off : image.length - lastSegment image.length = 0 := by simp [lastSegment, hshort]
  rw [execImageUpload, off]
  rfl

/-- The last segment of a long image arrives in a session that has staged the others. -/
theorem execImageUpload_long {s : State} {h : ReqHead} {image : List Byte} (hs : InSession s h) (hlong : 4080 < image.length) :
    execImageUpload h image s = .next (takeFrame (staging s h image) h (lastFrame h image)) := by
  obtain ⟨⟨ans, -⟩, -, -, -, code, -⟩ := id hs
  obtain ⟨early, -⟩ := lastSegment_bounds hlong
  have new (off : Nat) (data : List Byte) : recorded s h.origin (frame h opWrite (entry 0x8020 1) 0 off data) = none :=
    hs.recorded_none rfl rfl
  rw [lastFrame, staging, length_stagedPart, stagedPart]
  simp only [execImageUpload, new, ans, code, Nat.ne_of_gt early, ne_eq, not_false_eq_true, Option.isNone_none, and_self,
    if_true]

/-- There, the last segment completes the image. -/
theorem takeSegment_lastFrame {s : State} {h : ReqHead} {image : List Byte} (hs : InSession s h) (hlong : 4080 < image.length)
    {u : State} (hu : u = received (staging s h image) h (entry 0x8020 1)) :
    takeSegment u h.sid.toNat (entry 0x8020 1) (stagedPart image).length (image.drop (stagedPart image).length) =
      (setStaged u h.sid.toNat none, .whole image) := by
  have opened : InSession (staging s h image) h := hs.setSession rfl rfl
  have staged : (sessionAt (touch (staging s h image) h.origin h.sid.toNat) h.sid.toNat).staged =
      some (entry 0x8020 1, image.length, stagedPart image) := by
    rw [opened.touch_eq]
    simp [sessionAt_setSession, staging, setStaged]
  have early : (stagedPart image).length ≠ 0 := by
    rw [length_stagedPart]
    exact Nat.ne_of_gt (lastSegment_bounds hlong).1
  have whole := takeSegment_last early (by rw [stagedPart_append]; exact staged)
  rw [stagedPart_append] at whole
  rw [hu, received, dropStaged_same staged, whole]

/-- An upload whose image comes whole, in one segment or with its last one, starts in each Headland. -/
theorem execImageUpload_uploads {s : State} {h : ReqHead} {image : List Byte} (hw : MayWrite s h 0x8020 1)
    (hlen : image.length ≤ 16777216) (hfirst : image.length ≤ 4080 → firstSegment image = none) :
    ∃ l, ∀ u c, uploadImage (withSessions s l) image = (u, c) → u.sec.bootMode = s.sec.bootMode →
      ∃ s', execImageUpload h image s = .next s' ∧ WriteAnswered s s' u h 0x8020 1 .blob c := by
  obtain ⟨hs, owner, band⟩ := id hw
  obtain ⟨-, boot, -⟩ := hs.1
  by_cases short : image.length ≤ 4080
  · obtain ⟨l, taken⟩ := takeFrame_upload hw (off := 0) (by decide) short (takeSegment_whole _ _ _ (hfirst short))
    refine ⟨l, fun u c hu hmode => ⟨_, ?_, answered_write s (hmode ▸ boot) h writeOnly_image 0 image c⟩⟩
    rw [execImageUpload_short short, taken u c hu]
  · have long := Nat.lt_of_not_le short
    have len := length_stagedPart image
    have bounds := lastSegment_bounds long
    have may : MayWrite (staging s h image) h 0x8020 1 := ⟨hs.setSession rfl rfl, owner, band⟩
    obtain ⟨l, taken⟩ := takeFrame_upload may (by omega) (by rw [List.length_drop]; omega)
      (takeSegment_lastFrame hs long rfl)
    refine ⟨l, fun u c hu hmode => ⟨_, ?_, answered_write s (hmode ▸ boot) h writeOnly_image (stagedPart image).length
      (image.drop (stagedPart image).length) c⟩⟩
    rw [execImageUpload_long hs long, lastFrame, taken u c hu]

/-- A token is taken in one write. -/
theorem execUnlockToken_unlocks {s : State} {h : ReqHead} {token : List Byte} (hw : MayWrite s h 0x8040 2)
    (hlen : token.length ≤ 4080) :
    ∃ l, ∀ u c, unlock (withSessions s l) token = (u, c) → u.sec.bootMode = s.sec.bootMode →
      ∃ s', execUnlockToken h token s = .next s' ∧ WriteAnswered s s' u h 0x8040 2 .blob c := by
  obtain ⟨⟨⟨-, boot, -⟩, -⟩, -⟩ := id hw
  obtain ⟨l, dropped⟩ := received_withSessions s h (entry 0x8040 2)
  refine ⟨l, fun u c hu hmode => ⟨_, ?_, answered_write s (hmode ▸ boot) h writeOnly_token 0 token c⟩⟩
  refine congrArg Host.Outcome.next (takeFrame_blob hw writeOnly_token 0 hlen rfl (q := (u, c)) ?_)
  rw [dropped, ← hu]
  rfl

/-- A token either begins the unlock with the port closed, or is counted; its challenge is used up either way. -/
theorem execUnlockToken_spec {s : State} {h : ReqHead} {token : List Byte} (hw : MayWrite s h 0x8040 2)
    (hlen : token.length ≤ 4080) (hopen : s.sec.openCount < 32) (hlive : anyLive s = false)
    (htokens : s.sec.refusedTokens < 8) (hport : s.sec.debugPort = 0) (hunlock : s.sec.unlock = none) :
    ∃ s', execUnlockToken h token s = .next s' ∧ s'.sec.challenge = none ∧
      (tokenCheck s token = 0 → WriteDone s s' h 0x8040 2 9 ∧ s'.sec.debugPort = 0 ∧ s'.sec.erasePending = true ∧
        s'.sec.conns = [] ∧ s'.sec.sessions = [] ∧ s'.sec.unlock = some (5, cutLe token 5 1, cutLe token 6 1)) ∧
      (tokenCheck s token ≠ 0 → Replied s' h 2 (entry 0x8040 2) 9 0x0302 [] ∧ s'.sec.debugPort = 0 ∧
        s'.sec.refusedTokens = s.sec.refusedTokens + 1 ∧ s'.sec.openCount = s.sec.openCount) := by
  obtain ⟨l, answer⟩ := execUnlockToken_unlocks hw hlen
  by_cases hcheck : tokenCheck s token = 0
  · obtain ⟨s', eq, sec, -, done⟩ :=
      answer _ 0 (unlock_begins (s := withSessions s l) hopen hlive htokens hport hunlock hcheck) rfl
    refine ⟨s', eq, ?_, fun _ => ⟨done rfl rfl, ?_⟩, fun h => absurd hcheck h⟩ <;> rw [sec]
    · rfl
    · exact ⟨hport, rfl, rfl, rfl, rfl⟩
  · obtain ⟨u, run, usec⟩ := unlock_refuses (s := withSessions s l) hopen hlive htokens hport hunlock hcheck
    obtain ⟨s', eq, sec, replied, -⟩ := answer u 0x0302 run (by rw [usec]; rfl)
    refine ⟨s', eq, ?_, fun h => absurd h hcheck, fun _ => ⟨replied, ?_⟩⟩ <;> rw [sec, usec]
    exact ⟨hport, rfl, rfl⟩

/-- An upload that may begin puts the image, unchecked, into each Headland's inactive slot. -/
theorem execImageUpload_spec {s : State} {h : ReqHead} {image : List Byte} (hw : MayWrite s h 0x8020 1)
    (hlen : image.length ≤ 16777216) (hfirst : image.length ≤ 4080 → firstSegment image = none) (h1 : s.sec.upload ≠ 1)
    (h2 : s.sec.upload ≠ 2) (ha : activating s = false) :
    ∃ s', execImageUpload h image s = .next s' ∧ WriteDone s s' h 0x8020 1 9 ∧ s'.sec.upload = 1 ∧
      ∀ c, c < 2 → slotAt s' c (otherNo s c) = ⟨image, false⟩ ∧ slotAt s' c (bootOf s c) = slotAt s c (bootOf s c) := by
  obtain ⟨l, answer⟩ := execImageUpload_uploads hw hlen hfirst
  obtain ⟨upload, mode, other, boot, counts⟩ := setUpload_setInactive (withSessions s l) ⟨image, false⟩ 1
  obtain ⟨s', eq, sec, -, done⟩ := answer _ 0 (uploadImage_begins (s := withSessions s l) h1 h2 ha image) mode
  exact ⟨s', eq, done rfl (count_congr counts _ _), by rw [sec]; exact upload, fun c hc =>
    ⟨(slotAt_congr sec c _).trans (other c hc), (slotAt_congr sec c _).trans (boot c hc)⟩⟩

end Sys2Proof.Machine

open Sys2Proof Sys2Proof.Machine in
/-- Settles O53: each request reaches its command in a state that differs in its sessions alone (`submitWrite_command`,
`takeFrame_blob`), and the answer leaves the security state that the command makes (`answered_write`); the unlock's steps by
`unlockStep_sec`. -/
theorem firmwareAndFusesAreGuarded : Obligations.FirmwareAndFusesAreGuarded := by
  unfold Obligations.FirmwareAndFusesAreGuarded
  exact fun s h => ⟨fun image => execImageUpload_spec, fun code => execImageCheckComplete_spec, execRaiseFloor_raises,
    execRaiseFloor_refused, fun v => execRevoke_revokes, fun v => execRevoke_refused, execNewChallenge_draws,
    fun token => execUnlockToken_spec,
    fun n scope k hstep htrip hunlock _ _ => unlockStep_sec hstep htrip hunlock⟩
end
